-- ==== Sys2Proof/Word.lean ====
section
/-!
DEFINITION. Words, halves and configurations of the Brixma, and the plainest arithmetic over them.
-/

namespace Sys2Proof

/-- A 32-bit register value; every register access is 4 bytes (R53, R642). -/
abbrev Word := BitVec 32

/-- A byte of a memory structure, register or fabric transfer (R10). -/
abbrev Byte := BitVec 8

/-- A physical address (R99). -/
abbrev Paddr := BitVec 64

/-- The two halves of the pair (R1). -/
inductive HalfId where
  | a
  | b
  deriving DecidableEq, Repr

/-- The other half, its twin. -/
def HalfId.twin : HalfId → HalfId
  | .a => .b
  | .b => .a

/-- 0 for half A and 1 for half B, as every layout of the spec codes it. -/
def HalfId.code : HalfId → Nat
  | .a => 0
  | .b => 1

/-- The two build configurations (R1). -/
inductive Variant where
  | brx16T
  | brx4T
  deriving DecidableEq, Repr

/-- Bits `hi` down to `lo` of a register word, as a number. -/
def Word.field (w : Word) (lo n : Nat) : Nat := (w.toNat / 2 ^ lo) % 2 ^ n

/-- Bit `k` of a register word. -/
def Word.bit (w : Word) (k : Nat) : Bool := w.getLsbD k

/-- 1 for true and 0 for false. -/
def bitOf (b : Bool) : Nat := if b then 1 else 0

/-- A value placed at bit `lo` of an `n`-bit field. -/
def at' (v lo n : Nat) : Nat := (v % 2 ^ n) * 2 ^ lo

/-- `v` held between `lo` and `hi`, "stored at the nearer limit". -/
def clampTo (lo hi v : Nat) : Nat := if v < lo then lo else if hi < v then hi else v

/-- `v + n`, stopping at the largest value `top` of a saturating counter. -/
def satAdd (top v n : Nat) : Nat := if top < v + n then top else v + n

end Sys2Proof
end

