-- ==== Sys2Proof/Config.lean ====
section
/-!
DEFINITION. What the build configuration fixes (R1, R28, R341, R416, R459, R475, R649), and the
free values: what the spec leaves open, as constants without a body.
-/

namespace Sys2Proof.Config

open Sys2Proof

/-- A figure that is `x` in BRX-16T and `y` in BRX-4T. -/
def per (v : Variant) (x y : Nat) : Nat :=
  match v with
  | .brx16T => x
  | .brx4T => y

/-- Home channels of a half (R1). -/
def homeCount (v : Variant) : Nat := per v 8 2
/-- Sequencer engines of a half (R1). -/
def engines (v : Variant) : Nat := per v 16 4
/-- Hard decode cores of a half (R1). -/
def hardCores (v : Variant) : Nat := per v 10 3
/-- Soft decode cores of a half (R1). -/
def softCores (v : Variant) : Nat := per v 4 1
/-- Pool banks of 1,024 cells of a half (R28). -/
def banks (v : Variant) : Nat := per v 16 4
/-- Cells of one pool bank (R28). -/
def bankCells : Nat := 1024
/-- Queues of a half, queue 0 included (R305). -/
def queues (v : Variant) : Nat := per v 512 128
/-- Command contexts, and range-lock entries, of a half (R341, R409). -/
def contexts (v : Variant) : Nat := per v 2048 512
/-- Contexts reserved to the admin queue (R341). -/
def adminReserve (v : Variant) : Nat := per v 16 8
/-- Gutters of a half (R475). -/
def gutters (v : Variant) : Nat := per v 32 16
/-- Gutter cells of a half (R475). -/
def gutterCells (v : Variant) : Nat := per v 8192 2048
/-- Loop slots of a half (R486). -/
def loops (v : Variant) : Nat := per v 8 4
/-- Interrupt sources of a half (R507). -/
def sources (v : Variant) : Nat := per v 256 128
/-- Stream slots of a half (R435). -/
def streams (v : Variant) : Nat := per v 16 1
/-- Shared DMA buffer lines free at reset (R458). -/
def dmaLines (v : Variant) : Nat := per v 2048 512
/-- Pool ports the ridge arbiter grants (R415). -/
def poolPorts (v : Variant) : Nat := per v 4 2
/-- The spare minimum of R22. -/
def spareMin (v : Variant) : Nat := per v 2 1
/-- The largest and the reset value of GEN_ENG_CFG.BG_MAX (R27). -/
def bgLimit (v : Variant) : Nat := per v 6 1
/-- The largest and the reset value of GEN_PE_CTL.OPEN_MAX (R227). -/
def openLimit (v : Variant) : Nat := per v 256 64
/-- Reset value of PAR_ACC.LIMIT (R304). -/
def accLimit (v : Variant) : Nat := per v 2048 512
/-- Cells of a channel's reserve before any shrinking (R29). -/
def reserveCells : Nat := 512
/-- The floor of a channel's reserve (R30). -/
def reserveFloor : Nat := 64
/-- Own block records of a half (R1). -/
def records (v : Variant) : Nat := per v 131072 32768
/-- Words of memory `m` of R459, for `m` from 0 to 4. -/
def memWords (v : Variant) (m : Nat) : Nat :=
  match m with
  | 0 => per v 1048576 262144
  | 1 => per v 524288 131072
  | 2 => per v 131072 32768
  | 3 => per v 32768 8192
  | 4 => per v 32768 4096
  | _ => 0

/-- Pair channels a half has at home: 0-7 or 8-15, and in BRX-4T 0-1 or 8-9 (00, *Place in the
Ramique chip*). -/
def homeChannels (v : Variant) (h : HalfId) : List Nat :=
  (List.range (homeCount v)).map (fun i => 8 * h.code + i)

/-- The pair channels of the configuration. -/
def pairChannels (v : Variant) : List Nat := homeChannels v .a ++ homeChannels v .b

/-- The half whose home a pair channel is. -/
def homeOf (c : Nat) : HalfId := if c < 8 then .a else .b

/-- FREE VALUE. Silicon stepping of GEN_ID.STEP and IDENTIFY (R383, R649): the spec gives no value. -/
opaque siliconStep : BitVec 8

/-- FREE VALUE. A number the spec leaves undefined, one for each use of the counter `Block.freeUses`
(R456: counts after a DROP; log entry 9 names every use). -/
opaque freeValue : Nat → BitVec 32

/-- FREE VALUE. The unit pages by which a journal entry carried forward past a checkpoint had moved WP on, for the entry's GSEQ and its position: R553 gives an entry no
field for them (DESIGN CHOICE, log entry 111). -/
opaque carriedPages : Nat → Nat → Nat

/-! ### The code (R229-R231, R243)

The file brx_ldpc_q15x144_z256.bin is delivered beside the spec and not printed in it, and the spec leaves figures of the decoder open. -/

/-- FREE VALUE. Entry (row, column) of the information columns of the base matrix: `none` is 0xFFFF, the all-zero block, else the shift (R230). -/
opaque baseEntry : Nat → Nat → Option (BitVec 8)

/-- FREE VALUE. The magnitude a hard core gives every raw bit (R243: the same for each). -/
opaque hardMagnitude : Nat

/-- FREE VALUE. The normalisation of the min-sum magnitudes (R243 gives no factor). -/
opaque normalise : Nat → Nat

/-- FREE VALUE. What a core's message width keeps of a sum (R243 gives no width). -/
opaque clipSum : Int → Int

/-- FREE VALUE. The order in which a core takes the layers of a code of `m` rows (R243 gives none); only an order of all the rows counts. -/
opaque layerOrder : Nat → List Nat

/-- FREE VALUE. The bit a sum of zero decides (R243 gives none). -/
opaque zeroDecides : Bool

/-! ### What the dies' standards fix (R145, R175-R179)

ONFI 5.1 and JESD230 give these bytes, and the spec does not print them. -/

/-- FREE VALUE. P1 to P4 of the timing-mode feature: on a Toggle DDR die or an NV-LPDDR4 die, for a rate code; code 0 is SDR timing mode 5. -/
opaque timingParams : Bool → Nat → BitVec 32

/-- FREE VALUE. The four bytes of ODT CONFIGURE by which a die terminates only its own data-in (R175). -/
opaque odtMatrix : BitVec 32

/-- FREE VALUE. The 16 bytes of the training pattern, which differ on each lane (R179). -/
opaque trainPattern : BitVec 128

/-! ### The error injector (R271) -/

/-- FREE VALUE. Mode 0: the draw for one bit of one sense, in units of 2^−20; a sense is one use of the counter `Block.freeUses`. -/
opaque injectDraw : Nat → Nat → BitVec 20

/-- FREE VALUE. Mode 1: the draw from the standard normal distribution for one bit of one command, in units of 2^−20, by the command's number, the
codeword's PADDR and the bit. -/
opaque injectNormal : Nat → Nat → Nat → Int

end Sys2Proof.Config
end

