-- ==== Sys2Proof/Types.lean ====
section
/-!
DEFINITION. The data the commands carry and the state holds: records, payloads, profiles, queue
entries, descriptors, die findings, checkpoint copies and guy-link messages.
-/

namespace Sys2Proof

/-- A table by key in canonical form: keys strictly rising, no entry equal to the default of the table
(each table's default is named where it is read). -/
abbrev Tab (α : Type) := List (Nat × α)

/-- The 64 bytes of a queue entry, byte `i` at bits `8 i + 7` to `8 i` (R10, R310). -/
abbrev Entry := BitVec 512

/-- The 512 bytes of a die profile (R105). -/
abbrev Profile := BitVec 4096

/-- A codeword's payload: 4,096 user bytes and 32 metadata bytes (R228). -/
structure Payload where
  user : BitVec 32768
  mdat : BitVec 256
  deriving DecidableEq, Repr

/-- Record STATE codes (R112). -/
inductive UnitState where
  | free | erasing | erased | opened | full | retired | region
  deriving DecidableEq, Repr

/-- STRIPE_ROLE codes (R111). -/
inductive Role where
  | none | data | p | q
  deriving DecidableEq, Repr

/-- A block record (R111), field for field. -/
structure Rec where
  state    : UnitState
  grownBad : Bool
  slc      : Bool
  nru      : Bool
  fly      : Bool
  tension  : BitVec 4
  age      : BitVec 3
  rgnOwn   : Bool
  zone     : BitVec 4
  region   : BitVec 4
  suspCnt  : BitVec 8
  wp       : BitVec 16
  valid    : BitVec 16
  eraseCnt : BitVec 24
  voidCnt  : BitVec 4
  role     : Role
  next     : BitVec 18
  failCnt  : BitVec 8
  deriving DecidableEq, Repr

/-- What an unlisted record index reads as: a free unit never erased, all 16 bytes zero. -/
def Rec.blank : Rec :=
  { state := .free, grownBad := false, slc := false, nru := false, fly := false, tension := 0, age := 0,
    rgnOwn := false, zone := 0, region := 0, suspCnt := 0, wp := 0, valid := 0, eraseCnt := 0, voidCnt := 0,
    role := .none, next := 0, failCnt := 0 }

/-- Status codes of replies (R396); `code` gives the values. -/
inductive Status where
  | doneOk | accepted | declined | malformed | aborted | addressRange | unitState | unitSpace | programOrder
  | openLimit | holdInvalid | paramInvalid | fail | verifyFail | uncorrectable | dataPoison | sourcePoison
  | xferError | compareMiss | regionHidden | regionLocked | regionMapped | regionLayout | regionCheck
  | regionState | stripeLimit | stripeLayout | stripeWindow | queueInvalid | queueExists | watchLimit
  | profileInvalid | profileBound | groupInvalid | groupLimit | groupVoid | unitAbsent | retireLimit
  | restoreBlocked | restoreFail | twinState | attachFail | featureReserved
  deriving DecidableEq, Repr

/-- The opcodes of R352. -/
inductive Opcode where
  | read | readRaw | patrol | program | programAt | offer | copy | erase | invalidate | victim | blankCheck
  | rebuild | release | groupCommit | fence | identify | pitch | strike | logGet | profileLoad | profileBind
  | recUpdate | stripeOpen | regionOpen | regionClose | dieFeature | dieReset | retire | restore | detach | attach
  deriving DecidableEq, Repr

/-- A die-family table entry (R148), with the profile of its family (R630): what READ ID shows; the opcodes of SUSPEND and RESUME, and whether L
follows; the SLC prefix; whether a die may be suspended in a cache program; the opcodes that a Toggle DDR die takes for READ STATUS ENHANCED, VOLUME
SELECT, READ DQ TRAINING, WRITE TRAINING TX and RX; the value, under a mask, of the status byte of a die ready after a SUSPEND whose operation is suspended
(R670); and the SDR timing write, if any, its feature address in the lowest byte (R145). -/
structure Family where
  index     : Nat
  readId    : BitVec 64
  suspOp    : Byte
  suspL     : Bool
  resOp     : Byte
  resL      : Bool
  slcPrefix : Byte
  cacheSusp : Bool
  statusOp  : Byte
  volumeOp  : Byte
  readDqOp  : Byte
  writeTxOp : Byte
  writeRxOp : Byte
  suspMask  : Byte
  suspValue : Byte
  sdrWrite  : Option (BitVec 40)
  profile   : Profile
  deriving DecidableEq, Repr

/-- An extended parameter page as it is read: its length in bytes, and the bytes as one little-endian number (R172). -/
structure ExtPage where
  len   : Nat
  bytes : Nat
  deriving DecidableEq, Repr

/-- What discovery reads of one die (R145, R172): its index, its CE_n line, READ ID, whether its parameter page is that of a Toggle DDR die, whether it shows
20 ns SDR cycles and ZQ calibration, its row address cycles (R150), whether the die hangs on an enable chain, and its extended parameter page. -/
structure DieFind where
  ch      : Nat
  die     : Nat
  line    : Nat
  readId  : BitVec 64
  toggle  : Bool
  sdr20   : Bool
  zq      : Bool
  cycles  : Nat
  volume  : Bool
  ext     : Option ExtPage
  deriving DecidableEq, Repr

/-- What the reads of factory marks find of one block: its channel, die and block, and the first spare byte of its first and of its last page, of whichever plane shows a mark
(R119). -/
structure SpareRead where
  ch    : Nat
  die   : Nat
  block : Nat
  plane : Nat
  first : Byte
  last  : Byte
  deriving DecidableEq, Repr

/-- The block is bad by its factory mark: the first spare byte of its first or its last page is not 0xFF (R119). -/
def SpareRead.bad (r : SpareRead) : Bool := decide (r.first ≠ 0xFF) || decide (r.last ≠ 0xFF)

/-- What training found on one die at one rate code (R179): for each DQ lane the taps at which the
read pattern and the write pattern came back exact, bit `t` for tap `t`. -/
structure DieTrain where
  die   : Nat
  code  : Nat
  lanesRd : List (BitVec 64)
  lanesWr : List (BitVec 64)
  deriving DecidableEq, Repr

/-- KIND of a region (R127). -/
inductive RgnKind where
  | empty | code | ucode
  deriving DecidableEq, Repr

/-- STATE of a region (R127). -/
inductive RgnState where
  | unused | opened | closed
  deriving DecidableEq, Repr

/-- A region descriptor (R127). -/
structure RgnDesc where
  kind      : RgnKind
  state     : RgnState
  size      : Nat
  copy0     : Nat
  copy1     : Nat
  commitSeq : BitVec 32
  imageCrc  : BitVec 32
  deriving DecidableEq, Repr

/-- An empty region. -/
def RgnDesc.none : RgnDesc :=
  { kind := .empty, state := .unused, size := 0, copy0 := 0, copy1 := 0, commitSeq := 0, imageCrc := 0 }

/-- A grown-defect entry (R120). -/
structure Defect where
  index    : Nat
  cause    : Nat
  eraseCnt : BitVec 24
  deriving DecidableEq, Repr

/-- A stripe of a half (R274, R304): its ring of record indices in order D0.., P, Q. -/
structure Stripe where
  pq        : Bool
  ring      : List Nat
  window    : Nat
  lowRow    : Nat
  parityRow : Nat
  absent    : List Nat
  deriving DecidableEq, Repr

/-- What a journal entry carries (R553). -/
inductive JKind where
  | record   (index : Nat) (image : Rec)
  | region   (n : Nat) (image : RgnDesc)
  | seed     (value : BitVec 31) (since : Nat)
  | close    (isVoid : Bool)
  | stripe   (slot : Nat) (image : Option Stripe)
  | defect   (d : Defect)
  deriving DecidableEq, Repr

/-- A journal entry (R553): its kind, COUNT (the entries of its journal record in its first entry, 0 in the others), the signed change of VALID, whether a member INVALIDATE took the unit
from full to free, the group's tag and GSEQ, the unit pages by which the change moved WP on, and whether the entry stands before the J0 of the newest
checkpoint, carried forward for a group still open (R556). -/
structure JEntry where
  kind   : JKind
  count  : Nat
  vdelta : Int
  freed  : Bool
  group  : Nat
  gseq   : Nat
  grew   : Nat
  old    : Bool
  deriving DecidableEq, Repr

/-- The entry writes the drive seed (R236). -/
def JEntry.isSeed (e : JEntry) : Bool := match e.kind with | .seed _ _ => true | _ => false

/-- The state of a unit page of a running program (R192, R194, R198). -/
inductive PageState where
  | waiting | ready | issued | passed | failed
  deriving DecidableEq, Repr

/-- A unit page a command has reserved: its index, the payload of each slot, and where it stands. `pad` marks a
page that takes the pad pattern (R194), `affected` one whose source data is incomplete (R447), `held` one that has taken its 33 cells (R429, R438),
`begun` one whose data-in at the die has begun (R194). -/
structure UPage where
  page     : Nat
  slots    : List Payload
  st       : PageState
  pad      : Bool
  affected : Bool
  held     : Bool
  begun    : Bool
  deriving DecidableEq, Repr

/-- How one codeword stands on the read ladder (R249): its page waits for or runs an array read, its bits cross the pins, it
waits for or holds a hard or a soft core, it waits for its stripe, or it has ended. -/
inductive CwState where
  | sensing | arriving | decode | soft | recon | done
  deriving DecidableEq, Repr

/-- How a codeword ended (R264, R266). -/
inductive CwEnd where
  | erased | clean | hard | retry | soft | recon | unc
  deriving DecidableEq, Repr

/-- Where a codeword's TRY, SL and SH sets come from: it holds none, the channel's ladder reserve, or shared cells (R240, R241). -/
inductive CwSets where
  | none
  | ladder
  | shared
  deriving DecidableEq, Repr

/-- What a codeword is read for: its command's data; a read-back of VERIFY (R205); a sample of BLANK_CHECK (R375); the row of the command's
codeword at a place, as the member at a ring position (R289); or a member whose row has been rebuilt. -/
inductive CwFor where
  | main
  | verify
  | sample
  | member (target pos : Nat)
  | spent
  deriving DecidableEq, Repr

/-- Codewords of one kind share their senses (R252). -/
def CwFor.kin : CwFor → Nat
  | .main => 0
  | .verify => 1
  | .sample => 2
  | .member _ _ => 3
  | .spent => 4

/-- A codeword of a read on the ladder (R249-R257): its PADDR, record, unit page and slot; where it stands and on which step; the entry it was
last sensed at, and how many re-reads were made; `steps` the steps 3, 4 and 5 it may climb; the best image's entry and unsatisfied checks; the paired senses arrived; how it ended, its
corrected bits and its payload; the images of its RAW, TRY, SL and SH sets (R240); poison; what it is read for; and the
sets it climbs with. -/
structure Cw where
  paddr   : Paddr
  idx     : Nat
  page    : Nat
  slot    : Nat
  st      : CwState
  step    : Nat
  steps   : BitVec 3
  start   : Nat
  entry   : Nat
  tries   : Nat
  best    : Nat
  unsat   : Option Nat
  senses  : Nat
  bits    : Nat
  fin     : Option CwEnd
  data    : Payload
  raw     : BitVec 36864
  again   : BitVec 36864
  low     : BitVec 36864
  high    : BitVec 36864
  poison  : Bool
  role    : CwFor
  sets    : CwSets
  deriving DecidableEq, Repr

/-- A unit page as a read of it through steps 1 to 4 delivers it within an operation of its own: a member page of a row whose accumulators are rebuilt (R301).
-/
structure FlashPage where
  idx   : Nat
  page  : Nat
  slots : List Payload
  deriving DecidableEq, Repr

/-- What a pool bank held when it was lost (R42): holds by tag; codewords by command and place; unit pages by command and page; accumulator rows by stripe slot and
row; words of the journals; and, for the rows, the member pages as reads of them deliver them (R301). Which cells a structure takes is not fixed by the spec. -/
structure BankLoss where
  holds   : List Nat
  cws     : List (Nat × Nat)
  pages   : List (Nat × Nat)
  rows    : List (Nat × Nat)
  journal : Bool
  flash   : List FlashPage
  deriving DecidableEq, Repr

/-- A DMA descriptor (R439). -/
structure Descr where
  addr     : BitVec 64
  len      : BitVec 32
  op       : BitVec 2
  irqHalf  : Bool
  irqFull  : Bool
  next     : BitVec 64
  pattern  : BitVec 32
  reserved : Bool
  deriving DecidableEq, Repr

/-- The commands' effects on records that a context's progress keeps (R580): the reserved ranges (record, first unit page, count, group, program passes
counted), and the journal
entries of what it changed, whose images show an erasing state and a commit mark too. -/
structure Progress where
  ranges  : List (Nat × Nat × Nat × Nat × Nat)
  images  : List JEntry
  deriving DecidableEq, Repr

/-- No effect made yet. -/
def Progress.none : Progress := { ranges := [], images := [] }

/-- The last entry of a command's progress that changed record `i`. -/
def Progress.recEntry? (p : Progress) (i : Nat) : Option JEntry :=
  p.images.reverse.find? (fun e => match e.kind with
    | .record j _ => decide (j = i)
    | _ => false)

/-- The last image of record `i` in a command's progress. -/
def Progress.recImage? (p : Progress) (i : Nat) : Option Rec :=
  (p.recEntry? i).bind (fun e => match e.kind with
    | .record _ r => some r
    | _ => Option.none)

/-- The last image of region `n` in a command's progress. -/
def Progress.region? (p : Progress) (n : Nat) : Option RgnDesc :=
  p.images.reverse.findSome? (fun e => match e.kind with
    | .region m d => if m = n then some d else Option.none
    | _ => Option.none)

/-- The slot a command's progress shows it has opened a stripe in. -/
def Progress.stripe? (p : Progress) : Option Nat :=
  p.images.findSome? (fun e => match e.kind with
    | .stripe n (some _) => some n
    | _ => Option.none)

/-- The close entry a command's progress shows: false a commit mark, true a void close. -/
def Progress.close? (p : Progress) : Option Bool :=
  p.images.findSome? (fun e => match e.kind with
    | .close v => some v
    | _ => Option.none)

/-- Which reply a reply write, its acknowledgement or its error is for: a command's, or that of a malformed entry (R314, R333). -/
inductive ReplyOf where
  | cmd (seq : Nat)
  | bad (adopted : Bool) (q index : Nat)
  deriving DecidableEq, Repr

/-- A checkpoint as a half writes it and as a search or a restore reads it (R556, R627): `sealed` counts its sealed copies, `j0` is the position of J0 in the own journal, `flyUnits` the
units of the eight roles. The spec lists what it holds and gives it no layout. -/
structure Ckpt where
  half    : HalfId
  slot    : Nat
  seq     : BitVec 32
  sealed  : Nat
  clean   : Bool
  recs    : Tab Rec
  regions : Tab RgnDesc
  stripes : Tab Stripe
  seed    : BitVec 31
  nextSeq : BitVec 64
  defects : List Defect
  j0      : Nat
  flyUnits : List Nat
  deriving DecidableEq, Repr

/-- A page read from a flysheet record or spare unit of a half: its four payloads (R562, R567). -/
structure FlyLeaf where
  half : HalfId
  page : List Payload
  deriving DecidableEq, Repr

/-- A sample of a unit page that a recovery without its journal senses: slot 0's raw bits (R375, R570). -/
structure UnitSample where
  idx  : Nat
  page : Nat
  raw  : BitVec 36864
  deriving DecidableEq, Repr

/-- A flysheet record as a restore reads it from its pages (R566): the checkpoint its seal names, the header's tables and both
journals, each with the position of its first entry. -/
structure FlyRecord where
  half     : HalfId
  seq      : BitVec 32
  flags    : Nat
  own      : List JEntry
  ownPos   : Nat
  mirror   : List JEntry
  mirPos   : Nat
  openTab  : List (Nat × Nat × Nat)
  erasing  : List (Nat × Bool)
  tSeal    : BitVec 32
  deriving DecidableEq, Repr

/-- What an internal memory word that an error is found in holds (R467, R468): which cells and words a structure takes is not
fixed by the spec, so the error says it. `repairable`: a source of R467 remains. A record's word is its lower or its higher 8 bytes (R111); word 0 of a gutter's item holds its length
word (R476). -/
inductive MemHit where
  | unused
  | repairable
  | held     (tag page : Nat)
  | record   (index : Nat) (high : Bool)
  | context  (seq : Nat) (idWords : Bool)
  | gutItem  (g num word : Nat)
  | dmaData  (slot pos : Nat)
  | journal
  deriving DecidableEq, Repr

/-- Classes a sampled unit may have (R375). -/
inductive UClass where
  | clean | programmed | partly
  deriving DecidableEq, Repr

/-- The PLLs of a half (R528). -/
inductive Pll where
  | core
  | dec
  | phy (ch : Nat)
  deriving DecidableEq, Repr

/-- The kinds of unit RETIRE and RESTORE name (R393). -/
inductive UnitKind where
  | engine | hard | soft | bank | padSet | die | channel
  deriving DecidableEq, Repr

end Sys2Proof
end

