-- ==== Sys2Proof/Syntax.lean ====
section
/-!
DEFINITION. The commands: one constructor per row of spec/opcode_table.json. An operand carries what the command takes
from outside the block (a register value, a fabric beat, what a die or a fabric answered) or which object it is
for; the docstrings give each row's rule and its summary in the spec's table.
-/

namespace Sys2Proof

/-- The commands of the block. -/
inductive Instr where
  /-- PORST_N_LOW (R620): PORST_n low applies the cold reset to both halves in full, AON included, and clears the brown-out latch and any freeze. -/
  | porstNLow
  /-- PEG_PHASE_START (R82): The AON synchroniser sees PORST_n high, the peg phase begins and the strap-channel DQ drivers and keepers turn off. -/
  | pegPhaseStart
  /-- PEG_PHASE_END (R88): At the end of the fourth AON cycle the half takes the majority of its strap samples, latches GEN_STRAP, exchanges straps with the twin and parks the pins. -/
  | pegPhaseEnd (h : HalfId) (link : Bool)
  /-- HALF_RESET (R620): HRST_A_n or HRST_B_n low resets one half except its AON domain, and bring-up then restarts from the fill step or the half comes up standby. -/
  | halfReset (h : HalfId) (low : Bool)
  /-- PLL_LOCK (R530): A started PLL reports lock and the clocks derived from it become available. -/
  | pllLock (h : HalfId) (pll : Pll)
  /-- PLL_LOCK_TIMEOUT (R530): A PLL that has not locked within 50 µs is reset and started once more with source 115 raised; a second failure is a fault of the whole half. -/
  | pllLockTimeout (h : HalfId) (pll : Pll)
  /-- GROUNDSHEET_FILL (R470): The groundsheet fill writes zero to every word of every protected memory and sets every written flag before the half leaves reset. -/
  | groundsheetFill (h : HalfId)
  /-- DIE_DISCOVERY (R145): In boot timing the engines issue RESET, READ ID and READ PARAMETER PAGE to each die, match the die-family table, appoint volumes and raise each die to SDR code 0. -/
  | dieDiscovery (h : HalfId) (finds : List DieFind) (table : List Family)
  /-- CHECKPOINT_SEARCH (R627): The boot sequencer searches the home channels for sealed checkpoint copies and takes the newest CKPT_SEQ that has a sealed copy. -/
  | checkpointSearch (h : HalfId) (copies : List Ckpt) (marks : List SpareRead)
  /-- MICROCODE_LOAD (R629): Every engine's microcode store is loaded from the chosen microcode region, from its second copy, or from ROM, and the engines are self-tested and bound. -/
  | microcodeLoad (h : HalfId) (good : List (Nat × Bool × Bool)) (badEng badHard badSoft : List Nat) (table : List Family)
  /-- CHANNEL_TRAINING (R176): A full training calibrates the pads, runs ZQ calibration, sets termination, switches the dies to the target rate and deskews every lane, falling back code by code on failure. -/
  | channelTraining (h : HalfId) (ch : Nat) (found : List DieTrain) (us : Nat)
  /-- RECORD_RESTORE (R567): Record restore chooses a checkpoint slot, applies the sealed journals, voids open groups, re-erases interrupted erases, pads unwritten pages and seals a new checkpoint. -/
  | recordRestore (h : HalfId) (slots : List Ckpt) (leaves : List FlyLeaf) (samples : List UnitSample) (marks : List SpareRead) (flash : List FlashPage)
  /-- MIRROR_SYNC (R633): At bring-up the attached halves synchronise their mirrors and resume the sequence counter above the highest number held. -/
  | mirrorSync
  /-- ADMIN_READY (R634): A half reaches admin ready: it accepts doorbells to queue 0 and drives WP_n high unless it is blank. -/
  | adminReady (h : HalfId) (t100us : Nat)
  /-- BROWNOUT (R550): A BROWNOUT pulse is latched with HOLDUP_MS, admission stops, LUNs are treated for the commit and any freeze is thawed. -/
  | brownout (holdup : Nat)
  /-- EARLY_BROWNOUT_DISCARD (R549): At the pair's first pad enable a brown-out latched before the first run phase is discarded if BROWNOUT is low, or bring-up holds until it falls. -/
  | earlyBrownoutDiscard
  /-- FLYSHEET_COMMIT (R562): Once every LUN reads ready after the latch, the half writes its flysheet record of header, journal and seal pages to both record units. -/
  | flysheetCommit (h : HalfId) (tHdr tSeal : BitVec 32) (fails0 fails1 : Nat)
  /-- BUDGET_TGL (R73): An edge of BUDGET_TGL captures a new BUDGET value, which applies to the ceiling at once and to the budget loop at its next sample. -/
  | budgetTgl (value : Nat)
  /-- UPDATE_EN_FALL (R139): UPDATE_EN falling stops an open region update where it stands, and commands that have issued no die operation are refused with REGION_LOCKED. -/
  | updateEnFall
  /-- FRZ_REQ (R605): A rising edge of FRZ_REQ freezes both halves, stopping every fast clock within three CLK_CORE cycles and raising FRZ_ACK. -/
  | frzReq
  /-- FRZ_CTL_FREEZE (R605): A write of FRZ_CTL.FREEZE through a register window or the debug access port freezes both halves after its response. -/
  | frzCtlFreeze (h : HalfId) (dbg : Bool)
  /-- FRZ_CTL_THAW (R618): A THAW write through the debug access port rotates partial frames home, reopens the clocks, applies latched events and re-polls the dies. -/
  | frzCtlThaw (h : HalfId) (dbg : Bool) (ticks : Nat)
  /-- FREEZE_PORT_FRAME (R613): The freeze port sends the frame of the next selected read-out segment nibble by nibble on the reader's DQS_t. -/
  | freezePortFrame (h : HalfId) (image : List Word)
  /-- FRZ_RO_CTL_WRITE (R616): A write of FRZ_RO_CTL hands the read-out to the debug path or back, or selects a segment and restarts its frame after any rotation. -/
  | frzRoCtlWrite (h : HalfId) (dbg : Bool) (value : Word)
  /-- FRZ_RO_DATA_READ (R616): A read of FRZ_RO_DATA returns the next word of the selected frame and rotates the chain lanes. -/
  | frzRoDataRead (h : HalfId) (dbg : Bool) (image : Word)
  /-- DEBUG_ACCESS (R615): A strobe on the debug access port performs one 4-byte access to either half's window, limited to the FRZ block during freeze. -/
  | debugAccess (addr : Nat) (write : Option Word)
  /-- TARGET_ACCESS_OUTSIDE (R52): A target-port access outside both windows, or of a wrong size or alignment, receives an error response and has no effect. -/
  | targetAccessOutside (h : HalfId)
  /-- FETCH (R128): A FETCH read through the code window is served from the line buffer, or stalls while a line fill is started. -/
  | fetch (h : HalfId) (offset beats : Nat) (attr : Bool)
  /-- LINE_FILL (R131): A line fill reads the codeword from copy 0 through the ladder, or from copy 1, or fills poison, and completes stalled fetches. -/
  | lineFill (h : HalfId)
  /-- REGISTER_WRITE (R640): A write to a register without behaviour of its own sets its RW fields, clears its W1C flags and ignores RO fields. -/
  | registerWrite (h : HalfId) (offset : Nat) (value : Word)
  /-- DOORBELL (R324): A write to DBL_Q checks the new tail against HEAD, accepts it or stops the queue with DB_RANGE or DB_OVERFULL, and mirrors it. -/
  | doorbell (h : HalfId) (q : Nat) (value : Word)
  /-- DOORBELL_TAKEN_OVER (R348): A write to DBL_TQ rings an adopted queue after a takeover, and is stray while the twin is alive. -/
  | doorbellTakenOver (h : HalfId) (q : Nat) (value : Word)
  /-- QUEUE_DISABLE (R336): Writing QUE_QCTLq.DISABLE stops or resumes fetching from the queue, which shows draining, idle or active. -/
  | queueDisable (h : HalfId) (adopted : Bool) (q : Nat) (on : Bool)
  /-- QUEUE_RESTART (R335): Writing QUE_QCTLq.RESTART takes a queue out of the error state, rewriting its header or reply as needed, and resumes fetching. -/
  | queueRestart (h : HalfId) (adopted : Bool) (q : Nat)
  /-- ADMIN_QUEUE_CONFIG (R306): The first accepted non-zero SIZE write to QUE_ADM_CFG gives the admin queue its ring, writes its header and makes it active. -/
  | adminQueueConfig (h : HalfId) (value : Word)
  /-- QUE_SEQ_READ (R644): A read of QUE_SEQ_LO captures QUE_SEQ_HI for a consistent 64-bit sequence value. -/
  | queSeqRead (h : HalfId)
  /-- ENTRY_FETCH (R330): The queue manager fetches a burst of entries, checks each, and gives each passing entry a context, a sequence number and a range-lock entry. -/
  | entryFetch (h : HalfId) (adopted : Bool) (q : Nat) (entries : List Entry)
  /-- FETCH_ERROR (R51): An error response or POISON beat on an entry fetch stops the queue with cause FETCH_ERROR. -/
  | fetchError (h : HalfId) (adopted : Bool) (q : Nat) (good : List Entry) (poisoned : Bool)
  /-- SEQUENCE_NUMBER_REQUEST (R399): The counter owner takes a fetch's key from the twin, allocates the next sequence number and sends it back with the range-lock entry. -/
  | sequenceNumberRequest (h : HalfId)
  /-- RANGE_LOCK_LEAVE (R407): A stalled command leaves the range-lock table once no lower-numbered conflicting entry remains, and then makes its record checks. -/
  | rangeLockLeave (h : HalfId) (seq : Nat)
  /-- REPLY_WRITE (R314): After the command's data has left the DMA, the Brixma writes STATUS, RESULT and MARK DONE in one ORDERED beat. -/
  | replyWrite (h : HalfId) (r : ReplyOf)
  /-- REPLY_ACK (R343): An acknowledged reply write frees the range-lock entry and cells, releases the context, advances HEAD and appends the completion notice. -/
  | replyAck (h : HalfId) (r : ReplyOf)
  /-- REPLY_ERROR (R333): An error response to a reply write stops the queue with REPLY_ERROR and holds HEAD, the context and the range-lock entry. -/
  | replyError (h : HalfId) (r : ReplyOf)
  /-- HEADER_WRITE (R320): Within 1 µs of a change the queue header is written as one ORDERED 64-byte beat. -/
  | headerWrite (h : HalfId) (adopted : Bool) (q : Nat)
  /-- HEADER_ERROR (R51): An error response to a header write stops the queue with cause HEADER_ERROR. -/
  | headerError (h : HalfId) (adopted : Bool) (q : Nat)
  /-- READ (R362): READ decodes COUNT codewords through the ladder and delivers them to DESC, optionally comparing under CMP. -/
  | read (h : HalfId) (seq : Nat)
  /-- READ_RAW (R269): READ_RAW senses one codeword at a named or tension entry and delivers its raw bytes without decode. -/
  | readRaw (h : HalfId) (seq : Nat)
  /-- PATROL (R365): PATROL climbs the ladder over COUNT codewords, updates TENSION and delivers nothing. -/
  | patrol (h : HalfId) (seq : Nat)
  /-- PROGRAM (R187): PROGRAM checks the unit and appends n unit pages at WP, programming host or held data. -/
  | program (h : HalfId) (seq : Nat)
  /-- PROGRAM_AT (R187): PROGRAM_AT programs n unit pages at a named unit page that must equal WP. -/
  | programAt (h : HalfId) (seq : Nat)
  /-- OFFER (R369): OFFER appends an evicted cache line or, when clean and its zone is tight, declines it. -/
  | offer (h : HalfId) (seq : Nat)
  /-- COPY (R370): COPY decodes its source unit pages and, if all correct, reserves and programs them at the destination. -/
  | copy (h : HalfId) (seq : Nat)
  /-- ERASE (R207): ERASE checks the unit, journals the erasing state and erases its blocks in the named mode. -/
  | erase (h : HalfId) (seq : Nat)
  /-- INVALIDATE (R373): INVALIDATE lowers a unit's VALID count, freeing a full unit that reaches zero. -/
  | invalidate (h : HalfId) (seq : Nat)
  /-- VICTIM (R374): VICTIM writes up to 32 replacement candidates of a zone to BUF. -/
  | victim (h : HalfId) (seq : Nat)
  /-- BLANK_CHECK (R375): BLANK_CHECK samples a unit's pages by zero counts and classifies it as clean, programmed or partial. -/
  | blankCheck (h : HalfId) (seq : Nat)
  /-- REBUILD (R297): REBUILD writes an absent stripe member's rebuilt pages onto a target unit on a background engine. -/
  | rebuild (h : HalfId) (seq : Nat)
  /-- REBUILD_SWAP (R298): When every row has been written, the target takes the source's place in the stripe in one journal record and REBUILD completes. -/
  | rebuildSwap (h : HalfId) (n : Nat)
  /-- RELEASE (R378): RELEASE takes a hold and frees its cells, or finds it absent. -/
  | release (h : HalfId) (seq : Nat)
  /-- GROUP_COMMIT (R380): GROUP_COMMIT closes its tag's members and, once they complete, writes the commit mark or undoes the group. -/
  | groupCommit (h : HalfId) (seq : Nat)
  /-- FENCE (R382): FENCE completes once lower-numbered commands in scope have completed, their writes have responses and an optional read-back has returned. -/
  | fence (h : HalfId) (seq : Nat)
  /-- IDENTIFY (R383): IDENTIFY writes the half identity, the die entries of a channel or a profile slot to BUF. -/
  | identify (h : HalfId) (seq : Nat)
  /-- PITCH (R340): PITCH checks and creates a queue, writes its header and takes a statistics slot if WATCH is asked. -/
  | pitch (h : HalfId) (seq : Nat)
  /-- STRIKE (R338): STRIKE disables a queue, waits for it to idle or aborts its commands, releases its slot and writes a struck header. -/
  | strike (h : HalfId) (seq : Nat)
  /-- LOG_GET (R385): LOG_GET writes part of the grown-defect, retirement, decode-counter or flysheet log to BUF. -/
  | logGet (h : HalfId) (seq : Nat)
  /-- PROFILE_LOAD (R386): PROFILE_LOAD checks a 512-byte profile and writes it into a slot. -/
  | profileLoad (h : HalfId) (seq : Nat)
  /-- PROFILE_BIND (R387): PROFILE_BIND binds a die of a driven channel to a profile slot of the half. -/
  | profileBind (h : HalfId) (seq : Nat)
  /-- REC_UPDATE (R388): REC_UPDATE sets a record's zone, retires the unit or clears GROWN_BAD, journalled and mirrored. -/
  | recUpdate (h : HalfId) (seq : Nat)
  /-- STRIPE_OPEN (R277): STRIPE_OPEN checks and links members into a stripe and reserves its accumulator cells. -/
  | stripeOpen (h : HalfId) (seq : Nat)
  /-- REGION_OPEN (R136): REGION_OPEN checks and assigns new units to a region and opens it for update. -/
  | regionOpen (h : HalfId) (seq : Nat)
  /-- REGION_CLOSE (R138): REGION_CLOSE reads both copies, checks the image CRC and closes the region in one journal record. -/
  | regionClose (h : HalfId) (seq : Nat)
  /-- DIE_FEATURE (R391): DIE_FEATURE gets, or sets and gets, a die or LUN feature not owned by the Brixma. -/
  | dieFeature (h : HalfId) (seq : Nat) (values : BitVec 32)
  /-- DIE_RESET (R392): DIE_RESET waits for the die to be quiet, resets it, reapplies its features and retrains after a full RESET. -/
  | dieReset (h : HalfId) (seq : Nat)
  /-- RETIRE (R393): RETIRE takes an engine, core, bank, pad set, die or channel out of service unless a floor forbids it. -/
  | retire (h : HalfId) (seq : Nat) (lost : BankLoss)
  /-- RESTORE (R394): RESTORE self-tests a retired unit and returns it to service. -/
  | restore (h : HalfId) (seq : Nat) (pass : Bool)
  /-- DETACH (R597): DETACH drains the twin, moves its channels and queues to this half and leaves the twin standby. -/
  | detach (h : HalfId) (seq : Nat)
  /-- ATTACH (R599): ATTACH self-tests a standby twin, synchronises the mirrors and optionally hands its home channels back. -/
  | attach (h : HalfId) (seq : Nat) (cause : Nat) (good : List (Nat × Bool × Bool)) (table : List Family)
  /-- MIRROR_ACK (R577): The twin's acknowledgement of a mirror message lets the waiting change count as made. -/
  | mirrorAck (h : HalfId)
  /-- GUY_LINK_MESSAGE (R577): A guy-link message is received, checked, applied to the mirror partitions and acknowledged or refused with a NAK. -/
  | guyLinkMessage (h : HalfId)
  /-- LINK_NAK (R578): A negative acknowledgement makes the sender resend from that message, declaring a link fault after 8 failures. -/
  | linkNak (h : HalfId)
  /-- HEARTBEAT (R579): A half sends a heartbeat in every 2 µs period in which it sent no other message. -/
  | heartbeat (h : HalfId)
  /-- HEARTBEAT_LATE (R582): A heartbeat period passes without a message, LATE_CNT rises and source 110 is raised. -/
  | heartbeatLate (h : HalfId)
  /-- TWIN_LOSS (R582): After HB_MISS periods without a message the half declares its twin lost and reads the pad interlock. -/
  | twinLoss (h : HalfId)
  /-- INTERLOCK_WAIT_END (R583): Within 4 µs of declaring loss, dropped enables on every channel start a takeover, else a link fault is declared. -/
  | interlockWaitEnd (h : HalfId)
  /-- TAKEOVER (R586): The survivor resets the lost half's LUNs, adopts its partitions and queues, classifies contexts, voids reservations and resumes fetching. -/
  | takeover (h : HalfId) (us : Nat) (flash : List FlashPage)
  /-- BEACON_LOSS (R539): 40 µs without a beacon toggle from a sleeping twin counts as loss of that half. -/
  | beaconLoss (h : HalfId)
  /-- PAD_ENABLE_LAPSE (R35): A half that has not refreshed its pad enables for 2 µs loses every enable and its channels park. -/
  | padEnableLapse (h : HalfId)
  /-- TWN_CTL_YIELD (R585): YIELD in link fault drains the half, strikes its queues, seals a CLEAN checkpoint and puts it standby. -/
  | twnCtlYield (h : HalfId)
  /-- YIELDED_CHANNELS_TAKE (R585): The other half finds the dropped enables with a newer CLEAN checkpoint, restores the yielded records and takes the channels. -/
  | yieldedChannelsTake (h : HalfId) (ckpt : Ckpt) (flash : List FlashPage)
  /-- TWN_CTL_SELFTEST (R598): SELFTEST in a standby half tests engines, cores, banks, PLL lock and the link and reports the result. -/
  | twnCtlSelftest (h : HalfId) (cause : Nat)
  /-- CHANNEL_MOVE (R595): A channel is handed to the twin's pad set at a codeword boundary with a HANDOVER of its outstanding operations. -/
  | channelMove (h : HalfId) (ch : Nat) (cause : Nat)
  /-- ENGINE_FAILURE (R23): A failed channel-bound engine is replaced by a spare, a background engine, the twin, or the channel is retired. -/
  | engineFailure (h : HalfId) (engine cause word : Nat)
  /-- BACKGROUND_ENGINE_FAILURE (R25): A failed background engine's job restarts on another background engine from its last completed die operation. -/
  | backgroundEngineFailure (h : HalfId) (engine cause word : Nat)
  /-- BACKGROUND_JOB_END (R22): At the end of a background job the engine may become a spare to keep the spare minimum or a lowered BG_MAX. -/
  | backgroundJobEnd (h : HalfId) (engine : Nat)
  /-- POOL_BANK_RETIRE (R30): A retired pool bank's contents are rebuilt from their sources and channel reserves shrink or move to the twin. -/
  | poolBankRetire (h : HalfId) (bank cause : Nat) (lost : BankLoss)
  /-- SCHEDULER_CHOICE (R411): When a LUN can accept an operation, the per-die scheduler picks a line fill or the lowest-numbered ready operation of the class with credit. -/
  | schedulerChoice (h : HalfId) (ch : Nat) (die : Nat)
  /-- BUS_TASK (R162): When the channel bus is free, the engine takes the next bus task in order of precedence. -/
  | busTask (h : HalfId) (ch : Nat) (busy data : Nat)
  /-- RESUME (R169): Once no read waits under the suspension, the engine issues RESUME and polls the remaining time. -/
  | resume (h : HalfId) (ch : Nat) (die : Nat)
  /-- POLL_DUE (R156): A poll of a LUN falls due by FIRST_PCT, INTERVAL_NS or an R/B_n rising edge, and READ STATUS ENHANCED is issued. -/
  | pollDue (h : HalfId) (ch : Nat) (die : Nat)
  /-- RB_N_RISE (R156): A rising edge of R/B_n triggers one poll of every LUN being waited on. -/
  | rbNRise (h : HalfId) (ch : Nat)
  /-- LUN_READY (R157): A poll reads RDY and ARDY and the operation ends with its pass or fail status. -/
  | lunReady (h : HalfId) (ch : Nat) (die : Nat) (status : Byte)
  /-- SUSPEND_READY (R670): A LUN ready after SUSPEND is found suspended or ended as its family entry shows. -/
  | suspendReady (h : HalfId) (ch : Nat) (die : Nat) (status : Byte)
  /-- OPERATION_TIMEOUT (R158): A die not ready TIMEOUT_X typical times after a confirm is sent RESET LUN and the operation fails or reconstructs. -/
  | operationTimeout (h : HalfId) (ch : Nat) (die : Nat)
  /-- SUSPEND_TIMEOUT (R158): A LUN not ready TIMEOUT_X times T_SUS after SUSPEND is treated as still running. -/
  | suspendTimeout (h : HalfId) (ch : Nat) (die : Nat)
  /-- CODEWORD_ARRIVAL (R238): When a codeword's last bit arrives, the syndrome checker classifies it as erased, clean or needing decode. -/
  | codewordArrival (h : HalfId) (seq : Nat) (i : Nat) (raw : BitVec 36864)
  /-- DECODE_ARBITRATION (R421): At a decode boundary the ridge arbiter draws a channel's request and grants a free core. -/
  | decodeArbitration (h : HalfId) (soft : Bool)
  /-- DECODE_DONE (R244): A decode core reports success or failure, and the ladder moves on. -/
  | decodeDone (h : HalfId) (soft : Bool) (core : Nat) (final : Bool)
  /-- STRIPE_RECONSTRUCTION (R292): Once all member payloads arrive, step 5 rebuilds the target payload from parity. -/
  | stripeReconstruction (h : HalfId) (seq : Nat) (i : Nat)
  /-- PARITY_PROGRAM (R281): The stripe parity unit issues the parity programs of a row once its data programs have ended. -/
  | parityProgram (h : HalfId) (slot : Nat)
  /-- POOL_ARBITRATION (R421): At a pool port boundary the ridge arbiter draws or picks the oldest requester. -/
  | poolArbitration (h : HalfId)
  /-- HOLD_WATCHDOG (R426): A grant held longer than LIMIT_US ends and its holder is retired or the half fails. -/
  | holdWatchdog (h : HalfId) (dec : Bool) (who : Nat)
  /-- ARB_COMMIT_GO (R424): ARB_COMMIT.GO applies the arbiter shadows at each class's next boundary. -/
  | arbCommitGo (h : HalfId)
  /-- ARB_LFSR_WRITE (R425): A write to ARB_LFSR_P or ARB_LFSR_D sets that LFSR at its next boundary. -/
  | arbLfsrWrite (h : HalfId) (dec : Bool) (value : Word)
  /-- DMA_STREAM_START (R436): A waiting command takes a free stream slot in sequence order and its stream starts. -/
  | dmaStreamStart (h : HalfId)
  /-- DESCRIPTOR_FETCH (R442): A fetched descriptor is checked and its bytes moved, or it ends the chain and is marked bad. -/
  | descriptorFetch (h : HalfId) (slot : Nat) (desc : Option Descr) (poison : Bool)
  /-- DMA_BURST (R449): A DMA burst issues once its direction's token bucket holds enough beats. -/
  | dmaBurst (h : HalfId) (slot : Nat)
  /-- DMA_READ_RETURN (R446): A stream read returns data, poison or an error, marking its descriptor on failure. -/
  | dmaReadReturn (h : HalfId) (slot data : Nat) (poison : BitVec 64) (err : Bool)
  /-- DMA_WRITE_RESPONSE (R455): A stream write response arrives; an error marks the descriptor and may give XFER_ERROR or a late error. -/
  | dmaWriteResponse (h : HalfId) (slot : Nat) (err : Bool)
  /-- DMA_STREAM_COMPLETE (R453): A stream's last write leaves and last read returns, optionally with response waits and read-back, releasing the reply. -/
  | dmaStreamComplete (h : HalfId) (slot : Nat)
  /-- DMA_STREAM_DROP (R456): DMA_STRMn_CTL.DROP with a matching GEN ends the stream and the command with XFER_ERROR. -/
  | dmaStreamDrop (h : HalfId) (slot : Nat) (value : Word)
  /-- SCRUB_WORD (R472): Every INTERVAL cycles the scrubber reads one word of each memory, corrects and writes it back. -/
  | scrubWord (h : HalfId) (m : Nat) (error : Option Bool) (hit : MemHit) (lost : BankLoss)
  /-- MEM_INIT_FILL (R471): MEM_INIT.FILL writes zero to every unwritten word of a memory. -/
  | memInitFill (h : HalfId) (mask : BitVec 5)
  /-- MEM_CLR (R473): MEM_CLRm clears a memory's error counts. -/
  | memClr (h : HalfId) (m : Nat) (value : Word)
  /-- GUT_RD_READ (R478): A read of GUT_RDg returns the next word, advances the pointer and may stall. -/
  | gutRdRead (h : HalfId) (g : Nat)
  /-- GUT_CTL_MARK (R481): MARK saves the read pointer as the mark. -/
  | gutCtlMark (h : HalfId) (g : Nat)
  /-- GUT_CTL_REWIND (R481): REWIND moves the read pointer to the mark or the oldest item. -/
  | gutCtlRewind (h : HalfId) (g : Nat)
  /-- GUT_CTL_RELEASE (R481): RELEASE frees items wholly read and clears the mark. -/
  | gutCtlRelease (h : HalfId) (g : Nat)
  /-- GUT_CTL_UNSTALL (R479): UNSTALL ends a stalled GUT_RDg read, which returns zero. -/
  | gutCtlUnstall (h : HalfId) (g : Nat)
  /-- GUTTER_TIMEOUT (R482): An unread item waiting TMO_US without a read sets TMO and raises the gutter source. -/
  | gutterTimeout (h : HalfId) (g : Nat)
  /-- SPILL_WRITE_ACK (R483): An acknowledged spill item advances GUT_SPWRg and frees its cells. -/
  | spillWriteAck (h : HalfId) (g : Nat)
  /-- SPILL_ERROR (R483): An error response to a spill write sets SPILL_ERR and stops the spill. -/
  | spillError (h : HalfId) (g : Nat)
  /-- GUT_SPRD_WRITE (R483): Writing GUT_SPRDg frees spill ring slots. -/
  | gutSprdWrite (h : HalfId) (g : Nat) (value : Word)
  /-- LOOP_SAMPLE (R488): A slot's sample computes the PI output and applies it as weight or tokens. -/
  | loopSample (h : HalfId) (n : Nat)
  /-- LOOP_ENABLE (R489): A write of EN starts a slot with reset timers and preset integrator, or stops it. -/
  | loopEnable (h : HalfId) (n : Nat) (on : Bool)
  /-- LOOP_COMMIT_GO (R491): LOOP_COMMIT.GO applies gain-block shadows at each slot's next sample. -/
  | loopCommitGo (h : HalfId)
  /-- TRC_MODE_WRITE (R505): A write to TRC_MODE restarts trace recording and clears TRC_STOP. -/
  | trcModeWrite (h : HalfId) (n : Nat) (mode : BitVec 2)
  /-- LOOP_TRC_SEL_WRITE (R505): A write of LOOP_TRC_SEL captures one trace sample. -/
  | loopTrcSelWrite (h : HalfId) (value : Word)
  /-- IRQ_FILTER_PASS (R509): A level source's filter count completes and its filtered level and pending bit change. -/
  | irqFilterPass (h : HalfId) (src : Nat)
  /-- IRQ_CLAIM (R519): A read of IRQ_CLAIMk claims the highest-priority eligible source and pushes the stack. -/
  | irqClaim (h : HalfId) (k : Nat)
  /-- IRQ_EOI (R522): A write to IRQ_EOIk pops a matching claim or sets EOI_ERR. -/
  | irqEoi (h : HalfId) (k : Nat) (value : Word)
  /-- IRQ_PEND_SET (R513): A set write counts one event on an edge source. -/
  | irqPendSet (h : HalfId) (n : Nat) (value : Word)
  /-- IRQ_PEND_CLEAR (R513): A clear write zeroes an edge source's count. -/
  | irqPendClear (h : HalfId) (n : Nat) (value : Word)
  /-- IRQ_MASK_SET (R514): A set write masks sources. -/
  | irqMaskSet (h : HalfId) (n : Nat) (value : Word)
  /-- IRQ_MASK_CLEAR (R514): A clear write unmasks sources, presenting pending ones at once. -/
  | irqMaskClear (h : HalfId) (n : Nat) (value : Word)
  /-- IRQ_COMMIT_GO (R518): IRQ_COMMIT.GO applies PRIO and TARGET shadows at the next claim boundary. -/
  | irqCommitGo (h : HalfId)
  /-- RGN_COMMIT_GO (R129): RGN_COMMIT.GO applies or refuses the new mapping at the next fetch line boundary. -/
  | rgnCommitGo (h : HalfId)
  /-- RGN_LINE_FLUSH (R131): FLUSH invalidates every line at the next fetch line boundary. -/
  | rgnLineFlush (h : HalfId)
  /-- REC_INDEX_WRITE (R118): A REC_INDEX write captures the named record into REC_DATA. -/
  | recIndexWrite (h : HalfId) (value : Word)
  /-- REC_AGE_WRITE (R124): A REC_AGE write restarts the ageing period. -/
  | recAgeWrite (h : HalfId) (value : Word)
  /-- AGEING_WALK (R124): Each period the walker clears NRU or increments AGE over open and full units. -/
  | ageingWalk (h : HalfId)
  /-- DEC_RAND_SEED_WRITE (R236): A drive seed write is accepted and journalled, or refused when units are open or full. -/
  | decRandSeedWrite (h : HalfId) (value : Word)
  /-- CHN_CTL_RETRAIN (R183): Writing RETRAIN starts a full retrain of the channel. -/
  | chnCtlRetrain (h : HalfId) (ch : Nat)
  /-- CHN_CTL_QUICK (R183): Writing QUICK starts a quick retrain of every die. -/
  | chnCtlQuick (h : HalfId) (ch : Nat)
  /-- RETRAIN_PERIOD (R183): The quick-retrain period elapsing retrains every die one at a time. -/
  | retrainPeriod (h : HalfId) (ch : Nat)
  /-- MARGIN_ALARM (R184): Shadow mismatches above MON_LIMIT in 1 ms set MARGIN_ALARM and queue a quick retrain. -/
  | marginAlarm (h : HalfId) (ch : Nat) (die : Nat) (counts : List Nat)
  /-- ERASE_AGE_TICK (R223): Every 100 µs of an outstanding erase ERASE_AGE rises, raising ERASE_STARVED at ERS_MARK. -/
  | eraseAgeTick (h : HalfId) (ch : Nat) (die : Nat)
  /-- CHECKPOINT_START (R555): The own journal reaching CKPT_PCT starts a checkpoint. -/
  | checkpointStart (h : HalfId)
  /-- CHECKPOINT_SEALED (R556): Both checkpoint copies sealed advance FLY_CKPT.SEQ and discard older journal entries. -/
  | checkpointSealed (h : HalfId) (bad : List Nat)
  /-- IDLE_TIMER_EXPIRY (R533): PWR_IDLEn reaching its value enters the next deeper power state. -/
  | idleTimerExpiry (h : HalfId)
  /-- WAKE_EVENT (R536): A wake event returns the half to PS0, polling LUNs and retraining. -/
  | wakeEvent (h : HalfId) (cause : Nat)
  /-- PWR_CTL_WAKE (R536): Writing PWR_CTL.WAKE wakes the half to PS0. -/
  | pwrCtlWake (h : HalfId)
  /-- SLEEP_MESSAGE (R538): A SLEEP message makes the twin watch the beacon. -/
  | sleepMessage (h : HalfId)
  /-- AWAKE_MESSAGE (R538): An AWAKE message updates TWIN_STATE and releases mirror messages. -/
  | awakeMessage (h : HalfId)
  /-- WAKE_MESSAGE (R540): A WAKE message from the twin wakes the half. -/
  | wakeMessage (h : HalfId)
  /-- CLK_DEC_GATE (R529): CLK_DEC is gated 100 ns after no decode grant or request. -/
  | clkDecGate (h : HalfId)
  /-- WARM_RESET (R623): GEN_RST.WARM resets the queue path of an idle half. -/
  | warmReset (h : HalfId) (key : BitVec 16)
  /-- CHANNEL_RESET (R624): GEN_RST.CHAN_RST resets every die of a channel and reruns discovery. -/
  | channelReset (h : HalfId) (ch : Nat) (key : BitVec 16) (finds : List DieFind)
  /-- FORMAT (R628): GEN_RST.FORMAT lets a blank half write its first checkpoint and raise WP_n. -/
  | format (h : HalfId) (key : BitVec 16)
  /-- POOL_MIN_CLR (R650): POOL_CTL.MIN_CLR sets MIN_FREE to FREE. -/
  | poolMinClr (h : HalfId)
  /-- BROWNOUT_FALL (R549): BROWNOUT falling releases a bring-up held before the pair's first pad enable by an early brown-out. -/
  | brownoutFall
  /-- UPDATE_EN_RISE (R139): UPDATE_EN rising sets RGN_STAT.UPDATE_EN and lets a stopped region update go on. -/
  | updateEnRise
  /-- SUPPLY_LOSS (R673): The supply ends, losing all on-chip state and leaving flash and any sealed or unsealed flysheet record as they stand. -/
  | supplyLoss (half : Option HalfId)
  /-- PLL_LOCK_LOSS (R620): A running CLK_CORE PLL loses lock and the half is reset as a half reset. -/
  | pllLockLoss (h : HalfId)
  /-- TWIN_ANSWER_TIMEOUT (R91): No guy-link answer within 1 ms after the peg end makes the half treat its twin as absent and take its channels. -/
  | twinAnswerTimeout (h : HalfId)
  /-- PEG_CYCLE_END (R88): The rising AON edge ending peg cycle 1, 2 or 3 samples every strap line. -/
  | pegCycleEnd (h : HalfId) (lines : BitVec 16)
  /-- BEACON_TOGGLE (R539): A toggle of a sleeping twin's beacon wire restarts the 40 µs loss count. -/
  | beaconToggle (h : HalfId)
  /-- SUSPEND_GAP_ELAPSED (R213): A program or erase reaches GAP_US of run time, so a waiting queue read may now request its suspension. -/
  | suspendGapElapsed (h : HalfId) (ch : Nat) (die : Nat)
  /-- HEADER_WRITE_ACK (R340): A queue-header write receives its fabric response, letting PITCH or the admin configuration complete and IDLE rise. -/
  | headerWriteAck (h : HalfId) (adopted : Bool) (q : Nat)
  /-- FENCE_READ_RETURN (R382): The one-beat read of FENCE_ADDR returns and the FENCE completes. -/
  | fenceReadReturn (h : HalfId) (seq : Nat)
  deriving DecidableEq, Repr

end Sys2Proof
end

