-- ==== Sys2Proof/WellFormed.lean ====
section
/-!
DEFINITION. Which operands a command admits in a configuration: the numbers of channels, dies, queues, gutters and so on
that exist, and the widths of the values that travel with it.
-/

namespace Sys2Proof

/-- A pair channel of the configuration (00, *Place in the Ramique chip*). -/
def chanOk (v : Variant) (c : Nat) : Bool := decide (c ∈ Config.pairChannels v)

/-- A die index of a channel (R101). -/
def dieOk (d : Nat) : Bool := decide (d < 8)

/-- A queue number of a half (R305). -/
def queueOk (v : Variant) (q : Nat) : Bool := decide (q < Config.queues v)

/-- A gutter of a half (R475). -/
def gutterOk (v : Variant) (g : Nat) : Bool := decide (g < Config.gutters v)

/-- A loop slot of a half (R486). -/
def loopOk (v : Variant) (n : Nat) : Bool := decide (n < Config.loops v)

/-- An interrupt register word of a half (R513): 32 sources each. -/
def irqWordOk (v : Variant) (n : Nat) : Bool := decide (32 * n < Config.sources v)

/-- A register offset of a window: 4-byte aligned, below 1 MiB (R53, R640). -/
def offsetOk (o : Nat) : Bool := decide (o < 0x100000) && decide (o % 4 = 0)

/-- A die's finding: a die index, and one of the four CE_n lines (R60, R101). -/
def DieFind.wf (f : DieFind) : Bool := dieOk f.die && decide (f.line < 4)

/-- The well-formed commands of a configuration. -/
def Instr.wf (v : Variant) : Instr → Bool
  | .microcodeLoad _ good badEng badHard badSoft _ =>
    good.all (fun g => decide (g.1 < 16)) && badEng.all (fun e => decide (e < Config.engines v)) &&
      badHard.all (fun k => decide (k < Config.hardCores v)) && badSoft.all (fun k => decide (k < Config.softCores v))
  | .dieDiscovery _ finds _ => finds.all (fun f => chanOk v f.ch && f.wf)
  | .channelTraining _ ch found _ => chanOk v ch && found.all (fun t => dieOk t.die && decide (t.code < 15))
  | .brownout holdup => decide (holdup < 256)
  | .budgetTgl value => decide (value < 256)
  | .debugAccess addr _ => decide (addr < 0x200000) && decide (addr % 4 = 0)
  | .fetch _ offset beats _ => decide (offset % 64 = 0) && decide (0 < beats)
  | .registerWrite _ offset _ => offsetOk offset
  | .doorbell _ q _ => queueOk v q
  | .doorbellTakenOver _ q _ => queueOk v q
  | .queueDisable _ _ q _ => queueOk v q
  | .queueRestart _ _ q => queueOk v q
  | .entryFetch _ _ q _ => queueOk v q
  | .fetchError _ _ q _ _ => queueOk v q
  | .headerWrite _ _ q => queueOk v q
  | .headerError _ _ q => queueOk v q
  | .headerWriteAck _ _ q => queueOk v q
  | .rebuildSwap _ n => decide (n < 4)
  | .channelMove _ ch _ => chanOk v ch
  | .engineFailure _ e _ _ => decide (e < Config.engines v)
  | .backgroundEngineFailure _ e _ _ => decide (e < Config.engines v)
  | .backgroundJobEnd _ e => decide (e < Config.engines v)
  | .poolBankRetire _ b _ _ => decide (b < Config.banks v)
  | .schedulerChoice _ ch d => chanOk v ch && dieOk d
  | .busTask _ ch _ _ => chanOk v ch
  | .resume _ ch d => chanOk v ch && dieOk d
  | .pollDue _ ch d => chanOk v ch && dieOk d
  | .rbNRise _ ch => chanOk v ch
  | .lunReady _ ch d _ => chanOk v ch && dieOk d
  | .suspendReady _ ch d _ => chanOk v ch && dieOk d
  | .operationTimeout _ ch d => chanOk v ch && dieOk d
  | .suspendTimeout _ ch d => chanOk v ch && dieOk d
  | .suspendGapElapsed _ ch d => chanOk v ch && dieOk d
  | .marginAlarm _ ch d counts => chanOk v ch && dieOk d && decide (counts.length = 8)
  | .eraseAgeTick _ ch d => chanOk v ch && dieOk d
  | .chnCtlRetrain _ ch => chanOk v ch
  | .chnCtlQuick _ ch => chanOk v ch
  | .retrainPeriod _ ch => chanOk v ch
  | .channelReset _ ch _ finds => chanOk v ch && finds.all (fun f => decide (f.ch = ch) && f.wf)
  | .decodeDone _ soft core _ =>
    decide (core < (if soft then Config.softCores v else Config.hardCores v))
  | .parityProgram _ slot => decide (slot < 64)
  | .descriptorFetch _ slot _ _ => decide (slot < Config.streams v)
  | .dmaBurst _ slot => decide (slot < Config.streams v)
  | .dmaReadReturn _ slot _ _ _ => decide (slot < Config.streams v)
  | .dmaWriteResponse _ slot _ => decide (slot < Config.streams v)
  | .dmaStreamComplete _ slot => decide (slot < Config.streams v)
  | .dmaStreamDrop _ slot _ => decide (slot < Config.streams v)
  | .scrubWord _ m _ _ _ => decide (m < 5)
  | .memClr _ m _ => decide (m < 5)
  | .gutRdRead _ g => gutterOk v g
  | .gutCtlMark _ g => gutterOk v g
  | .gutCtlRewind _ g => gutterOk v g
  | .gutCtlRelease _ g => gutterOk v g
  | .gutCtlUnstall _ g => gutterOk v g
  | .gutterTimeout _ g => gutterOk v g
  | .spillWriteAck _ g => gutterOk v g
  | .spillError _ g => gutterOk v g
  | .gutSprdWrite _ g _ => gutterOk v g
  | .loopSample _ n => loopOk v n
  | .loopEnable _ n _ => loopOk v n
  | .trcModeWrite _ n _ => loopOk v n
  | .irqFilterPass _ src => decide (src < Config.sources v)
  | .irqClaim _ k => decide (k < 8)
  | .irqEoi _ k _ => decide (k < 8)
  | .irqPendSet _ n _ => irqWordOk v n
  | .irqPendClear _ n _ => irqWordOk v n
  | .irqMaskSet _ n _ => irqWordOk v n
  | .irqMaskClear _ n _ => irqWordOk v n
  | .pllLock _ (.phy c) => chanOk v c
  | .pllLockTimeout _ (.phy c) => chanOk v c
  | .porstNLow => true
  | .pegPhaseStart => true
  | .pegPhaseEnd _ _ => true
  | .halfReset _ _ => true
  | .pllLock _ .core => true
  | .pllLock _ .dec => true
  | .pllLockTimeout _ .core => true
  | .pllLockTimeout _ .dec => true
  | .groundsheetFill _ => true
  | .checkpointSearch _ _ _ => true
  | .recordRestore _ _ _ _ _ _ => true
  | .mirrorSync => true
  | .adminReady _ _ => true
  | .earlyBrownoutDiscard => true
  | .flysheetCommit _ _ _ _ _ => true
  | .updateEnFall => true
  | .frzReq => true
  | .frzCtlFreeze _ _ => true
  | .frzCtlThaw _ _ _ => true
  | .freezePortFrame _ _ => true
  | .frzRoCtlWrite _ _ _ => true
  | .frzRoDataRead _ _ _ => true
  | .targetAccessOutside _ => true
  | .lineFill _ => true
  | .adminQueueConfig _ _ => true
  | .queSeqRead _ => true
  | .sequenceNumberRequest _ => true
  | .rangeLockLeave _ _ => true
  | .replyWrite _ _ => true
  | .replyAck _ _ => true
  | .replyError _ _ => true
  | .read _ _ => true
  | .readRaw _ _ => true
  | .patrol _ _ => true
  | .program _ _ => true
  | .programAt _ _ => true
  | .offer _ _ => true
  | .copy _ _ => true
  | .erase _ _ => true
  | .invalidate _ _ => true
  | .victim _ _ => true
  | .blankCheck _ _ => true
  | .rebuild _ _ => true
  | .release _ _ => true
  | .groupCommit _ _ => true
  | .fence _ _ => true
  | .identify _ _ => true
  | .pitch _ _ => true
  | .strike _ _ => true
  | .logGet _ _ => true
  | .profileLoad _ _ => true
  | .profileBind _ _ => true
  | .recUpdate _ _ => true
  | .stripeOpen _ _ => true
  | .regionOpen _ _ => true
  | .regionClose _ _ => true
  | .dieFeature _ _ _ => true
  | .dieReset _ _ => true
  | .retire _ _ _ => true
  | .restore _ _ _ => true
  | .detach _ _ => true
  | .attach _ _ _ _ _ => true
  | .mirrorAck _ => true
  | .guyLinkMessage _ => true
  | .linkNak _ => true
  | .heartbeat _ => true
  | .heartbeatLate _ => true
  | .twinLoss _ => true
  | .interlockWaitEnd _ => true
  | .takeover _ _ _ => true
  | .beaconLoss _ => true
  | .padEnableLapse _ => true
  | .twnCtlYield _ => true
  | .yieldedChannelsTake _ _ _ => true
  | .twnCtlSelftest _ _ => true
  | .codewordArrival _ _ _ _ => true
  | .decodeArbitration _ _ => true
  | .stripeReconstruction _ _ _ => true
  | .poolArbitration _ => true
  | .holdWatchdog _ _ _ => true
  | .arbCommitGo _ => true
  | .arbLfsrWrite _ _ _ => true
  | .dmaStreamStart _ => true
  | .memInitFill _ _ => true
  | .loopCommitGo _ => true
  | .loopTrcSelWrite _ _ => true
  | .irqCommitGo _ => true
  | .rgnCommitGo _ => true
  | .rgnLineFlush _ => true
  | .recIndexWrite _ _ => true
  | .recAgeWrite _ _ => true
  | .ageingWalk _ => true
  | .decRandSeedWrite _ _ => true
  | .checkpointStart _ => true
  | .checkpointSealed _ _ => true
  | .idleTimerExpiry _ => true
  | .wakeEvent _ _ => true
  | .pwrCtlWake _ => true
  | .sleepMessage _ => true
  | .awakeMessage _ => true
  | .wakeMessage _ => true
  | .clkDecGate _ => true
  | .warmReset _ _ => true
  | .format _ _ => true
  | .poolMinClr _ => true
  | .brownoutFall => true
  | .updateEnRise => true
  | .supplyLoss _ => true
  | .pllLockLoss _ => true
  | .twinAnswerTimeout _ => true
  | .pegCycleEnd _ _ => true
  | .beaconToggle _ => true
  | .fenceReadReturn _ _ => true

end Sys2Proof
end

