-- ==== Sys2Proof/Decode.lean ====
section
/-!
DEFINITION. Commands spelt by a word: spec/opcode_table.json gives no row any bits, so no word spells a command.
-/

namespace Sys2Proof

/-- The command a word spells by the table's bits. Every row of the table has an empty list of fields, so no word
spells one. -/
def decodeTableWord (_nbits _w : Nat) : Option Instr := none

end Sys2Proof
end

