-- ==== Sys2Proof/Machine/Tab.lean ====
section
/-!
DEFINITION. Reading and writing the tables by key: keys strictly rising, no entry equal to the default.
-/

namespace Sys2Proof

/-- The entry of key `k`; `d` is what an unlisted key reads as. -/
def Tab.get {α : Type} (d : α) (t : Tab α) (k : Nat) : α :=
  match t with
  | [] => d
  | (i, v) :: r => if i = k then v else if k < i then d else Tab.get d r k

/-- The table with the entry of `k` taken out. -/
def Tab.drop {α : Type} (t : Tab α) (k : Nat) : Tab α :=
  match t with
  | [] => []
  | (i, v) :: r => if i = k then r else if k < i then (i, v) :: r else (i, v) :: Tab.drop r k

/-- The table with key `k` holding `v`, in its place by key. -/
def Tab.put {α : Type} (t : Tab α) (k : Nat) (v : α) : Tab α :=
  match t with
  | [] => [(k, v)]
  | (i, w) :: r =>
    if i = k then (k, v) :: r else if k < i then (k, v) :: (i, w) :: r else (i, w) :: Tab.put r k v

/-- A write: the default takes the entry out, so that equal tables are equal data. -/
def Tab.set {α : Type} [DecidableEq α] (d : α) (t : Tab α) (k : Nat) (v : α) : Tab α :=
  if v = d then Tab.drop t k else Tab.put t k v

/-- An entry changed in place. -/
def Tab.modify {α : Type} [DecidableEq α] (d : α) (t : Tab α) (k : Nat) (f : α → α) : Tab α :=
  Tab.set d t k (f (Tab.get d t k))

/-- The entry of `k` of a table whose unlisted keys hold nothing. -/
def Tab.find? {α : Type} (t : Tab α) (k : Nat) : Option α :=
  match t with
  | [] => none
  | (i, v) :: r => if i = k then some v else if k < i then none else Tab.find? r k

/-- `f` applied to the entry of `k`, where there is one. -/
def Tab.change {α : Type} (t : Tab α) (k : Nat) (f : α → α) : Tab α :=
  match t with
  | [] => []
  | (i, v) :: r => if i = k then (i, f v) :: r else if k < i then (i, v) :: r else (i, v) :: Tab.change r k f

/-- An item put in its place by key, behind those of the same key. -/
def insertOn {α : Type} (key : α → Nat) (a : α) (l : List α) : List α :=
  match l with
  | [] => [a]
  | e :: r => if key a < key e then a :: e :: r else e :: insertOn key a r

/-- A list in ascending order of a key, equal keys in the order of the list. -/
def sortOn {α : Type} (key : α → Nat) (l : List α) : List α := l.foldl (fun m a => insertOn key a m) []

/-- Keys strictly rising from above `lo`, and no entry equal to the default. -/
def Tab.wfFrom {α : Type} [DecidableEq α] (d : α) (lo : Nat) (t : Tab α) : Bool :=
  match t with
  | [] => true
  | (i, v) :: r => decide (lo ≤ i) && decide (v ≠ d) && Tab.wfFrom d (i + 1) r

/-- The canonical form of a table with default `d`. -/
def Tab.wf {α : Type} [DecidableEq α] (d : α) (t : Tab α) : Bool := Tab.wfFrom d 0 t

/-- Keys strictly rising from above `lo`: the canonical form of a table without a default. -/
def Tab.risingFrom {α : Type} (lo : Nat) (t : Tab α) : Bool :=
  match t with
  | [] => true
  | (i, _) :: r => decide (lo ≤ i) && Tab.risingFrom (i + 1) r

end Sys2Proof
end

