-- ==== Sys2Proof/Machine/State.lean ====
section
/-!
DEFINITION. The state of the pair: every register, queue, memory, buffer, counter, mode and pin the spec gives the
block, as plain data; the reasons a command may stop; the state right after reset.
-/

namespace Sys2Proof.Machine

open Sys2Proof

/-- Why a command stops with a fault. -/
inductive Fault where
  /-- Raised by a target-port or debug-port access to a half without VDD_AON, which answers nothing (R675: the integrator must
  ensure that no access is made). Safe: the model stops where the hardware would hang. -/
  | unpowered
  deriving DecidableEq, Repr

/-- Why a command is refused. -/
inductive Refusal where
  /-- Raised by an arm of `exec` whose command has no meaning in the model yet. Safe. -/
  | notModelled (mnemonic : String)
  deriving DecidableEq, Repr

/-- Phases of the channel pins (R82), run and freeze being told by the enables and the freeze controller. -/
inductive PinPhase where
  | reset | peg | parked
  deriving DecidableEq, Repr

/-! ### Pads (R60-R64) -/

/-- A step of the pad ring into park, in the order of R62: every CE_n high, then, 5 ns later at the earliest, every other output at its park level. -/
inductive PadMove where
  | chipEnables | others
  deriving DecidableEq, Repr

/-- Levels of a channel's pins as the pad ring parks them (R60): the drivers of DQ and of DQS, RE_t, RE_c, WE_n, CLE, ALE, WP_n, CE_n[3:0]. -/
structure Pins where
  dq  : Bool
  dqs : Bool
  reT : Bool
  reC : Bool
  weN : Bool
  cle : Bool
  ale : Bool
  wpN : Bool
  ceN : BitVec 4
  deriving DecidableEq, Repr

/-- The pad ring of a channel: the half whose drivers it selects, none for park (R61), WP_n's last driven level (R63), and the steps by which it last went to park
(R62). -/
structure PadRing where
  source : Option HalfId
  wp     : Bool
  moves  : List PadMove
  deriving DecidableEq, Repr

/-- A pad ring before any half has driven it: parked by its pull-up and pull-down (R64). -/
def PadRing.reset : PadRing := { source := none, wp := false, moves := [] }

/-- Levels at which a parked channel rests (R60). -/
def PadRing.parkPins (r : PadRing) : Pins :=
  { dq := false, dqs := false, reT := true, reC := false, weN := true, cle := false, ale := false, wpN := r.wp, ceN := 0xF }

/-! ### Dies and channels -/

/-- What a die operation is (R146, R161). `setup` writes what is due of the FEATURES list and PULSE_LIMIT (R197, R392). -/
inductive OpKind where
  | fill | read | raw | program | parity | erase | reset | setup
  deriving DecidableEq, Repr

/-- Where a die operation stands (R166-R171). `queued`: waiting for the scheduler; `issue`: chosen, its command cycles wait for the
bus; `dataIn`: program data on its way; `busy`; `dataOut`: sensed, its output waits for the bus; `suspending`: SUSPEND issued; `suspended`; `resuming`: RESUME waits for
the bus; `unsuspendable`: running on after a suspend timeout (R158). -/
inductive OpPhase where
  | queued | issue | dataIn | busy | dataOut | suspending | suspended | resuming | unsuspendable
  deriving DecidableEq, Repr

/-- The fields of GEN_SUSP_POL that a suspension was requested under: the class bits, READS_MAX, and whether GAP_US was 0 (R227). -/
structure SuspPol where
  mask  : BitVec 4
  max   : Nat
  noGap : Bool
  deriving DecidableEq, Repr

/-- A queue read started under a suspension: its command, record and unit pages, and the ladder step it was started for (R215, R216). -/
structure Begun where
  seq   : Nat
  idx   : Nat
  pages : List Nat
  step  : Nat
  deriving DecidableEq, Repr

/-- A die operation of a LUN: the command it works for (its sequence number and class), the unit, the unit pages, the mode, the
retry entry of a read, where it stands, whether GAP_US has elapsed, the policy its suspension was requested under, the queue reads started under
its suspension, the block of an erase, the stripe slot of a parity program or the kind of a reset, and the profile it was issued under (R107). -/
structure DieOp where
  kind    : OpKind
  seq     : Nat
  cls     : Nat
  recIdx  : Nat
  pages   : List Nat
  slc     : Bool
  entry   : Nat
  phase   : OpPhase
  gapDone : Bool
  pol     : Option SuspPol
  begun   : List Begun
  block   : Nat
  prof    : Option Profile
  deriving DecidableEq, Repr

/-- Bus tasks of R162; `rank` gives their order of precedence. `reset` is any of the three resets, `raise` the raise to code 0 after one (R145). -/
inductive TaskKind where
  | reset | raise | suspend | resume | fillCmd | fillOut | dataOut | poll | arrayCmd | dataIn | train
  deriving DecidableEq, Repr

/-- A bus task waiting at a channel: what it is and the die it is for. -/
structure BusTask where
  kind : TaskKind
  die  : Nat
  deriving DecidableEq, Repr

/-- A command, address or data cycle on the pins (R146): a CE_n line asserted, a command, an address byte, a known data byte, a codeword's image over a number
of bytes, data-out of a number of bytes, and the wait until the die is ready. -/
inductive Cycle where
  | ce   (line : Nat)
  | cmd  (op : Byte)
  | addr (b : Byte)
  | data (b : Byte)
  | codeword (image : BitVec 36864) (bytes : Nat)
  | dout (bytes : Nat)
  | busy
  deriving DecidableEq, Repr

/-- A data burst in progress: its direction, its die, all its codewords by page and slot, how many have crossed the pins, whether it has yielded since, and whether a
command has gone to another die on its CE_n line since then (R155, R163). -/
structure Burst where
  out    : Bool
  die    : Nat
  places : List (Nat × Nat)
  moved  : Nat
  split  : Bool
  lost   : Bool
  deriving DecidableEq, Repr

/-- The interface a die is in (R141, R145): SDR timing mode 0, SDR code 0, or its run interface at a code. -/
inductive DieMode where
  | boot
  | sdr
  | run (code : Nat)
  deriving DecidableEq, Repr

/-- Deskew of one lane: CHN_DSKd_L (04). -/
structure Lane where
  rd  : Nat
  wr  : Nat
  eye : Nat
  deriving DecidableEq, Repr

/-- Reset value of CHN_DSKd_L: both delays 32, no eye (R178). -/
def Lane.reset : Lane := { rd := 32, wr := 32, eye := 0 }

/-- A die (LUN) of a channel as one half knows it: discovery, its volume address (R151), its interface, binding, what it offers, training, timeouts, erase age, scheduler
credits, the retry entry it holds, whether PULSE_LIMIT and the FEATURES list are due, its ODT and drive codes (R174) and ODT CONFIGURE (R175), the operation it runs
and those suspended or waiting (CHN_DIEd, CHN_EAGEd, R148, R158, R223, R251, R411). -/
structure Die where
  present  : Bool
  vol      : Option Nat
  toggle   : Bool
  zq       : Bool
  mode     : DieMode
  family   : Option Family
  readId   : BitVec 64
  ext      : Option (BitVec 256)
  slot     : Option Nat
  retired  : Bool
  timeouts : Nat
  eye      : Nat
  rateOk   : Nat
  lanes    : Tab Lane
  eraseAge : Nat
  eraseSusp : Nat
  eraseActive : Bool
  starved  : Bool
  ageMarked : Bool
  credit   : Tab Int
  entry    : Nat
  pulseDue : Bool
  featDue  : Bool
  odt      : Option Nat
  drv      : Option Nat
  term     : Bool
  op       : Option DieOp
  under    : Option DieOp
  ops      : List DieOp
  held     : Bool
  deriving DecidableEq, Repr

/-- A die not found: the reset values of CHN_DIEd and CHN_EAGEd. -/
def Die.absent : Die :=
  { present := false, vol := none, toggle := false, zq := false, mode := .boot, family := none, readId := 0, ext := none, slot := none, retired := false,
    timeouts := 0, eye := 0, rateOk := 0, lanes := [], eraseAge := 0, eraseSusp := 0, eraseActive := false,
    starved := false, ageMarked := false, credit := [], entry := 0, pulseDue := false, featDue := false, odt := none, drv := none,
    term := false, op := none, under := none, ops := [], held := false }

/-- RW registers of a channel (04, *Channel registers*). -/
structure ChanCfg where
  rateCap   : Nat
  monEn     : Bool
  periodMs  : Nat
  eyeMin    : Nat
  monLimit  : Nat
  interval  : Nat
  firstPct  : Nat
  timeoutX  : Nat
  deriving DecidableEq, Repr

/-- Reset values of CHN_CTL, CHN_TRAIN and CHN_POLL. -/
def ChanCfg.reset : ChanCfg :=
  { rateCap := 12, monEn := true, periodMs := 100, eyeMin := 24, monLimit := 16, interval := 500, firstPct := 98,
    timeoutX := 4 }

/-- A channel as one half holds it: registers, pad set, dies, bus tasks, the cycles of the last bus task, the volume last selected on each
CE_n line (R153), the R/B_n latch (R68), the burst in progress, which a freeze holds (R85), the dies to be polled
before anything else (R24, R160), the pad set calibrated (R176), the terminations on, of a die for its data-in and of the pads for a read burst (R175), the training
asked for (2 full, 3 full below the present code) and the dies whose quick retrain has run its cycles (R183). -/
structure Chan where
  cfg       : ChanCfg
  rate      : Nat
  ext       : Bool
  trained   : Bool
  trainFail : Bool
  alarm     : Bool
  padFail   : Bool
  padRetired : Bool
  retired   : Bool
  busyCyc   : BitVec 32
  dataCyc   : BitVec 32
  dies      : Tab Die
  tasks     : List BusTask
  cycles    : List Cycle
  volSel    : Tab Nat
  rbLatch   : Bool
  burst     : Option Burst
  mustPoll  : List Nat
  padCal    : Bool
  odtDie    : Option Nat
  odtPad    : Bool
  trainUs   : Nat
  trainReq  : Nat
  trainRun  : List Nat
  deriving DecidableEq, Repr

/-- A channel right after reset. -/
def Chan.reset : Chan :=
  { cfg := ChanCfg.reset, rate := 0, ext := false, trained := false, trainFail := false, alarm := false,
    padFail := false, padRetired := false, retired := false, busyCyc := 0, dataCyc := 0, dies := [], tasks := [],
    cycles := [], volSel := [], rbLatch := false, burst := none, mustPoll := [],
    padCal := false, odtDie := none, odtPad := false, trainUs := 0, trainReq := 0, trainRun := [] }

/-! ### Engines, boot and general registers -/

/-- ROLE of an engine (R27). -/
inductive Role' where
  | unloaded | spare | bound | background | retired
  deriving DecidableEq, Repr

/-- An engine: its role, its channel, the sequence number of the background job it works on, and the channel it is bound to at the end of its current die operation (R23). -/
structure Engine where
  role : Role'
  chan : Nat
  job  : Option Nat
  next : Option Nat
  deriving DecidableEq, Repr

/-- An engine before its microcode is loaded. -/
def Engine.unloaded : Engine := { role := .unloaded, chan := 0, job := none, next := none }

/-- Straps and bring-up of a half: GEN_STRAP, GEN_STRAP_SPLIT, GEN_BOOT, the peg samples (R88), the PLLs locked and the starts of each that
timed out (R530), the straps of its twin heard (R91), its AON domain running (R97, R675), HRST low, and
whether the half is held in reset (R622, R675) or lost to a fault of the whole half (R41). -/
structure Boot where
  samples   : List (BitVec 16)
  strap     : BitVec 16
  split     : BitVec 16
  latched   : Bool
  conflict  : Bool
  strapErr  : Bool
  startedDetached : Bool
  twinAbsent : Bool
  stage     : Nat
  ucode     : Nat
  blank     : Bool
  formatted : Bool
  recovering : Bool
  degraded  : Bool
  rstRefused : Bool
  haltCause : Nat
  tReady    : Nat
  heldReset : Bool
  failed    : Bool
  filled    : Bool
  coreLock  : Bool
  decLock   : Bool
  phyLock   : List Nat
  pllTries  : Tab Nat
  ucodeSeq  : BitVec 32
  answered  : Bool
  aon       : Bool
  hrst      : Bool
  deriving DecidableEq, Repr

/-- A half's straps and bring-up right after PORST_n. -/
def Boot.reset : Boot :=
  { samples := [], strap := 0, split := 0, latched := false, conflict := false, strapErr := false,
    startedDetached := false, twinAbsent := false, stage := 0, ucode := 0, blank := false, formatted := false, recovering := false,
    degraded := false, rstRefused := false, haltCause := 0, tReady := 0, heldReset := false, failed := false, filled := false,
    coreLock := false, decLock := false, phyLock := [], pllTries := [], ucodeSeq := 0, answered := false, aon := true, hrst := false }

/-- RW fields of GEN_ENG_CFG, GEN_SUSP_POL, GEN_PE_CTL, GEN_VERIFY, GEN_SCHED and GEN_SCRATCH. -/
structure GenCfg where
  bgMax    : Nat
  progSusp : BitVec 4
  ersSusp  : BitVec 4
  readsMax : Nat
  gapUs    : Nat
  openMax  : Nat
  holdMax  : Nat
  ersMark  : Nat
  ceiling  : Nat
  wHost    : Nat
  wReclaim : Nat
  wRecord  : Nat
  wMaint   : Nat
  scratch  : Word
  deriving DecidableEq, Repr

/-- Reset values of the general RW registers (R27, R227, R413, R649). -/
def GenCfg.reset (v : Variant) : GenCfg :=
  { bgMax := Config.bgLimit v, progSusp := 5, ersSusp := 5, readsMax := 8, gapUs := 40,
    openMax := Config.openLimit v, holdMax := 32, ersMark := 200, ceiling := 128, wHost := 8, wReclaim := 4,
    wRecord := 8, wMaint := 1, scratch := 0 }

/-! ### Queues and commands -/

/-- STATE of a queue (R318). -/
inductive QState where
  | active | draining | idle | error | struck
  deriving DecidableEq, Repr

/-- A queue (R306-R343): PITCH's parameters (`watch` is its statistics slot, 16 while it waits for one, R268), indices, state, error, and what is outstanding on it. `seen` is the tail whose entries may be fetched
(R326); `acked` the indices beyond HEAD whose replies are acknowledged; `waiter` the command that waits for the header write (R340);
`strikeBy` the STRIKE that waits for it to be idle (R338); `live` tells that PITCH's DONE is written (R307); `asked` the entries whose sequence numbers
are asked of the owner (R399), `bad` the cause and entry that stop the queue once they have come. -/
structure Queue where
  cls       : Nat
  watch     : Option Nat
  thresh    : Nat
  gutter    : Option Nat
  size      : Nat
  ring      : BitVec 64
  hdr       : BitVec 64
  quota     : Nat
  head      : Nat
  fetch     : Nat
  tail      : Nat
  seen      : Nat
  state     : QState
  errCause  : Nat
  errIndex  : Nat
  disable   : Bool
  dbIgnored : Bool
  inflight  : Nat
  doneCnt   : BitVec 32
  lastSeq   : BitVec 64
  update    : BitVec 32
  hdrDirty  : Bool
  hdrOut    : Bool
  acked     : List Nat
  waiter    : Option Nat
  strikeBy  : Option Nat
  live      : Bool
  asked     : List Entry
  bad       : Option (Nat × Entry)
  deriving DecidableEq, Repr

/-- Queue 0 as it stands before QUE_ADM_CFG.SIZE is written: class MAINT, idle, without a ring (R306, R308). -/
def Queue.admin : Queue :=
  { cls := 3, watch := none, thresh := 0, gutter := none, size := 0, ring := 0, hdr := 0, quota := 64, head := 0, fetch := 0,
    tail := 0, seen := 0, state := .idle, errCause := 0, errIndex := 0, disable := false, dbIgnored := false,
    inflight := 0, doneCnt := 0, lastSeq := 0, update := 0, hdrDirty := false, hdrOut := false, acked := [],
    waiter := none, strikeBy := none, live := true, asked := [], bad := none }

/-- The reply MALFORMED of an entry consumed under R333: its place, its CMD_ID, and whether its write met an error. -/
structure BadReply where
  adopted : Bool
  queue   : Nat
  index   : Nat
  cmdId   : Nat
  failed  : Bool
  deriving DecidableEq, Repr

/-- What a mirrored change of a queue is: its creation, its end, a write of DISABLE, a write of RESTART (R579), or the error that stops it (R32). -/
inductive QAct where
  | created (u : Queue)
  | gone
  | disable (on : Bool)
  | restart
  | stopped (cause index : Nat) (consumed : Bool)
  deriving DecidableEq, Repr

/-- A guy-link message (R399, R538, R579). `adopted` marks a queue the sender adopted from the receiver. `fetch` goes with `mine` from the half that
holds the queue, and without it as the number that the receiver asked for, with the status by which check 3 of R354 refused the command. -/
inductive Msg where
  | tail      (adopted : Bool) (q t : Nat)
  | queue     (adopted : Bool) (q : Nat) (act : QAct)
  | fetch     (mine adopted : Bool) (seq q index : Nat) (entry : Entry) (keyed : Bool) (refused : Option Status)
  | seqAsk    (q index : Nat) (entry : Entry)
  | journal   (es : List JEntry) (seq : Nat) (progress : Progress)
  | profile   (slot : Nat) (p : Profile)
  | bind      (ch die slot : Nat)
  | complete  (seq : Nat) (status : Status) (result : BitVec 112)
  | release   (adopted : Bool) (seq q head : Nat)
  | heartbeat
  | sleep     (target : Nat)
  | awake
  | wake
  | handover  (ch : Nat)
  deriving DecidableEq, Repr

/-- Where a command stands. `stalled`: in the range-lock table (R407); `left`: its checks are passed; `running`; `finished`: STATUS is known and its data has left the
DMA; `replying`: the reply write is outstanding; `replyFailed` (R333). -/
inductive Phase where
  | stalled | left | running | finished | replying | replyFailed
  deriving DecidableEq, Repr

/-- The conditions of R355, in its order. -/
structure Flags where
  aborted      : Bool
  xferError    : Bool
  sourcePoison : Bool
  dataPoison   : Bool
  unc          : Bool
  fail         : Bool
  verifyFail   : Bool
  compareMiss  : Bool
  deriving DecidableEq, Repr

/-- No condition raised. -/
def Flags.none : Flags :=
  { aborted := false, xferError := false, sourcePoison := false, dataPoison := false, unc := false, fail := false,
    verifyFail := false, compareMiss := false }

/-- Where a command's DMA stream stands (R434, R436, R453). -/
inductive XferState where
  | none | wanted | active (slot : Nat) | complete
  deriving DecidableEq, Repr

/-- A command context (R341-R343, 08 *Command contexts*): the entry, its queue and index, where it stands, its ladder and unit pages, its stream, and
what the reply will carry. `redo` marks a command re-executed after a takeover (R588), `fill` the half's own read of a code-window line (R131). `buf` holds the bytes an admin command writes to BUF or reads from it, `bufLen` their count;
`again` tells that its source data is fetched a second time, for pages lost with a pool bank (R42), `heldOff` that its first failing page found HOLD_MAX holds (R202); `before` is
the record that an ERASE of a region's unit found (R139); `waitAck` holds, for each half, the last of its messages whose acknowledgement the command waits for; `order` tells when
it left the range-lock table (R190), 0 before, and `took` that it took the hold it names then (R368, R378). -/
structure Ctx where
  queue    : Nat
  adopted  : Bool
  index    : Nat
  entry    : Entry
  opcode   : Opcode
  cls      : Nat
  phase    : Phase
  final    : Option Status
  flags    : Flags
  result   : BitVec 112
  cws      : List Cw
  pages    : List UPage
  dstIdx   : Nat
  xfer     : XferState
  buf      : Nat
  bufLen   : Nat
  waitAck  : List (HalfId × Nat)
  waitJrnl : Bool
  progress : Progress
  holdTag  : Option Nat
  failN    : Nat
  firstFail : Option Nat
  maxBits  : Nat
  cmpFirst : Option Nat
  readLeft : Bool
  keyed    : Bool
  redo     : Bool
  fill     : Bool
  again    : Bool
  heldOff  : Bool
  before   : Option Rec
  order    : Nat
  took     : Bool
  deriving DecidableEq, Repr

/-- A range-lock entry (R405-R409): the command's number, key and mode, and whether it belongs to this half's partition. -/
structure Lock where
  seq    : Nat
  start  : Nat
  len    : Nat
  excl   : Bool
  own    : Bool
  deriving DecidableEq, Repr

/-- A hold (R200): the unit pages' payloads, and which of them have a poisoned word (R468). -/
structure Hold where
  pages  : List (List Payload)
  poison : List Nat
  deriving DecidableEq, Repr

/-- The queue manager of a half (08): registers, own and adopted queues, contexts, range locks and what they report; `jobs` are the half's own reads, of
code-window lines, by the numbers that name their die operations (R131). -/
structure QueMgr where
  burst    : Nat
  admRing  : BitVec 64
  admHdr   : BitVec 64
  admSize  : Nat
  admGutter : Nat
  admNotify : Bool
  admQuota : Nat
  stray    : Bool
  strayQ   : Nat
  seqHi    : Word
  queues   : Tab Queue
  adopted  : Tab Queue
  ctxs     : Tab Ctx
  jobs     : Tab Ctx
  locks    : List Lock
  malformed : List BadReply
  turn     : Nat
  deriving DecidableEq, Repr

/-- The queue manager right after reset: only queue 0, without a ring (R306). -/
def QueMgr.reset : QueMgr :=
  { burst := 8, admRing := 0, admHdr := 0, admSize := 0, admGutter := 0, admNotify := true, admQuota := 64,
    stray := false, strayQ := 0, seqHi := 0, queues := [(0, Queue.admin)], adopted := [], ctxs := [], jobs := [], locks := [], malformed := [],
    turn := 0 }

/-! ### Fabric, DMA and memories -/

/-- What an outstanding write of the master port is (R49, R340). -/
inductive WriteKind where
  | reply (seq : Nat)
  | malformedReply (q : Nat) (adopted : Bool) (index : Nat)
  | header (q : Nat) (adopted : Bool)
  | spill (g : Nat)
  | stream (slot : Nat) (gen : BitVec 8) (descNo : Nat)
  deriving DecidableEq, Repr

/-- A write on the master port: kind, first byte address, number of bytes enabled, the bytes as one little-endian number, POISON of each beat from bit 0 up, and ORDERED
(R47-R50). -/
structure MWrite where
  kind    : WriteKind
  addr    : Nat
  len     : Nat
  data    : Nat
  poison  : BitVec 64
  ordered : Bool
  deriving DecidableEq, Repr

/-- A read on the master port: of a stream's source bytes, from byte `pos` of the stream; of its read-back (`back`); or of FENCE_ADDR. -/
structure MRead where
  slot   : Option Nat
  descNo : Nat
  pos    : Nat
  back   : Bool
  fence  : Option Nat
  addr   : Nat
  len    : Nat
  deriving DecidableEq, Repr

/-- A visit of a descriptor whose transfers have not all completed (R445, R451): its stream and command, the descriptor's address and length, the signals
it asks for, its first byte in the stream, bytes put on the port and bytes answered, the first byte that failed, and what failed. -/
structure Visit where
  slot    : Nat
  gen     : BitVec 8
  descNo  : Nat
  seq     : Nat
  adopted : Bool
  queue   : Nat
  index   : Nat
  cmdId   : Nat
  addr    : Option Nat
  len     : Nat
  half    : Bool
  full    : Bool
  wait    : Bool
  start   : Nat
  issued  : Nat
  done    : Nat
  closed  : Bool
  failAt  : Option Nat
  rdErr   : Bool
  wrErr   : Bool
  poison  : Bool
  deriving DecidableEq, Repr

/-- A stream slot (R436, R439-R458): INFO, IDX and BYTES registers, the descriptor in walk and how far it is moved, its settings, what is outstanding, the user bytes and the metadata bytes it moves, whether it has reached its metadata, whether it fetches data a second time (R42), and the stream bytes at which words of
its data in the DMA buffer are poisoned (R448). -/
structure Stream where
  active   : Bool
  dir      : Bool
  adopted  : Bool
  gen      : BitVec 8
  queue    : Nat
  index    : Nat
  descNo   : Nat
  count    : BitVec 32
  seq      : Nat
  respWait : Bool
  readback : Bool
  nextAddr : BitVec 64
  desc     : Option Descr
  descAt   : Nat
  off      : Nat
  ended    : Bool
  lastAddr : Option Nat
  rbIssued : Bool
  rbDone   : Bool
  outWr    : Nat
  outRd    : Nat
  moved    : Nat
  total    : Nat
  metaLen  : Nat
  inMeta   : Bool
  again    : Bool
  lost     : List Nat
  deriving DecidableEq, Repr

/-- A stream slot that no stream has taken. -/
def Stream.reset : Stream :=
  { active := false, dir := false, adopted := false, gen := 0, queue := 0, index := 0, descNo := 0, count := 0,
    seq := 0, respWait := false, readback := false, nextAddr := 0, desc := none, descAt := 0, off := 0, ended := false,
    lastAddr := none, rbIssued := false, rbDone := false, outWr := 0, outRd := 0, moved := 0, total := 0,
    metaLen := 0, inMeta := false, again := false, lost := [] }

/-- The DMA of a half (11): registers, stream slots, token buckets, the master port's outstanding transactions and those that wait for it (R48), the
descriptor visits in progress, and the last bad mark written: its descriptor and STATUS. -/
structure Dma where
  respWait : Bool
  readback : Bool
  shareRd  : Nat
  shareWr  : Nat
  lateErr  : Bool
  badCnt   : Nat
  free     : Nat
  streams  : Tab Stream
  tokRd    : Nat
  tokWr    : Nat
  writes   : List MWrite
  reads    : List MRead
  waitWr   : List MWrite
  waitRd   : List MRead
  visits   : List Visit
  mark     : Option (Nat × Nat)
  deriving DecidableEq, Repr

/-- The DMA right after reset. -/
def Dma.reset (v : Variant) : Dma :=
  { respWait := false, readback := false, shareRd := 64, shareWr := 64, lateErr := false, badCnt := 0,
    free := Config.dmaLines v, streams := [], tokRd := 64, tokWr := 64, writes := [], reads := [], waitWr := [], waitRd := [], visits := [], mark := none }

/-- A protected memory (R459-R474): which words have their written flag set (R460: `allWritten` after a fill; which words a structure takes is not fixed by the spec), which are stored as poisoned, each with what it held, its counts and its scrubber. -/
structure Mem where
  allWritten : Bool
  poisoned   : List (Nat × MemHit)
  ce         : Nat
  ue         : Nat
  word       : Nat
  lastUe     : Bool
  valid      : Bool
  passes     : BitVec 32
  scrubAt    : Nat
  fillDone   : Bool
  deriving DecidableEq, Repr

/-- A memory right after a reset of the half: every written flag clear (R460). -/
def Mem.reset : Mem :=
  { allWritten := false, poisoned := [], ce := 0, ue := 0, word := 0, lastUe := false, valid := false,
    passes := 0, scrubAt := 0, fillDone := false }

/-- The memories of a half with their registers. -/
structure Mems where
  ueLimit  : Nat
  interval : Nat
  tab      : Tab Mem
  bankUe   : Tab Nat
  deriving DecidableEq, Repr

/-- The memories right after reset (R485). -/
def Mems.reset : Mems := { ueLimit := 2, interval := 1024, tab := [], bankUe := [] }

/-- The staging pool (R28-R30, R650): banks in service, the reserve size, the lowest number of free cells, and the holds. The cells that commands
use follow from their contexts. -/
structure Pool where
  live     : List Nat
  reserve  : Nat
  minFree  : Nat
  holds    : Tab Hold
  deriving DecidableEq, Repr

/-- The pool right after reset: every bank live, no reserve taken. -/
def Pool.reset (v : Variant) : Pool :=
  { live := List.range (Config.banks v), reserve := Config.reserveCells, minFree := Config.banks v * Config.bankCells,
    holds := [] }

/-! ### Gutters and interrupts -/

/-- An item of a gutter (R476): its number since half reset, its payload words, and which 64-bit words of it are poisoned, counted from its length word (R468). -/
structure Item where
  num    : Nat
  words  : List Word
  poison : List Nat
  deriving DecidableEq, Repr

/-- A gutter (R475-R485). `rdItem` is the number of the item the read pointer stands in and `rdWord` the words of it read, its length word
counted; `mark` the number of the marked item. `spOut` lists the items whose spill writes
are outstanding, with the slots each takes; `spStop` tells that an error stopped the spill. -/
structure Gutter where
  limit    : Nat
  spill    : Bool
  wmark    : Nat
  tmoUs    : Nat
  tmo      : Bool
  spillErr : Bool
  stalled  : Nat
  items    : List Item
  nextNum  : Nat
  rdItem   : Nat
  rdWord   : Nat
  mark     : Option Nat
  lost     : BitVec 32
  spBase   : BitVec 64
  spSize   : Nat
  spWr     : Nat
  spRd     : Nat
  spStop   : Bool
  spOut    : List (Nat × Nat)
  deriving DecidableEq, Repr

/-- A gutter right after reset (R485). -/
def Gutter.reset : Gutter :=
  { limit := 256, spill := false, wmark := 16, tmoUs := 50, tmo := false, spillErr := false, stalled := 0,
    items := [], nextNum := 0, rdItem := 0, rdWord := 0, mark := none, lost := 0, spBase := 0, spSize := 6, spWr := 0,
    spRd := 0, spStop := false, spOut := [] }

/-- The gutters of a half, with GUT_EVT. -/
structure Gutters where
  evt   : Nat
  evtEn : Bool
  tab   : Tab Gutter
  deriving DecidableEq, Repr

/-- The gutters right after reset. -/
def Gutters.reset : Gutters := { evt := 0, evtEn := true, tab := [] }

/-- An interrupt source (R507-R527): shadow and committed PRIO and TARGET, filters, filtered level, count, mask and owner. -/
structure Src where
  prioSh   : Nat
  targetSh : BitVec 8
  prio     : Nat
  target   : BitVec 8
  filt     : Nat
  filtAon  : Nat
  level    : Bool
  count    : Nat
  mask     : Bool
  active   : Option Nat
  deriving DecidableEq, Repr

/-- A source right after reset (R514, R527). -/
def Src.reset : Src :=
  { prioSh := 0, targetSh := 1, prio := 0, target := 1, filt := 4, filtAon := 1,
    level := false, count := 0, mask := true, active := none }

/-- A processor's side of the concentrator (R515-R527): its stack of saved priorities and sources, RUN, flags, output, and when it last claimed. -/
structure Proc where
  run     : Nat
  stack   : List (Nat × Nat)
  eoiErr  : Bool
  spurCnt : Nat
  out     : Bool
  claimed : Nat
  deriving DecidableEq, Repr

/-- A processor's side right after reset. -/
def Proc.reset : Proc := { run := 0, stack := [], eoiErr := false, spurCnt := 0, out := false, claimed := 0 }

/-- The interrupt concentrator of a half. `claims` counts successful claims, so that `Proc.claimed` orders them (R517);
`latched` holds the edge events that came while CLK_CORE stood still (R510). A commit finds its claim boundary at once, so no commit ever waits. -/
structure Irq where
  srcs    : Tab Src
  procs   : Tab Proc
  claims  : Nat
  latched : List Nat
  deriving DecidableEq, Repr

/-- The concentrator right after reset. -/
def Irq.reset : Irq := { srcs := [], procs := [], claims := 0, latched := [] }

/-! ### Governors, power, flysheet, twin, freeze -/

/-- Gains of one region of a slot (R488): KP, KI and PRESET as single-precision bit patterns. -/
structure Gain where
  kp     : Word
  ki     : Word
  preset : Word
  deriving DecidableEq, Repr

/-- Reset gains: KP and KI zero, PRESET not a number. -/
def Gain.reset : Gain := { kp := 0, ki := 0, preset := 0x7FC00000 }

/-- A slot's gain block (R491). -/
structure GainBlk where
  elim  : Word
  umin  : Word
  umax  : Word
  gains : Tab Gain
  deriving DecidableEq, Repr

/-- Reset gain block: ELIM and UMAX +infinity, UMIN zero. -/
def GainBlk.reset : GainBlk := { elim := 0x7F800000, umin := 0, umax := 0x7F800000, gains := [] }

/-- A loop slot (R486-R506). -/
structure Loop where
  en       : Bool
  kind     : Nat
  trcMode  : Nat
  zone     : Nat
  periodUs : Nat
  region   : Nat
  trcStop  : Bool
  tmrUs    : Nat
  post     : Nat
  shadow   : GainBlk
  pend     : Option GainBlk
  blk      : GainBlk
  integ    : Word
  out      : Word
  meas     : Word
  err      : Word
  follow   : Option Nat
  recover  : Option Nat
  trace    : List (Word × Word × Word × Word)
  postLeft : Option Nat
  deriving DecidableEq, Repr

/-- A loop slot right after reset. -/
def Loop.reset : Loop :=
  { en := false, kind := 0, trcMode := 0, zone := 0, periodUs := 10, region := 0, trcStop := false, tmrUs := 1000,
    post := 512, shadow := GainBlk.reset, pend := none, blk := GainBlk.reset, integ := 0, out := 0, meas := 0,
    err := 0, follow := none, recover := none, trace := [], postLeft := none }

/-- A zone's thresholds (R494). -/
structure Zone where
  set   : Nat
  comf  : Nat
  tight : Nat
  crit  : Nat
  deriving DecidableEq, Repr

/-- Reset thresholds of a zone. -/
def Zone.reset : Zone := { set := 64, comf := 128, tight := 32, crit := 8 }

/-- The loop engine of a half (13). The bucket holds tokens as a single-precision number (R500); `edges` holds the BUDGET_TGL edges of the window, each with its age in µs as the budget slot's samples tell it. -/
structure Loops where
  tab      : Tab Loop
  alarm    : List Nat
  fallback : List Nat
  conflict : Bool
  share    : Nat
  target   : Nat
  depth    : Nat
  spinMax  : Nat
  seekEdges : Nat
  seekWin  : Nat
  edges    : List Nat
  zones    : Tab Zone
  trcSlot  : Nat
  trcIndex : Nat
  trcData  : List Word
  bucket   : Word
  deriving DecidableEq, Repr

/-- The loop engine right after reset; without a budget governor the bucket is full (R500): 16.0. -/
def Loops.reset : Loops :=
  { tab := [], alarm := [], fallback := [], conflict := false, share := 128, target := 90, depth := 16, spinMax := 48,
    seekEdges := 8, seekWin := 10, edges := [], zones := [], trcSlot := 0, trcIndex := 0, trcData := [],
    bucket := 0x41800000 }

/-- The power controller of a half (15). -/
structure Power where
  state     : Nat
  twinState : Nat
  entering  : Bool
  declined  : Bool
  offered   : Bool
  wakeCause : Nat
  psMax     : Nat
  idle1     : Nat
  idle2     : Nat
  idle3     : Nat
  idle4     : Nat
  decGated  : Bool
  watching  : Bool
  beacons   : Nat
  deriving DecidableEq, Repr

/-- The power controller right after reset (R547). -/
def Power.reset : Power :=
  { state := 0, twinState := 7, entering := false, declined := false, offered := false, wakeCause := 0, psMax := 3,
    idle1 := 2000, idle2 := 100, idle3 := 10000, idle4 := 1000, decGated := true, watching := false,
    beacons := 0 }

/-- Log 0x04, the flysheet summary (R572), entries as (KIND, record index, first unit page, count, tag, GSEQ). -/
structure Summary where
  outcome : Nat
  flags   : Nat
  seq     : BitVec 32
  applied : Nat
  committed : Nat
  voided  : Nat
  reerased : Nat
  pads    : Nat
  classified : Nat
  partials : Nat
  tSeal   : BitVec 32
  entries : List (Nat × Nat × Nat × Nat × Nat × Nat)
  deriving DecidableEq, Repr

/-- No recovery has run. -/
def Summary.none : Summary :=
  { outcome := 0, flags := 0, seq := 0, applied := 0, committed := 0, voided := 0, reerased := 0, pads := 0,
    classified := 0, partials := 0, tSeal := 0, entries := [] }

/-- The flysheet controller of a half (16). `waiting` holds the changes whose journal records do not fit, with the commands they are for (R555); `jrnlBad`: a word of the journal is poisoned and no twin's mirror repairs it (R557); `ckptFrom` is J0 of a
checkpoint in progress, as the number of entries then held, `ckptNew` what it writes, `ckptSlots` the checkpoints sealed in slots A and B, and `copies` the copies sealed; `jbase` and `mirBase` are the positions of the
first entries held of both journals (R566); `record` the pages that the commit wrote, header first, seal last, of which `sealed` tells the copies that are sealed. -/
structure Fly where
  ckptPct  : Nat
  bcStride : Nat
  phase    : Nat
  shortHold : Bool
  lost     : Bool
  stall    : Bool
  oneSite  : Bool
  sealed   : BitVec 2
  journal  : List JEntry
  jbase    : Nat
  mirror   : List JEntry
  mirBase  : Nat
  waiting  : List (Option Nat × List JEntry)
  jrnlBad  : Bool
  ckptSeq  : BitVec 32
  ckptFrom : Option Nat
  ckptNew  : Option Ckpt
  ckptSlots : Tab Ckpt
  copies   : Nat
  clean    : Bool
  units    : Tab Nat
  copyFails : Tab Nat
  record   : List (List Payload)
  summary  : Summary
  reErase  : List (Nat × Bool)
  padDue   : List (Nat × Nat × Nat)
  deriving DecidableEq, Repr

/-- The flysheet controller right after reset. -/
def Fly.reset : Fly :=
  { ckptPct := 50, bcStride := 64, phase := 0, shortHold := false, lost := false, stall := false, oneSite := false,
    sealed := 0, journal := [], jbase := 0, mirror := [], mirBase := 0, waiting := [], jrnlBad := false, ckptSeq := 0, ckptFrom := none, ckptNew := none, ckptSlots := [], copies := 0, clean := false,
    units := [], copyFails := [], record := [], summary := Summary.none, reErase := [], padDue := [] }

/-- Twin states (R574). -/
inductive TwinSt where
  | solo | attached | standby | takingOver | syncing | linkFault | yielding
  deriving DecidableEq, Repr

/-- Twin registers and the sending side of the guy link (17): link number, messages sent and not yet acknowledged, how many of them the
twin has applied, failures of the next of them. `holdOwn` and `holdAdopt` stop the fetching of own or adopted queues during a DETACH, a
YIELD or a hand-back (R585, R597, R599); `voided` lists the unit-page ranges voided at the last takeover: record, first page, count (R589, R590). -/
structure Twin where
  st        : TwinSt
  hbMiss    : Nat
  adoptGut  : Nat
  linkAlarm : Bool
  stDone    : Bool
  stFail    : Bool
  stCause   : Nat
  stale     : Bool
  drives    : List Nat
  tTake     : Nat
  reexec    : Nat
  voids     : Nat
  replies   : Nat
  retryCnt  : Nat
  lateCnt   : Nat
  late      : Nat
  linkNum   : Nat
  sent      : List (Nat × Msg)
  applied   : Nat
  fails     : Nat
  waitLock  : Bool
  remote    : List Nat
  yieldSeq  : Option (BitVec 32)
  holdOwn   : Bool
  holdAdopt : Bool
  voided    : List (Nat × Nat × Nat)
  deriving DecidableEq, Repr

/-- The twin registers right after reset. -/
def Twin.reset : Twin :=
  { st := .solo, hbMiss := 3, adoptGut := 0, linkAlarm := false, stDone := false, stFail := false, stCause := 0,
    stale := false, drives := [], tTake := 0, reexec := 0, voids := 0, replies := 0, retryCnt := 0, lateCnt := 0,
    late := 0, linkNum := 0, sent := [], applied := 0, fails := 0, waitLock := false, remote := [], yieldSeq := none,
    holdOwn := false, holdAdopt := false, voided := [] }

/-- The mirror partitions (R31, R32): the twin's records, queues, contexts, stripes, slots and bindings as this half holds them, and the dies of the
channels the twin drives, as discovery and their bindings show them, with the tags of its holds; `written`: the words of the records have been written since reset (R460). -/
structure Mirror where
  recs     : Tab Rec
  queues   : Tab Queue
  ctxs     : Tab Ctx
  done     : List (Nat × Status × BitVec 112)
  stripes  : Tab Stripe
  profiles : Tab Profile
  regions  : Tab RgnDesc
  chans    : Tab Chan
  holds    : List Nat
  written  : Bool
  deriving DecidableEq, Repr

/-- Empty mirror partitions. -/
def Mirror.reset : Mirror :=
  { recs := [], queues := [], ctxs := [], done := [], stripes := [], profiles := [], regions := [], chans := [], holds := [], written := false }

/-- The record store's own partition with the access window, the ageing walker and the profile slots (03). `written`: its words have been written since reset (R460); `poisoned`: the
poisoned words of both partitions, as record index and whether it is the higher 8 bytes; `poison`: the words captured that were poisoned, lower and higher (R111, R118, R461). -/
structure Store where
  recs      : Tab Rec
  defects   : List Defect
  index     : Nat
  valid     : Bool
  fromMirror : Bool
  absent    : Bool
  poison    : BitVec 2
  data      : BitVec 128
  underflow : Bool
  periodMs  : Nat
  profiles  : Tab Profile
  adoptedProfiles : Tab Profile
  written   : Bool
  poisoned  : List (Nat × Bool)
  deriving DecidableEq, Repr

/-- The record store right after reset. -/
def Store.reset : Store :=
  { recs := [], defects := [], index := 0, valid := false, fromMirror := false, absent := false, poison := 0,
    data := 0, underflow := false, periodMs := 1000, profiles := [], adoptedProfiles := [],
    written := false, poisoned := [] }

/-- RGN_MAPn (R128). -/
structure WinMap where
  base : Nat
  en   : Bool
  deriving DecidableEq, Repr

/-- An unmapped region. -/
def WinMap.off : WinMap := { base := 0, en := false }

/-- A line of the fetch buffer (R131): the region and line of it, the user bytes, poison. -/
structure FLine where
  region : Nat
  line   : Nat
  data   : BitVec 32768
  poison : Bool
  deriving DecidableEq, Repr

/-- The code window of a half (R126-R140): descriptors, shadow, pending and committed mapping, status, line buffer with the most recently used line
first, the fills asked for and the fetches stalled on them, and UPDATE_EN as the half's CLK_CORE has it (R73). -/
structure Window where
  desc     : Tab RgnDesc
  shadow   : Tab WinMap
  pend     : Option (Tab WinMap)
  map      : Tab WinMap
  refused  : Bool
  cause    : Nat
  active   : Nat
  fallback : Bool
  limit    : Nat
  prefetch : Bool
  hits     : BitVec 32
  misses   : BitVec 32
  lines    : List FLine
  fills    : List (Nat × Nat)
  stalled  : List (Nat × Nat)
  flushDue : Bool
  updateEn : Bool
  deriving DecidableEq, Repr

/-- The code window right after reset. -/
def Window.reset : Window :=
  { desc := [], shadow := [], pend := none, map := [], refused := false, cause := 0, active := 0, fallback := false,
    limit := 4096, prefetch := true, hits := 0, misses := 0, lines := [], fills := [], stalled := [], flushDue := false,
    updateEn := false }

/-- A WATCH statistics slot (R268, R273). -/
structure Watch where
  queue  : Nat
  active : Bool
  adopted : Bool
  thresh : Nat
  reads  : Nat
  warns  : Nat
  bits   : Nat
  deriving DecidableEq, Repr

/-- A free statistics slot. -/
def Watch.free : Watch :=
  { queue := 0, active := false, adopted := false, thresh := 0, reads := 0, warns := 0, bits := 0 }

/-- A core that works on a codeword (R242-R244, R669): its pool-port number, the command and the place of the codeword in it, and the iteration limit and
magnitudes it read at its start. -/
structure CoreJob where
  id    : Nat
  seq   : Nat
  place : Nat
  iter  : Nat
  llr   : BitVec 16
  deriving DecidableEq, Repr

/-- The decode registers of a half (R273); `busy` holds the cores granted. -/
structure Dec where
  hardIter : Nat
  softIter : Nat
  erasedMax : Nat
  stepEn   : BitVec 3
  llr      : BitVec 16
  hard     : List Nat
  soft     : List Nat
  inj      : Word
  injSoft  : Word
  cnt      : Tab (BitVec 32)
  watch    : Tab Watch
  refused  : Bool
  seedWait : Bool
  busy     : List CoreJob
  deriving DecidableEq, Repr

/-- The decode registers right after reset. -/
def Dec.reset (v : Variant) : Dec :=
  { hardIter := 20, softIter := 30, erasedMax := 24, stepEn := 7, llr := 0x033C,
    hard := List.range (Config.hardCores v), soft := List.range (Config.softCores v), inj := 0, injSoft := 0x01000000,
    cnt := [], watch := [], refused := false, seedWait := false, busy := [] }

/-- A stripe row's accumulators (R279-R281, R285): P and Q payloads by codeword slot, the ring positions that have folded, those whose program has ended, the parity
programs issued and ended, and the number and class under which they are issued. -/
structure Row where
  p      : List Payload
  q      : List Payload
  folded : List Nat
  ended  : List Nat
  issued : Bool
  done   : List Nat
  seq    : Nat
  cls    : Nat
  deriving DecidableEq, Repr

/-- A REBUILD in progress (R295-R299). -/
structure Rebuild where
  slot : Nat
  src  : Nat
  dst  : Nat
  row  : Nat
  unc  : Nat
  seq  : Nat
  deriving DecidableEq, Repr

/-- The stripe parity unit of a half (R304). `rows` is keyed by 65,536 × slot + row. -/
structure Parity where
  limit   : Nat
  used    : Nat
  stripes : Tab Stripe
  rows    : Tab Row
  rebuilds : Tab Rebuild
  deriving DecidableEq, Repr

/-- The stripe parity unit right after reset. -/
def Parity.reset (v : Variant) : Parity :=
  { limit := Config.accLimit v, used := 0, stripes := [], rows := [], rebuilds := [] }

/-- Settings of one arbiter class: NTH and tickets (R422, R424). -/
structure ArbSet where
  nth  : Nat
  tkts : List (BitVec 32)
  deriving DecidableEq, Repr

/-- One class of the ridge arbiter (R415-R425): shadow, pending and committed settings, LFSR, a waiting LFSR write, grant counter, the requests in the order raised, and what each holder holds. -/
structure ArbCls where
  shadow : ArbSet
  pend   : Option ArbSet
  cur    : ArbSet
  lfsr   : BitVec 23
  lfsrWr : Option (BitVec 23)
  gcnt   : Nat
  reqs   : List Nat
  held   : List Nat
  deriving DecidableEq, Repr

/-- The ridge arbiter of a half. -/
structure Arb where
  pool    : ArbCls
  dec     : ArbCls
  fired   : Bool
  who     : Nat
  cls     : Bool
  fireCnt : Nat
  limitUs : Nat
  deriving DecidableEq, Repr

/-- Reset settings of the pool class (R416, 20 *ARB and DMA*). -/
def ArbSet.poolReset : ArbSet :=
  { nth := 8, tkts := [0x44444444, 0x44444444, 0x66666688, 0x66666666, 0x000001F4] }

/-- Reset settings of the decode class (R417). -/
def ArbSet.decReset : ArbSet :=
  { nth := 4, tkts := [0x88888888, 0x88888888, 0x88888888, 0x88888888] }

/-- The ridge arbiter right after reset. -/
def Arb.reset : Arb :=
  { pool := { shadow := ArbSet.poolReset, pend := none, cur := ArbSet.poolReset, lfsr := 0x4B1D27, lfsrWr := none, gcnt := 0, reqs := [], held := [] },
    dec := { shadow := ArbSet.decReset, pend := none, cur := ArbSet.decReset, lfsr := 0x2C90E3, lfsrWr := none, gcnt := 0, reqs := [], held := [] },
    fired := false, who := 0, cls := false, fireCnt := 0, limitUs := 20 }

/-- Read-out of a half (18): FRZ_RO_MASK, SRC and SEG of FRZ_RO_CTL, the segment being read out, the word of its frame next read, the
running CRC-32 of the frame, the word last sent, and the words of the frame that the freeze port last sent. -/
structure Readout where
  mask : BitVec 18
  src  : Bool
  sel  : Nat
  seg  : Nat
  pos  : Nat
  crc  : BitVec 32
  word : Word
  frame : List Word
  deriving DecidableEq, Repr

/-- The read-out right after reset (R619). -/
def Readout.reset : Readout :=
  { mask := 0x3FFFF, src := false, sel := 0, seg := 0, pos := 0, crc := 0xFFFFFFFF, word := 0, frame := [] }

/-- The last response of a port: OKAY or error, the data read, POISON. -/
structure Resp where
  ok     : Bool
  data   : Nat
  poison : Bool
  deriving DecidableEq, Repr

/-- No access answered yet. -/
def Resp.reset : Resp := { ok := true, data := 0, poison := false }

/-- A retirement-log entry (R385, log 0x02). -/
structure RetLog where
  kind  : Nat
  index : Nat
  cause : Nat
  restored : Bool
  die   : Nat
  seq   : BitVec 64
  deriving DecidableEq, Repr

/-- One half of the pair. -/
structure Half where
  boot    : Boot
  gen     : GenCfg
  engines : Tab Engine
  chans   : Tab Chan
  que     : QueMgr
  dma     : Dma
  mems    : Mems
  pool    : Pool
  gut     : Gutters
  irq     : Irq
  loops   : Loops
  pwr     : Power
  fly     : Fly
  twn     : Twin
  mir     : Mirror
  store   : Store
  win     : Window
  dec     : Dec
  par     : Parity
  arb     : Arb
  ro      : Readout
  port    : Resp
  retLog  : List RetLog
  deriving DecidableEq, Repr

/-- A half right after PORST_n. -/
def Half.reset (v : Variant) : Half :=
  { boot := Boot.reset, gen := GenCfg.reset v, engines := [], chans := [], que := QueMgr.reset, dma := Dma.reset v,
    mems := Mems.reset, pool := Pool.reset v, gut := Gutters.reset, irq := Irq.reset, loops := Loops.reset,
    pwr := Power.reset, fly := Fly.reset, twn := Twin.reset, mir := Mirror.reset, store := Store.reset,
    win := Window.reset, dec := Dec.reset v, par := Parity.reset v, arb := Arb.reset, ro := Readout.reset,
    port := Resp.reset, retLog := [] }

/-- An atomic group (R379): its members' numbers, unit pages counted, whether it is void, GSEQ, the GROUP_COMMIT that closes it, and the VALID changes of its members. -/
structure Group where
  members : List Nat
  ok      : List Nat
  ended   : List Nat
  pages   : Nat
  isVoid  : Bool
  gseq    : Nat
  closing : Option Nat
  changes : List (Nat × Int × Bool)
  deriving DecidableEq, Repr

/-- The chip signals, the freeze controller, and what the two halves share (R73, R236, R379, R398, R605). The interlock is `enable`: at most one half's enable is
active on a channel (R34). `updateEn` is the pin, `pads` the pad rings, `leaves` counts the commands that have left the range-lock tables (R190), `seedSince` is the sequence number from which the drive seed stands (R236), `held` the accesses and fabric responses that a freeze keeps waiting at the ports, in the order they
came, each with whether it came through the target port (R58). -/
structure Pair where
  powered   : Bool
  phase     : PinPhase
  ranPhase  : Bool
  brownout  : Bool
  latched   : Bool
  holdupMs  : Nat
  budget    : Nat
  budgetTgl : Bool
  budgetIn  : Nat
  updateEn  : Bool
  frozen    : Bool
  frzPend   : Bool
  frzCause  : Nat
  boThaw    : Bool
  frzTicks  : Nat
  frzCount  : Nat
  bringHold : Bool
  enable    : Tab HalfId
  pads      : Tab PadRing
  held      : List (HalfId × Bool × Instr)
  seed      : BitVec 31
  seedSince : Nat
  nextSeq   : BitVec 64
  owner     : HalfId
  groups    : Tab Group
  voidMarks : List Nat
  leaves    : Nat
  dbg       : Resp
  deriving DecidableEq, Repr

/-- The shared state right after PORST_n low. -/
def Pair.reset : Pair :=
  { powered := true, phase := .reset, ranPhase := false, brownout := false, latched := false, holdupMs := 0, budget := 0,
    budgetTgl := false, budgetIn := 0, updateEn := false, frozen := false, frzPend := false,
    frzCause := 0, boThaw := false, frzTicks := 0, frzCount := 0, bringHold := false, enable := [], pads := [], held := [],
    seed := 0, seedSince := 0, nextSeq := 0, owner := .a, groups := [], voidMarks := [], leaves := 0, dbg := Resp.reset }

/-- The block: its configuration, the shared state, the two halves, and the model's own counter of free values taken. -/
structure Block where
  variant  : Variant
  pair     : Pair
  ha       : Half
  hb       : Half
  freeUses : Nat
  deriving DecidableEq, Repr

/-- The block of configuration `v` right after reset. -/
def Block.reset (v : Variant) : Block :=
  { variant := v, pair := Pair.reset, ha := Half.reset v, hb := Half.reset v, freeUses := 0 }

/-- The machine: the block, and the commands that wait, first in, first out. -/
structure State where
  blk     : Block
  pending : List Instr
  deriving DecidableEq, Repr

/-- The machine of configuration `v` right after reset. -/
def State.resetOf (v : Variant) : State := { blk := Block.reset v, pending := [] }

/-- The machine right after reset, in the full configuration (DESIGN CHOICE, log entry 1; every statement is made for both). -/
def State.reset : State := State.resetOf .brx16T

end Sys2Proof.Machine
end

