-- ==== Sys2Proof/Machine/Ops.lean ====
section
/-!
DEFINITION. The named operations over the block: reaching a half, a channel, a die, an engine, a queue or a context and
putting it back; the lift of a change of the block to an outcome of a command.
-/

namespace Sys2Proof.Machine

open Sys2Proof

/-- The half `h` of the block. -/
def Block.half (b : Block) (h : HalfId) : Half :=
  match h with
  | .a => b.ha
  | .b => b.hb

/-- The block with half `h` replaced. -/
def Block.setHalf (b : Block) (h : HalfId) (x : Half) : Block :=
  match h with
  | .a => { b with ha := x }
  | .b => { b with hb := x }

/-- The block with half `h` changed. -/
def Block.onHalf (b : Block) (h : HalfId) (f : Half → Half) : Block := b.setHalf h (f (b.half h))

/-- The block with what the halves share changed. -/
def Block.onPair (b : Block) (f : Pair → Pair) : Block := { b with pair := f b.pair }

/-- A command's effect on the block, as an outcome that leaves the queue of commands alone. -/
def run (f : Block → Block) (s : State) : Host.Outcome State Fault Refusal := .next { s with blk := f s.blk }

/-- A change made only where a condition holds; the block is unchanged otherwise. -/
def Block.when (b : Block) (c : Bool) (f : Block → Block) : Block := if c then f b else b

/-- Changes of the block for each item of a list, in its order. -/
def Block.each {α : Type} (b : Block) (l : List α) (f : Block → α → Block) : Block := l.foldl f b

/-! ### Channels, dies and engines -/

/-- Channel `c` as the half holds it. -/
def Half.chan (x : Half) (c : Nat) : Chan := Tab.get Chan.reset x.chans c

/-- The half with channel `c` changed. -/
def Half.onChan (x : Half) (c : Nat) (f : Chan → Chan) : Half :=
  { x with chans := Tab.modify Chan.reset x.chans c f }

/-- Die `d` of a channel. -/
def Chan.die (k : Chan) (d : Nat) : Die := Tab.get Die.absent k.dies d

/-- The channel with die `d` changed. -/
def Chan.onDie (k : Chan) (d : Nat) (f : Die → Die) : Chan := { k with dies := Tab.modify Die.absent k.dies d f }

/-- Die `d` of channel `c`. -/
def Half.die (x : Half) (c d : Nat) : Die := (x.chan c).die d

/-- The half with die `d` of channel `c` changed. -/
def Half.onDie (x : Half) (c d : Nat) (f : Die → Die) : Half := x.onChan c (fun k => k.onDie d f)

/-- Engine `e` of the half. -/
def Half.engine (x : Half) (e : Nat) : Engine := Tab.get Engine.unloaded x.engines e

/-- The half with engine `e` changed. -/
def Half.onEngine (x : Half) (e : Nat) (f : Engine → Engine) : Half :=
  { x with engines := Tab.modify Engine.unloaded x.engines e f }

/-- The half drives channel `c` (R16, TWN_CHAN.DRIVES). -/
def Half.drivesCh (x : Half) (c : Nat) : Bool := x.twn.drives.contains c

/-- The half that drives channel `c`, where one does. -/
def Block.driver (b : Block) (c : Nat) : Option HalfId :=
  if b.ha.drivesCh c then some .a else if b.hb.drivesCh c then some .b else none

/-- The half's pad enable of channel `c` is active (R34). -/
def Block.enabled (b : Block) (h : HalfId) (c : Nat) : Bool := decide (b.pair.enable.find? c = some h)

/-- The half that keeps the records, commands and stripes of channel `c`'s units: the home half of a remote channel, and otherwise
the half that drives it (R594). -/
def Block.keeper (b : Block) (c : Nat) : Option HalfId :=
  if b.ha.twn.remote.contains c then some .a
  else if b.hb.twn.remote.contains c then some .b
  else b.driver c

/-! ### Queues and contexts -/

/-- The half with its queue manager changed. -/
def Half.onQue (x : Half) (f : QueMgr → QueMgr) : Half := { x with que := f x.que }

/-- Queue `q` of the half's own queues, or of those it adopted. -/
def QueMgr.queue? (m : QueMgr) (adopted : Bool) (q : Nat) : Option Queue :=
  if adopted then m.adopted.find? q else m.queues.find? q

/-- The queue manager with a queue changed, where it exists. -/
def QueMgr.onQueue (m : QueMgr) (adopted : Bool) (q : Nat) (f : Queue → Queue) : QueMgr :=
  if adopted then { m with adopted := m.adopted.change q f } else { m with queues := m.queues.change q f }

/-- The queue manager with a queue put in, or taken out, of its own queues or those it adopted. -/
def QueMgr.putQueue (m : QueMgr) (adopted : Bool) (q : Nat) (u : Queue) : QueMgr :=
  if adopted then { m with adopted := m.adopted.put q u } else { m with queues := m.queues.put q u }

/-- The queue manager without a queue. -/
def QueMgr.dropQueue (m : QueMgr) (adopted : Bool) (q : Nat) : QueMgr :=
  if adopted then { m with adopted := m.adopted.drop q } else { m with queues := m.queues.drop q }

/-- The half with a queue changed, where it exists. -/
def Half.onQueue (x : Half) (adopted : Bool) (q : Nat) (f : Queue → Queue) : Half :=
  x.onQue (fun m => m.onQueue adopted q f)

/-- The context of command `seq`, or the half's own read of that number. -/
def Half.ctx? (x : Half) (seq : Nat) : Option Ctx := (x.que.ctxs.find? seq).or (x.que.jobs.find? seq)

/-- The half with the context of command `seq` changed, where there is one, or its own read of that number. -/
def Half.onCtx (x : Half) (seq : Nat) (f : Ctx → Ctx) : Half :=
  x.onQue (fun m => { m with ctxs := m.ctxs.change seq f, jobs := m.jobs.change seq f })

/-- Whatever reads codewords for a half: its commands, and its own reads. -/
def QueMgr.readers (m : QueMgr) : List (Nat × Ctx) := m.ctxs ++ m.jobs

/-- The contexts of a half, in the order of their numbers. -/
def Half.ctxList (x : Half) : List (Nat × Ctx) := x.que.ctxs

/-- The number of a die operation that belongs to no command: above every number of the 64-bit counter (R398). -/
def noSeq : Nat := 2 ^ 64

/-- The number that names the read of a line's copy: above every sequence number. -/
def fillKey (h : HalfId) (r n : Nat) (second : Bool) : Nat :=
  noSeq + 2 ^ 32 * (if h = .a then 1 else 2) + 2 ^ 40 * bitOf second + 65536 * r + n

/-! ### The master port (R47, R48) -/

/-- Transfers a half may have outstanding in each direction (R48). -/
def portLimit : Nat := 128

/-- Transfers that wait put on the port, in their order, while fewer than 128 of their direction are outstanding. -/
def Dma.pump (d : Dma) : Dma :=
  { d with
    writes := d.writes ++ d.waitWr.take (portLimit - d.writes.length), waitWr := d.waitWr.drop (portLimit - d.writes.length)
    reads := d.reads ++ d.waitRd.take (portLimit - d.reads.length), waitRd := d.waitRd.drop (portLimit - d.reads.length) }

/-- Writes given to the port. -/
def Dma.addWrites (d : Dma) (l : List MWrite) : Dma := Dma.pump { d with waitWr := d.waitWr ++ l }

/-- A read given to the port. -/
def Dma.addRead (d : Dma) (r : MRead) : Dma := Dma.pump { d with waitRd := d.waitRd ++ [r] }

/-- The writes that `p` does not keep taken off the port; those that waited follow. -/
def Dma.keepWrites (d : Dma) (p : MWrite → Bool) : Dma := Dma.pump { d with writes := d.writes.filter p, waitWr := d.waitWr.filter p }

/-- The reads that `p` does not keep taken off the port; those that waited follow. -/
def Dma.keepReads (d : Dma) (p : MRead → Bool) : Dma := Dma.pump { d with reads := d.reads.filter p, waitRd := d.waitRd.filter p }

/-- The first outstanding write for which `p` holds answered. -/
def Dma.endWrite (d : Dma) (p : MWrite → Bool) : Dma := Dma.pump { d with writes := d.writes.eraseP p }

/-- The first outstanding read for which `p` holds answered. -/
def Dma.endRead (d : Dma) (p : MRead → Bool) : Dma := Dma.pump { d with reads := d.reads.eraseP p }

/-- A further write may go out at once (R48). -/
def Half.canWrite (x : Half) : Bool := decide (x.dma.writes.length < portLimit)

/-- A further read may go out at once (R48). -/
def Half.canRead (x : Half) : Bool := decide (x.dma.reads.length < portLimit)

/-! ### Clocks -/

/-- CLK_CORE of the half runs: no freeze, locked, not held in reset by HRST or otherwise, not lost, and no power state deeper than PS1 (R528, R531, R606). -/
def Block.coreRuns (b : Block) (h : HalfId) : Bool :=
  !b.pair.frozen && (b.half h).boot.coreLock && !(b.half h).boot.heldReset && !(b.half h).boot.hrst && !(b.half h).boot.failed && decide ((b.half h).pwr.state ≤ 1)

/-- An entry into PS2 has begun: its SLEEP is on the way (R427, R534, R535). -/
def Half.falling (x : Half) : Bool := x.pwr.entering && decide (x.pwr.state = 1)

/-- The half has reached admin ready (R634). -/
def Half.ready (x : Half) : Bool := decide (x.boot.stage = 7)

/-- Both halves are in state attached, so that changes wait for acknowledgements (R575). -/
def Half.attached (x : Half) : Bool := decide (x.twn.st = .attached)

end Sys2Proof.Machine
end

