-- ==== Sys2Proof/Machine/Float.lean ====
section
/-!
DEFINITION. IEEE 754 single precision as the loop engine uses it: round to nearest even, subnormal results flushed to zero (R488).
-/

namespace Sys2Proof.Machine

open Sys2Proof

/-- A single-precision value: not a number, an infinity, or a sign with a ratio of naturals. -/
inductive Flt where
  | nan
  | inf (neg : Bool)
  | fin (neg : Bool) (num den : Nat)
  deriving DecidableEq, Repr

/-- The value of a bit pattern. -/
def fltOf (w : Word) : Flt :=
  let s := w.getLsbD 31
  let e := w.field 23 8
  let m := w.field 0 23
  if e = 255 then (if m = 0 then .inf s else .nan)
  else
    let sig := if e = 0 then m else 2 ^ 23 + m
    let ex := if e = 0 then 1 else e
    if 150 ≤ ex then .fin s (sig * 2 ^ (ex - 150)) 1 else .fin s sig (2 ^ (150 - ex))

/-- The quiet NaN results take. -/
def nanWord : Word := 0x7FC00000

/-- The sign bit. -/
def signBit (s : Bool) : Nat := if s then 2 ^ 31 else 0

/-- Whether num / den is at least 2 to the power `k`. -/
def atLeastPow (num den : Nat) (k : Int) : Bool :=
  if 0 ≤ k then decide (den * 2 ^ k.toNat ≤ num) else decide (den ≤ num * 2 ^ (-k).toNat)

/-- num / den divided to the nearest natural, ties to even. -/
def divEven (num den : Nat) : Nat :=
  let q := num / den
  let r := num % den
  if 2 * r < den then q else if den < 2 * r then q + 1 else if q % 2 = 0 then q else q + 1

/-- A ratio rounded to single precision (R488). -/
def roundFlt (s : Bool) (num den : Nat) : Word :=
  if num = 0 || den = 0 then BitVec.ofNat 32 (signBit s)
  else
    let k0 : Int := (num.log2 : Int) - (den.log2 : Int)
    let k := if atLeastPow num den k0 then k0 else k0 - 1
    let sh : Int := 23 - k
    let q := if 0 ≤ sh then divEven (num * 2 ^ sh.toNat) den else divEven num (den * 2 ^ (-sh).toNat)
    let k1 := if q = 2 ^ 24 then k + 1 else k
    let m := if q = 2 ^ 24 then 0 else q - 2 ^ 23
    if 127 < k1 then BitVec.ofNat 32 (signBit s + 0x7F800000)
    else if k1 < -126 then BitVec.ofNat 32 (signBit s)
    else BitVec.ofNat 32 (signBit s + (k1 + 127).toNat * 2 ^ 23 + m)

/-- A value as a word. -/
def wordOfFlt (f : Flt) : Word :=
  match f with
  | .nan => nanWord
  | .inf s => BitVec.ofNat 32 (signBit s + 0x7F800000)
  | .fin s n d => roundFlt s n d

/-- A natural as a word. -/
def fltNat (n : Nat) : Word := roundFlt false n 1

/-- Sum. -/
def fltAdd (x y : Word) : Word :=
  match fltOf x, fltOf y with
  | .nan, _ => nanWord
  | _, .nan => nanWord
  | .inf s, .inf t => if s = t then wordOfFlt (.inf s) else nanWord
  | .inf s, _ => wordOfFlt (.inf s)
  | _, .inf t => wordOfFlt (.inf t)
  | .fin s a b, .fin t c d =>
    let p : Int := (if s then -1 else 1) * ((a * d : Nat) : Int)
    let q : Int := (if t then -1 else 1) * ((c * b : Nat) : Int)
    let r := p + q
    if r = 0 then BitVec.ofNat 32 (signBit (s && t)) else roundFlt (decide (r < 0)) r.natAbs (b * d)

/-- The sign changed. -/
def fltNeg (x : Word) : Word := x ^^^ 0x80000000

/-- Difference. -/
def fltSub (x y : Word) : Word := fltAdd x (fltNeg y)

/-- Product. -/
def fltMul (x y : Word) : Word :=
  match fltOf x, fltOf y with
  | .nan, _ => nanWord
  | _, .nan => nanWord
  | .inf s, .inf t => wordOfFlt (.inf (s ^^ t))
  | .inf s, .fin t a _ => if a = 0 then nanWord else wordOfFlt (.inf (s ^^ t))
  | .fin s a _, .inf t => if a = 0 then nanWord else wordOfFlt (.inf (s ^^ t))
  | .fin s a b, .fin t c d => roundFlt (s ^^ t) (a * c) (b * d)

/-- Quotient by a natural other than zero. -/
def fltDivNat (x : Word) (n : Nat) : Word :=
  match fltOf x with
  | .nan => nanWord
  | .inf s => wordOfFlt (.inf s)
  | .fin s a b => roundFlt s a (b * n)

/-- Less than; false where either is not a number. -/
def fltLt (x y : Word) : Bool :=
  match fltOf x, fltOf y with
  | .nan, _ => false
  | _, .nan => false
  | .inf s, .inf t => s && !t
  | .inf s, _ => s
  | _, .inf t => !t
  | .fin s a b, .fin t c d =>
    decide ((if s then -1 else 1) * ((a * d : Nat) : Int) < (if t then -1 else 1) * ((c * b : Nat) : Int))

/-- A finite number. -/
def fltFinite (x : Word) : Bool :=
  match fltOf x with
  | .fin _ _ _ => true
  | _ => false

/-- Not a number. -/
def fltNan (x : Word) : Bool := decide (fltOf x = .nan)

/-- The value held between 0 and 15 and rounded to the nearest integer, ties to even (R495). -/
def fltWeight (x : Word) : Nat :=
  match fltOf x with
  | .nan => 0
  | .inf s => if s then 0 else 15
  | .fin s a b => if s then 0 else Nat.min 15 (divEven a b)

/-- Whole tokens of a bucket. -/
def fltFloor (x : Word) : Nat :=
  match fltOf x with
  | .fin false a b => a / b
  | _ => 0

end Sys2Proof.Machine
end

