-- ==== Sys2Proof/Machine/Signals.lean ====
section
/-!
DEFINITION. Interrupt sources, gutters and event notices: what every other unit calls to say that something has happened
(12, *Gutters*; 14).
-/

namespace Sys2Proof.Machine

open Sys2Proof

/-! ### Interrupt sources (14) -/

/-- Sources the configuration has: those of R507, without the reserved ones. -/
def srcExists (v : Variant) (s : Nat) : Bool :=
  decide (s < Config.sources v) && !(decide (100 ≤ s) && decide (s < 104)) &&
    match v with
    | .brx16T => true
    | .brx4T =>
      !(decide (16 ≤ s) && decide (s < 32)) && !(decide (68 ≤ s) && decide (s < 80)) &&
        !(decide (84 ≤ s) && decide (s < 88))

/-- TYPE of a source (R507): true for edge. -/
def srcEdge (s : Nat) : Bool :=
  !(decide (s < 88) || decide (s = 90) || decide (s = 91) || decide (s = 92) || decide (s = 96))

/-- A source of the half. -/
def Irq.src (i : Irq) (s : Nat) : Src := Tab.get Src.reset i.srcs s

/-- The concentrator with a source changed. -/
def Irq.onSrc (i : Irq) (s : Nat) (f : Src → Src) : Irq := { i with srcs := Tab.modify Src.reset i.srcs s f }

/-- A processor's side. -/
def Irq.proc (i : Irq) (k : Nat) : Proc := Tab.get Proc.reset i.procs k

/-- The concentrator with a processor's side changed. -/
def Irq.onProc (i : Irq) (k : Nat) (f : Proc → Proc) : Irq := { i with procs := Tab.modify Proc.reset i.procs k f }

/-- The pending bit (R512, R513). -/
def Src.pending (s : Nat) (x : Src) : Bool := if srcEdge s then decide (x.count ≠ 0) else x.level

/-- Source `s` is eligible for processor `k` (R515, R516). -/
def Irq.eligible (i : Irq) (s : Nat) (x : Src) (k : Nat) : Bool :=
  x.pending s && !x.mask && x.active.isNone && x.target.getLsbD k && decide ((i.proc k).run < x.prio)

/-- The better of two processors to assign to: the lower running priority, then the older claim, then the lower number (R517). -/
def Irq.better (i : Irq) (k j : Nat) : Bool :=
  let a := i.proc k
  let c := i.proc j
  decide (a.run < c.run) || (decide (a.run = c.run) &&
    (decide (a.claimed < c.claimed) || (decide (a.claimed = c.claimed) && decide (k < j))))

/-- The processor a source is assigned to (R517). -/
def Irq.chosen (i : Irq) (s : Nat) (x : Src) : Option Nat :=
  ((List.range 8).filter (i.eligible s x)).foldl
    (fun o k => match o with
      | none => some k
      | some j => if i.better k j then some k else some j) none

/-- The outputs after the assignment of R517: each stays high until its processor's claim (R71). -/
def Irq.assign (i : Irq) : Irq :=
  (i.srcs.filterMap (fun e => i.chosen e.1 e.2)).foldl (fun j k => j.onProc k (fun p => { p with out := true })) i

/-- One event of an edge source counted (R513), and the sources assigned again. -/
def Irq.count (i : Irq) (s : Nat) : Irq :=
  (i.onSrc s (fun x => { x with count := satAdd 255 x.count 1 })).assign

/-- An edge event of source `s` at a half. It is counted while CLK_CORE runs, and latched to be counted at the restart or the thaw
otherwise (R509, R510, R513). -/
def Block.raise (b : Block) (h : HalfId) (s : Nat) : Block :=
  if srcExists b.variant s && srcEdge s then
    b.onHalf h (fun x => { x with irq := if b.coreRuns h then x.irq.count s
                                         else { x.irq with latched := x.irq.latched ++ [s] } })
  else b

/-- The latched edge events counted, in their order, when CLK_CORE runs again (R510). -/
def Half.countLatched (x : Half) : Half :=
  { x with irq := x.irq.latched.foldl Irq.count { x.irq with latched := [] } }

/-! ### Gutters (12) -/

/-- Gutter `g` of the half. -/
def Half.gutter (x : Half) (g : Nat) : Gutter := Tab.get Gutter.reset x.gut.tab g

/-- The half with a gutter changed. -/
def Half.onGutter (x : Half) (g : Nat) (f : Gutter → Gutter) : Half :=
  { x with gut := { x.gut with tab := Tab.modify Gutter.reset x.gut.tab g f } }

/-- Cells of an item: its length word and payload in 32-byte cells (R476). -/
def Item.cells (i : Item) : Nat := (4 + 4 * i.words.length + 31) / 32

/-- Cells a gutter holds. -/
def Gutter.cells (u : Gutter) : Nat := (u.items.map Item.cells).sum

/-- Cells of a gutter taken from the shared pool, beyond its reserve of 16 (R475). -/
def sharedOf (cells : Nat) : Nat := cells - 16

/-- Free shared cells, GUT_POOL.FREE (R475, R485). -/
def Half.gutFree (v : Variant) (x : Half) : Nat :=
  Config.gutterCells v - 16 * Config.gutters v - (x.gut.tab.map (fun e => sharedOf e.2.cells)).sum

/-- The item at or after the read pointer, first. -/
def Gutter.current (u : Gutter) : Option Item := u.items.find? (fun i => decide (u.rdItem ≤ i.num))

/-- UNREAD: readable items at or after the read pointer (R485). -/
def Gutter.unread (u : Gutter) : Nat := (u.items.filter (fun i => decide (u.rdItem ≤ i.num))).length

/-- The number of the oldest item held, or of the next appended where none is. -/
def Gutter.oldest (u : Gutter) : Nat :=
  match u.items with
  | [] => u.nextNum
  | i :: _ => i.num

/-- Spill is set and has not been stopped by an error (R483). -/
def Gutter.spilling (u : Gutter) : Bool := u.spill && !u.spStop

/-- The item that a drop takes: the oldest whose length word has not been read with payload still to read (R477). -/
def Gutter.dropChoice (u : Gutter) : Option Item :=
  u.items.find? (fun i => !(decide (u.current = some i) && decide (u.rdWord ≠ 0)))

/-- The item dropped and counted as lost; a mark on it moves to the oldest item still held, and the read pointer in it to the next item's length word (R477, R481). -/
def Gutter.dropItem (u : Gutter) (i : Item) : Gutter :=
  let r := { u with items := u.items.filter (fun j => decide (j.num ≠ i.num)), lost := u.lost + 1, rdWord := if u.current = some i then 0 else u.rdWord }
  if u.mark = some i.num then { r with mark := some r.oldest } else r

/-- `k` further cells fit in the gutter's reserve and the free shared cells, within LIMIT (R475, R477). -/
def Gutter.fits (u : Gutter) (free k : Nat) : Bool :=
  decide (u.cells + k ≤ u.limit) && decide (sharedOf (u.cells + k) ≤ sharedOf u.cells + free)

/-- Oldest items dropped one at a time until `k` cells fit; `free` counts the free shared cells beside this gutter's own, and `n` bounds
the drops by the items held (R477). -/
def Gutter.makeRoom (u : Gutter) (free k n : Nat) : Gutter :=
  match n with
  | 0 => u
  | m + 1 =>
    if u.fits free k then u
    else
      match u.dropChoice with
      | none => u
      | some i =>
        let r := u.dropItem i
        Gutter.makeRoom r (free + (sharedOf u.cells - sharedOf r.cells)) k m

/-- The length word of an item (R476). -/
def Item.lengthWord (i : Item) : Word := BitVec.ofNat 32 (4 * i.words.length + 65536 * (i.num % 65536))

/-- The words GUT_RDg returns of an item: its length word, then its payload. -/
def Item.stream (i : Item) : List Word := i.lengthWord :: i.words

/-- The word at the read pointer, and whether it is poisoned (R478). -/
def Gutter.peek (u : Gutter) : Option (Word × Bool) :=
  match u.current with
  | none => none
  | some i => some (i.stream.getD u.rdWord 0, i.poison.contains (u.rdWord / 2))

/-- The read pointer moved on by one word; past an item's last word it stands at the next item (R478). -/
def Gutter.advance (u : Gutter) : Gutter :=
  match u.current with
  | none => u
  | some i =>
    if u.rdWord + 1 < i.stream.length then { u with rdItem := i.num, rdWord := u.rdWord + 1 }
    else { u with rdItem := i.num + 1, rdWord := 0 }

/-- One read of GUT_RDg that finds a word: the response, the pointer moved, TMO cleared (R478, R482). -/
def Half.gutTake (x : Half) (g : Nat) : Half :=
  match (x.gutter g).peek with
  | none => x
  | some (w, p) =>
    { x.onGutter g (fun u => { u.advance with tmo := false }) with port := { ok := true, data := w.toNat, poison := p } }

/-- The stalled reads of a gutter that find a word complete, oldest first (R479). -/
def Half.gutUnstall (x : Half) (g n : Nat) : Half :=
  match n with
  | 0 => x
  | m + 1 =>
    if ((x.gutter g).peek).isSome then
      Half.gutUnstall ((x.gutTake g).onGutter g (fun u => { u with stalled := u.stalled - 1 })) g m
    else x

/-- Slots of a spill ring (R483). -/
def Gutter.ring (u : Gutter) : Nat := 2 ^ u.spSize

/-- The slot after those the items being spilled take. -/
def Gutter.spNext (u : Gutter) : Nat := (u.spWr + (u.spOut.map Prod.snd).sum) % u.ring

/-- Free slots of the ring, one slot always staying empty (R483). -/
def Gutter.spFree (u : Gutter) : Nat := u.ring - 1 - (u.spNext + u.ring - u.spRd % u.ring) % u.ring

/-- The oldest item not yet being spilled. -/
def Gutter.spPick (u : Gutter) : Option Item :=
  u.items.find? (fun i => !(u.spOut.any (fun o => decide (o.1 = i.num))))

/-- The bytes of an item as one little-endian number. -/
def Item.number (i : Item) : Nat := i.stream.foldr (fun w n => w.toNat + 2 ^ 32 * n) 0

/-- The ORDERED 32-byte writes that copy an item into consecutive slots, wrapping (R49, R483). -/
def spillWrites (g : Nat) (u : Gutter) (i : Item) : List MWrite :=
  (List.range i.cells).map (fun k =>
    { kind := .spill g, addr := u.spBase.toNat + 32 * ((u.spNext + k) % u.ring), len := 32,
      data := (i.number / 2 ^ (256 * k)) % 2 ^ 256, poison := BitVec.ofNat 64 (bitOf (i.poison.any (fun n => decide (n / 4 = k)))), ordered := true })

/-- Items copied to the spill ring while they fit; `n` bounds them by the items held (R483). -/
def Half.spill (x : Half) (g n : Nat) : Half :=
  match n with
  | 0 => x
  | m + 1 =>
    let u := x.gutter g
    match u.spPick with
    | none => x
    | some i =>
      if u.spilling && decide (i.cells ≤ u.spFree) then
        Half.spill
          { x.onGutter g (fun u => { u with spOut := u.spOut ++ [(i.num, i.cells)] }) with
            dma := x.dma.addWrites (spillWrites g u i) } g m
      else x

/-- An item appended to a gutter: room made by dropping oldest items, then stalled reads or the spill served (R476, R477, R479, R483). -/
def Half.append (v : Variant) (x : Half) (g : Nat) (words : List Word) : Half :=
  if decide (g < Config.gutters v) then
    let u := x.gutter g
    let i : Item := { num := u.nextNum, words := words, poison := [] }
    let r := u.makeRoom (x.gutFree v) i.cells u.items.length
    let y := x.onGutter g (fun _ => { r with items := r.items ++ [i], nextNum := u.nextNum + 1 })
    if u.spilling then y.spill g (r.items.length + 1) else y.gutUnstall g u.stalled
  else x

/-- A 16-byte notice appended to a gutter as four words. -/
def Half.notice (v : Variant) (x : Half) (g : Nat) (w0 w1 w2 w3 : Nat) : Half :=
  x.append v g [BitVec.ofNat 32 w0, BitVec.ofNat 32 w1, BitVec.ofNat 32 w2, BitVec.ofNat 32 w3]

/-- The edge source that goes with an event notice of KIND `k` (R507, R603). -/
def noticeSrc (k : Nat) : Option Nat :=
  match k with
  | 0x11 => some 99
  | 0x12 => some 95
  | 0x14 => some 98
  | 0x15 => some 97
  | 0x18 => some 94
  | 0x19 => some 93
  | _ => none

/-- An event notice (R484): KIND, DETAIL, the half in bit 9 of bytes 2-3, and bytes 4 to 15 as one number; its source is
raised whether or not GUT_EVT.EN lets the notice be appended. -/
def Block.event (b : Block) (h : HalfId) (kind detail : Nat) (rest : Nat) : Block :=
  let v := b.variant
  let b1 := b.onHalf h (fun x =>
    if x.gut.evtEn then
      x.notice v x.gut.evt (kind % 256 + 256 * (detail % 256) + 2 ^ 25 * h.code) (rest % 2 ^ 32)
        (rest / 2 ^ 32 % 2 ^ 32) (rest / 2 ^ 64 % 2 ^ 32)
    else x)
  match noticeSrc kind with
  | none => b1
  | some s => b1.raise h s

/-- Cause byte of a retirement-log entry and its notice (R385, R484): log 0x02 keeps the last 256 entries. -/
def Block.retireNotice (b : Block) (h : HalfId) (kind index cause : Nat) (restored : Bool) (word die : Nat) : Block :=
  let e : RetLog := { kind := kind, index := index, cause := cause, restored := restored, die := die,
                      seq := b.pair.nextSeq }
  let b1 := b.onHalf h (fun x => { x with retLog := (x.retLog ++ [e]).drop (x.retLog.length + 1 - 256) })
  b1.event h 0x18 kind (index % 65536 + 2 ^ 16 * (cause % 256) + 2 ^ 24 * bitOf restored + 2 ^ 32 * word +
    2 ^ 64 * (die % 8))

/-! ### Level sources (R507) -/

/-- Any of 32 queues from 32n in the error state (QUE_ERRSUMn, R332). -/
def anyError (t : Tab Queue) (n : Nat) : Bool :=
  t.any (fun e => decide (e.1 / 32 = n) && decide (e.2.state = .error))

/-- The raw condition of a level source (R507). -/
def Half.rawLevel (x : Half) (s : Nat) : Bool :=
  if s < 32 then
    let u := x.gutter s
    decide (u.wmark ≤ u.unread) || u.tmo
  else if s < 48 then (x.chan (s - 32)).dies.any (fun e => e.2.starved)
  else if s < 64 then (x.chan (s - 48)).alarm || (x.chan (s - 48)).padFail
  else if s < 80 then anyError x.que.queues (s - 64)
  else if s < 88 then x.loops.alarm.contains (s - 80)
  else if s = 90 then x.dma.lateErr
  else if s = 91 then x.arb.fired
  else if s = 92 then x.que.stray
  else if s = 96 then x.dec.refused
  else false

end Sys2Proof.Machine
end

