-- ==== Sys2Proof/Machine/Link.lean ====
section
/-!
DEFINITION. The guy link's sending side, the flysheet journal, and the record store's updates: what a change of mirrored state
calls (16, *The journal*; 17, *The guy link*; R32, R113, R117).
-/

namespace Sys2Proof

/-- A saturating step of an n-bit field of a record (R113). -/
def satBits {n : Nat} (x : BitVec n) (k : Nat) : BitVec n := BitVec.ofNat n (satAdd (2 ^ n - 1) x.toNat k)

/-- VALID lowered by `n`, at zero at the lowest (R113). -/
def Rec.lower (r : Rec) (n : Nat) : Rec := { r with valid := BitVec.ofNat 16 (r.valid.toNat - n) }

end Sys2Proof

namespace Sys2Proof.Machine

open Sys2Proof

/-- Both halves are in state attached: changes are mirrored and wait for the twin's acknowledgement (R575). -/
def Block.linked (b : Block) : Bool := b.ha.attached && b.hb.attached

/-- The half stands by: a standby half, also while an ATTACH brings its mirrors up to date (R574, R598, R599). -/
def Half.aside (x : Half) : Bool := decide (x.twn.st = .standby) || (decide (x.twn.st = .syncing) && x.twn.drives.isEmpty)

/-- The half with its twin registers changed. -/
def Half.onTwn (x : Half) (f : Twin → Twin) : Half := { x with twn := f x.twn }

/-- The half with its flysheet controller changed. -/
def Half.onFly (x : Half) (f : Fly → Fly) : Half := { x with fly := f x.fly }

/-- A message put behind those already sent, with the next 16-bit link number (R576). -/
def Twin.push (t : Twin) (m : Msg) : Twin :=
  { t with sent := t.sent ++ [(t.linkNum, m)], linkNum := (t.linkNum + 1) % 65536 }

/-- The message passes while its receiver is asleep (R538). -/
def Msg.passes (m : Msg) : Bool :=
  match m with
  | .sleep _ | .awake | .wake => true
  | _ => false

/-- A message sent to an attached twin; one sent to a twin announced in PS2 or deeper goes behind a WAKE (R540, R575, R579). -/
def Block.send (b : Block) (h : HalfId) (m : Msg) : Block :=
  if b.linked then
    b.onHalf h (fun x =>
      let asleep := decide (2 ≤ x.pwr.twinState) && decide (x.pwr.twinState ≤ 4)
      let waking := x.twn.sent.any (fun e => decide (e.2 = .wake))
      x.onTwn (fun t => if asleep && !waking && !m.passes then (t.push .wake).push m else t.push m))
  else b

/-- The next message of its twin that half `h` has not yet applied (R576, R577). -/
def Block.incoming (b : Block) (h : HalfId) : Option Msg :=
  let t := (b.half h.twin).twn
  (t.sent[t.applied]?).map Prod.snd

/-- The message half `h` has just applied: its twin's sender learns so by the acknowledgement (R577); the silence before it ends (R582). -/
def Block.accepted (b : Block) (h : HalfId) : Block :=
  (b.onHalf h.twin (fun x => x.onTwn (fun t => { t with applied := t.applied + 1, fails := 0 }))).onHalf h
    (fun x => x.onTwn (fun t => { t with late := 0 }))

/-- The link number of the last message a half sent: what a change waits for, where a twin is attached (R575). -/
def Block.ackOf (b : Block) (h : HalfId) : Option Nat :=
  if b.linked then ((b.half h).twn.sent.getLast?).map Prod.fst else none

/-- Bound dies of the channels a half drives. -/
def Half.boundDies (x : Half) : Nat :=
  (x.chans.map (fun e =>
    if x.drivesCh e.1 then (e.2.dies.filter (fun d => d.2.present && d.2.slot.isSome)).length else 0)).sum

/-- CAP: entries the own journal holds (R554). -/
def Half.journalCap (x : Half) : Nat := 384 * x.boundDies

/-- The entries of a journal record kept in the progress of the command it is for (R580). -/
def Ctx.noteChange (c : Ctx) (es : List JEntry) : Ctx :=
  { c with progress := { c.progress with images := c.progress.images ++ es } }

/-- The progress of command `seq`, where it has a context. -/
def Half.progress (x : Half) (seq : Option Nat) : Progress :=
  (seq.bind (fun q => (x.ctx? q).map Ctx.progress)).getD Progress.none

/-- The context of command `seq` changed, at whichever half holds it. -/
def Block.onCtx (b : Block) (seq : Nat) (f : Ctx → Ctx) : Block :=
  (b.onHalf .a (fun x => x.onCtx seq f)).onHalf .b (fun x => x.onCtx seq f)

/-- A context waits for message `n` of half `h`, the last it has sent: messages are acknowledged in their order (R577). -/
def Ctx.waitFor (c : Ctx) (h : HalfId) (n : Nat) : Ctx :=
  { c with waitAck := c.waitAck.filter (fun e => decide (e.1 ≠ h)) ++ [(h, n)] }

/-- The command of `seq` waits for the acknowledgement of the last message that half `h` sent, at whichever half its context is (R32, R579). -/
def Block.awaitLink (b : Block) (h : HalfId) (seq : Nat) : Block :=
  (b.ackOf h).elim b (fun n => b.onCtx seq (fun c => c.waitFor h n))

/-- The mirror context of a command whose own half is the twin takes the progress of the command itself: the half that makes a change in its own
partition for a command of its twin knows that progress at once (R580). -/
def Block.shareProgress (b : Block) (h : HalfId) (seq : Nat) : Block :=
  match (b.half h.twin).ctx? seq with
  | none => b
  | some c => b.onHalf h (fun x => { x with mir := { x.mir with
      ctxs := x.mir.ctxs.change seq (fun m => { m with progress := c.progress }) } })

/-- The entries of a change as one journal record: COUNT stands in its first entry (R553). -/
def asRecord (es : List JEntry) : List JEntry :=
  match es with
  | [] => []
  | e :: r => { e with count := es.length } :: r.map (fun k => { k with count := 0 })

/-- A journal record appended to the own journal and mirrored with the command's progress (R553, R579, R580). A drive seed that no twin acknowledges is made with it (R236). -/
def Block.appendJrnl (b : Block) (h : HalfId) (seq : Option Nat) (l : List JEntry) : Block :=
  let es := asRecord l
  let b1 := b.onHalf h (fun x => x.onFly (fun f => { f with journal := f.journal ++ es }))
  let b2 := match seq with
    | none => b1
    | some q => (b1.onCtx q (fun c => { c.noteChange es with waitJrnl := false })).shareProgress h q
  let b3 := if !b.linked && es.any JEntry.isSeed then b2.onHalf h (fun x => { x with dec := { x.dec with seedWait := false } }) else b2
  let b4 := b3.send h (.journal es (seq.getD 0) ((b3.half h).progress seq))
  seq.elim b4 (fun q => b4.awaitLink h q)

/-- A change journalled: appended where the journal has room and nothing waits, and otherwise kept waiting for a checkpoint, with
JRNL_STALL set and source 117 raised when the stall begins (R553, R555). -/
def Block.journal (b : Block) (h : HalfId) (seq : Option Nat) (es : List JEntry) : Block :=
  let x := b.half h
  if x.fly.waiting.isEmpty && decide (x.fly.journal.length + es.length ≤ x.journalCap) then b.appendJrnl h seq es
  else
    let b0 := b.onHalf h (fun x => x.onFly (fun f => { f with waiting := f.waiting ++ [(seq, es)], stall := true }))
    let b1 := match seq with
      | none => b0
      | some q => b0.onCtx q (fun c => { c with waitJrnl := true })
    if x.fly.stall then b1 else b1.raise h 117

/-- Waiting changes appended while the next of them fits; `n` bounds them by those that wait (R555). -/
def Block.drainJrnl (b : Block) (h : HalfId) (n : Nat) : Block :=
  match n with
  | 0 => b
  | m + 1 =>
    match (b.half h).fly.waiting with
    | [] => b.onHalf h (fun x => x.onFly (fun f => { f with stall := false }))
    | (seq, es) :: r =>
      if (b.half h).fly.journal.length + es.length ≤ (b.half h).journalCap then
        Block.drainJrnl ((b.onHalf h (fun x => x.onFly (fun f => { f with waiting := r }))).appendJrnl h seq es) h m
      else b

/-! ### Records -/

/-- The half with its record store changed. -/
def Half.onStore (x : Half) (f : Store → Store) : Half := { x with store := f x.store }

/-- A record of the half's own partition. -/
def Half.rec? (x : Half) (i : Nat) : Rec := Tab.get Rec.blank x.store.recs i

/-- A word of record `i` is poisoned, with no source left to repair it from (R468). -/
def Half.recLost (x : Half) (i : Nat) : Bool := x.store.poisoned.any (fun e => decide (e.1 = i))

/-- The half with a record of its own partition updated: the update merges into both words, so that a poisoned word stays poisoned (R117, R464). -/
def Half.setRec (x : Half) (i : Nat) (r : Rec) : Half :=
  x.onStore (fun s => { s with recs := Tab.set Rec.blank s.recs i r })

/-- The journal entry of a record's update: its image, the signed change of VALID, and the group (R553). -/
def recEntry (old new : Rec) (i group gseq : Nat) (freed : Bool) : JEntry :=
  { kind := .record i new, count := 0, vdelta := (new.valid.toNat : Int) - (old.valid.toNat : Int), freed := freed,
    group := group, gseq := gseq % 2 ^ 48, grew := new.wp.toNat - old.wp.toNat, old := false }

/-- A member's change of VALID kept with its open group, for the undo of R380. -/
def Pair.noteChange (p : Pair) (e : JEntry) (i : Nat) : Pair :=
  if e.gseq = 0 || (decide (e.vdelta = 0) && !e.freed) then p
  else { p with groups := p.groups.change e.group (fun g => { g with changes := g.changes ++ [(i, e.vdelta, e.freed)] }) }

/-- A record updated in the partition of half `h` that keeps it, journalled and mirrored (R32, R117, R553). `group` and `gseq` are the
command's, zero for none. -/
def Block.updRec (b : Block) (h : HalfId) (seq : Option Nat) (i group gseq : Nat) (freed : Bool) (f : Rec → Rec) :
    Block :=
  let old := (b.half h).rec? i
  let new := f old
  let e := recEntry old new i group gseq freed
  ((b.onPair (fun p => p.noteChange e i)).onHalf h (fun x => x.setRec i new)).journal h seq [e]

/-- UNDERFLOW set in the half that serves the record from its own partition (R113). -/
def Block.underflow (b : Block) (h : HalfId) (yes : Bool) : Block :=
  if yes then b.onHalf h (fun x => x.onStore (fun s => { s with underflow := true })) else b

/-- A grown-defect entry appended to the pair-wide table of at most 16,384 (R120, R121), journalled. The table is kept alike in
both halves' record stores. -/
def Block.addDefect (b : Block) (h : HalfId) (seq : Option Nat) (d : Defect) : Block :=
  if (b.half h).store.defects.length < 16384 then
    let add := fun (x : Half) => x.onStore (fun s => { s with defects := s.defects ++ [d] })
    ((b.onHalf .a add).onHalf .b add).journal h seq
      [{ kind := .defect d, count := 0, vdelta := 0, freed := false, group := 0, gseq := 0, grew := 0, old := false }]
  else b

end Sys2Proof.Machine
end

