-- ==== Sys2Proof/Machine/Operands.lean ====
section
/-!
DEFINITION. Operand forms: bit fields of entries, physical addresses, profiles and records; unit pages, rows and columns
(R99-R111, R149, R150, R310).
-/

namespace Sys2Proof

/-- Bits `lo` up of an n-bit field of a wide word. -/
def fieldOf {w : Nat} (x : BitVec w) (lo n : Nat) : Nat := x.toNat / 2 ^ lo % 2 ^ n

/-! ### Physical addresses (R99) -/

/-- The fields of a PADDR. -/
structure Addr where
  slot    : Nat
  page    : Nat
  block   : Nat
  plane   : Nat
  lun     : Nat
  target  : Nat
  channel : Nat
  deriving DecidableEq, Repr

/-- A PADDR read by the layout of R99. -/
def addrOf (p : Paddr) : Addr :=
  { slot := fieldOf p 0 2, page := fieldOf p 2 12, block := fieldOf p 14 12, plane := fieldOf p 26 3,
    lun := fieldOf p 29 2, target := fieldOf p 31 2, channel := fieldOf p 33 4 }

/-- The PADDR of given fields (R99). -/
def Addr.word (a : Addr) : Paddr :=
  BitVec.ofNat 64 (at' a.slot 0 2 + at' a.page 2 12 + at' a.block 14 12 + at' a.plane 26 3 + at' a.lun 29 2 +
    at' a.target 31 2 + at' a.channel 33 4)

/-! ### Profiles (R105) -/

/-- Byte `i` of a profile. -/
def Profile.byte (p : Profile) (i : Nat) : Nat := fieldOf p (8 * i) 8
/-- Bytes `i` and `i + 1`. -/
def Profile.half (p : Profile) (i : Nat) : Nat := fieldOf p (8 * i) 16
/-- Bytes `i` to `i + 3`. -/
def Profile.word (p : Profile) (i : Nat) : Nat := fieldOf p (8 * i) 32
/-- CELL: bits per cell. -/
def Profile.cell (p : Profile) : Nat := fieldOf p 40 3
/-- PARITY: true for 352-byte parity. -/
def Profile.parity352 (p : Profile) : Bool := decide (fieldOf p 43 1 = 1)
/-- ADDR_MODE: true for volume mode. -/
def Profile.volume (p : Profile) : Bool := decide (fieldOf p 44 1 = 1)
/-- PLANES. -/
def Profile.planes (p : Profile) : Nat := p.byte 6
/-- LPT. -/
def Profile.lpt (p : Profile) : Nat := p.byte 7
/-- BLOCKS. -/
def Profile.blocks (p : Profile) : Nat := p.half 8
/-- PAGES. -/
def Profile.pages (p : Profile) : Nat := p.half 10
/-- PAGES_SLC. -/
def Profile.pagesSlc (p : Profile) : Nat := p.half 12
/-- SPARE. -/
def Profile.spare (p : Profile) : Nat := p.half 14
/-- IFACE: 0 NV-LPDDR4, 1 Toggle DDR. -/
def Profile.iface (p : Profile) : Nat := p.byte 16
/-- RATE. -/
def Profile.rate (p : Profile) : Nat := p.byte 17
/-- FAIL_LIMIT. -/
def Profile.failLimit (p : Profile) : Nat := p.byte 20
/-- Blocks of one plane that form a unit: g of R109. -/
def Profile.g (p : Profile) : Nat := if 2048 < p.blocks then 2 else 1
/-- Units of a die (R109). -/
def Profile.units (p : Profile) : Nat := p.blocks / p.g
/-- Pages of a block in the unit's mode. -/
def Profile.pageCount (p : Profile) (slc : Bool) : Nat := if slc then p.pagesSlc else p.pages
/-- C: unit pages of a unit in its mode (R110). -/
def Profile.capacity (p : Profile) (slc : Bool) : Nat := p.g * p.pageCount slc * p.planes
/-- W: bytes of a codeword on the pins (R149). -/
def Profile.cwBytes (p : Profile) : Nat := if p.parity352 then 4480 else 4608
/-- Retry entry of step `k`, 0 being NOMINAL, as its 16 bytes (R105). -/
def Profile.retry (p : Profile) (k : Nat) : Nat := fieldOf p (8 * (80 + 16 * k)) 128

/-- Reserved bytes and bits of a profile that are not zero (R106). -/
def Profile.reservedSet (p : Profile) : Bool :=
  decide (fieldOf p (8 * 21) 24 ≠ 0) || decide (fieldOf p (8 * 60) 32 ≠ 0) || decide (fieldOf p (8 * 448) 480 ≠ 0) ||
    decide (fieldOf p 45 3 ≠ 0) || (List.range 18).any (fun k => decide (fieldOf p (8 * (80 + 16 * k + 10)) 48 ≠ 0))

/-- Every field of a profile inside its range (R105, R142). -/
def Profile.inRange (p : Profile) : Bool :=
  decide (1 ≤ p.cell) && decide (p.cell ≤ 4) && decide (p.planes ∈ [1, 2, 4, 8]) && decide (p.lpt ∈ [1, 2, 4]) &&
    (!p.volume || decide (p.lpt = 2)) && decide (1 ≤ p.blocks) && decide (p.blocks ≤ 4096) && decide (1 ≤ p.pages) &&
    decide (p.pages ≤ 4096) && decide (1 ≤ p.pagesSlc) && decide (p.pagesSlc ≤ 4096) && decide (p.iface ≤ 1) &&
    decide (1 ≤ p.rate) && decide (p.rate ≤ (if p.iface = 0 then 12 else 9)) && decide (1 ≤ p.failLimit)

/-- One bit of the reflected CRC-32 division (IEEE 802.3). -/
def crcBit (c : BitVec 32) : BitVec 32 := if c.getLsbD 0 then (c >>> 1) ^^^ 0xEDB88320 else c >>> 1

/-- One byte of CRC-32. -/
def crcByte (c : BitVec 32) (x : Nat) : BitVec 32 :=
  (List.range 8).foldl (fun a _ => crcBit a) (c ^^^ BitVec.ofNat 32 (x % 256))

/-- CRC-32 (IEEE 802.3) of the first `n` bytes of a number, least significant byte first. -/
def crc32 (x n : Nat) : BitVec 32 :=
  ~~~ ((List.range n).foldl (fun a i => crcByte a (x / 2 ^ (8 * i))) 0xFFFFFFFF)

/-- A profile R106 refuses: the CRC, VERSION, a range, SPARE, a reserved bit, or more than 65,535 unit pages. -/
def Profile.invalid (p : Profile) : Bool :=
  decide (crc32 p.toNat 508 ≠ BitVec.ofNat 32 (p.word 508)) || decide (p.byte 4 ≠ 1) || !p.inRange ||
    decide (p.spare ≠ (if p.parity352 then 1536 else 2048)) || p.reservedSet ||
    decide (65535 < p.g * p.pages * p.planes)

/-- Bytes 5 to 17 agree (R107). -/
def Profile.sameGeometry (p q : Profile) : Bool := decide (fieldOf p 40 104 = fieldOf q 40 104)

/-- The agreement R108 asks of the dies of one channel: IFACE, ADDR_MODE, LPT and RATE. -/
def Profile.agrees (p q : Profile) : Bool :=
  decide (p.iface = q.iface) && decide (p.volume = q.volume) && decide (p.lpt = q.lpt) && decide (p.rate = q.rate)

/-! ### Dies, units and unit pages -/

/-- The die index of an address (R101). -/
def Addr.die (a : Addr) (p : Profile) : Nat :=
  if p.volume then 2 * a.target + a.lun % 2 else a.target * p.lpt + a.lun

/-- TARGET and LUN of die `d` (R101). -/
def dieTarget (p : Profile) (d : Nat) : Nat × Nat :=
  if p.volume then (d / 2, d % 2) else (d / p.lpt, d % p.lpt)

/-- The record index of unit `u` of die `d` on channel `c` (R103). -/
def recIndex (c d u : Nat) : Nat := c * 16384 + d * 2048 + u
/-- Channel of a record index. -/
def recCh (i : Nat) : Nat := i / 16384
/-- Die of a record index. -/
def recDie (i : Nat) : Nat := i % 16384 / 2048
/-- Unit of a record index. -/
def recUnit (i : Nat) : Nat := i % 2048

/-- The unit page of an address in a unit of the given mode: the second conversion of R110. -/
def Addr.unitPage (a : Addr) (p : Profile) (slc : Bool) : Nat :=
  (a.block - a.block / p.g * p.g) * (p.pageCount slc * p.planes) + a.page * p.planes + a.plane

/-- The address of slot `s` of unit page `n` of record `i`: the first conversion of R110. -/
def pageAddr (p : Profile) (slc : Bool) (i n s : Nat) : Addr :=
  let span := p.pageCount slc * p.planes
  let t := dieTarget p (recDie i)
  { slot := s, page := n % span / p.planes, block := recUnit i * p.g + n / span, plane := n % p.planes,
    lun := t.2, target := t.1, channel := recCh i }

/-- Ceiling of the base-2 logarithm. -/
def clog2 (n : Nat) : Nat := if n ≤ 1 then 0 else (n - 1).log2 + 1

/-- The row address of R150. -/
def rowAddr (p : Profile) (a : Addr) : Nat :=
  let pb := clog2 p.pages
  let kb := clog2 (p.blocks * p.planes)
  let row := a.page + (a.block * p.planes + a.plane) * 2 ^ pb
  if p.volume then row else row + a.lun * 2 ^ (pb + kb)

/-- The number of row cycles (R150). -/
def rowCycles (p : Profile) : Nat :=
  let lb := if p.volume then 0 else clog2 p.lpt
  if clog2 p.pages + clog2 (p.blocks * p.planes) + lb ≤ 24 then 3 else 4

/-- The `n` low bytes of a number, low byte first. -/
def lowBytes (x n : Nat) : List Byte := (List.range n).map (fun i => BitVec.ofNat 8 (x / 2 ^ (8 * i)))

/-! ### Records as bytes (R111) -/

/-- STATE codes (R112). -/
def UnitState.code : UnitState → Nat
  | .free => 0 | .erasing => 1 | .erased => 2 | .opened => 3 | .full => 4 | .retired => 5 | .region => 6

/-- STATE of a code; 0b111 is never stored, and reads as retired so that no operation touches such a unit. -/
def UnitState.ofCode (n : Nat) : UnitState :=
  match n with
  | 0 => .free | 1 => .erasing | 2 => .erased | 3 => .opened | 4 => .full | 5 => .retired | 6 => .region
  | _ => .retired

/-- STRIPE_ROLE codes. -/
def Role.code : Role → Nat
  | .none => 0 | .data => 1 | .p => 2 | .q => 3

/-- STRIPE_ROLE of a code. -/
def Role.ofCode (n : Nat) : Role :=
  match n % 4 with
  | 0 => .none | 1 => .data | 2 => .p | _ => .q

/-- KIND codes of a region (R127). -/
def kindCode : RgnKind → Nat
  | .empty => 0 | .code => 1 | .ucode => 2

/-- STATE codes of a region (R127). -/
def rgnCode : RgnState → Nat
  | .unused => 0 | .opened => 1 | .closed => 2

/-- The 16 bytes of a record (R111). -/
def Rec.bytes (r : Rec) : BitVec 128 :=
  BitVec.ofNat 128 (at' r.state.code 0 3 + at' (bitOf r.grownBad) 3 1 + at' (bitOf r.slc) 4 1 + at' (bitOf r.nru) 5 1 +
    at' (bitOf r.fly) 6 1 + at' r.tension.toNat 8 4 + at' r.age.toNat 12 3 + at' (bitOf r.rgnOwn) 15 1 +
    at' r.zone.toNat 16 4 + at' r.region.toNat 20 4 + at' r.suspCnt.toNat 24 8 + at' r.wp.toNat 32 16 +
    at' r.valid.toNat 48 16 + at' r.eraseCnt.toNat 64 24 + at' r.voidCnt.toNat 88 4 + at' r.role.code 92 2 +
    at' r.next.toNat 96 18 + at' r.failCnt.toNat 120 8)

/-- What an erase that passed makes of a record (R114). -/
def Rec.erasedOk (r : Rec) : Rec :=
  { r with state := .erased, wp := 0, valid := 0, tension := 0, age := 0, nru := false, voidCnt := 0, role := .none, next := 0
           eraseCnt := satBits r.eraseCnt 1 }

/-- What an erase that failed makes of a record (R114). -/
def Rec.eraseFailed (r : Rec) (limit : Nat) : Rec :=
  { r with grownBad := true, failCnt := satBits r.failCnt 1
           state := if (satBits r.failCnt 1).toNat < limit then .free else .retired }

/-! ### Samples of a unit (R375) -/

/-- Unit pages sampled of `cap` at a stride: its multiples below `cap`, and the last page. -/
def samplePages (cap stride : Nat) : List Nat :=
  let l := (List.range cap).filter (fun p => decide (p % stride = 0))
  if l.contains (cap - 1) then l else l ++ [cap - 1]

/-- What a sample shows (R375). -/
inductive Sample where
  | erased | programmed | odd
  deriving DecidableEq, Repr

/-- The class of a sample by its count of zero bits. -/
def sampleOf (erasedMax : Nat) (parity352 : Bool) (zeros : Nat) : Sample :=
  if zeros ≤ erasedMax then .erased
  else if (if parity352 then 14336 ≤ zeros ∧ zeros ≤ 21504 else 14746 ≤ zeros ∧ zeros ≤ 22118) then .programmed
  else .odd

/-- CLASS: 0 clean, 1 programmed, 2 partial (R375). -/
def classOf (l : List Sample) : Nat :=
  if l.all (fun s => decide (s = .erased)) then 0
  else if (l.dropWhile (fun s => decide (s = .programmed))).all (fun s => decide (s = .erased)) then 1
  else 2

/-- The record 16 bytes spell (R111). -/
def recOfBytes (x : BitVec 128) : Rec :=
  { state := UnitState.ofCode (fieldOf x 0 3), grownBad := x.getLsbD 3, slc := x.getLsbD 4, nru := x.getLsbD 5,
    fly := x.getLsbD 6, tension := BitVec.ofNat 4 (fieldOf x 8 4), age := BitVec.ofNat 3 (fieldOf x 12 3),
    rgnOwn := x.getLsbD 15, zone := BitVec.ofNat 4 (fieldOf x 16 4), region := BitVec.ofNat 4 (fieldOf x 20 4),
    suspCnt := BitVec.ofNat 8 (fieldOf x 24 8), wp := BitVec.ofNat 16 (fieldOf x 32 16),
    valid := BitVec.ofNat 16 (fieldOf x 48 16), eraseCnt := BitVec.ofNat 24 (fieldOf x 64 24),
    voidCnt := BitVec.ofNat 4 (fieldOf x 88 4), role := Role.ofCode (fieldOf x 92 2),
    next := BitVec.ofNat 18 (fieldOf x 96 18), failCnt := BitVec.ofNat 8 (fieldOf x 120 8) }

end Sys2Proof

namespace Sys2Proof.Machine

open Sys2Proof

/-- The row cycles of an address (R150). -/
def rowBytes (p : Profile) (a : Addr) : List Cycle := (lowBytes (rowAddr p a) (rowCycles p)).map Cycle.addr

/-- The column cycles of codeword slot `s` (R149). -/
def colBytes (p : Profile) (s : Nat) : List Cycle := (lowBytes (s * p.cwBytes) 2).map Cycle.addr

/-! ### Profiles of dies -/

/-- The profile bound to die `d` of channel `c` at a half (R104). Slots from 16 are mirrored slots of the twin's, taken with a channel it drove. -/
def Half.profile? (x : Half) (c d : Nat) : Option Profile :=
  match (x.die c d).slot with
  | none => none
  | some s => if s < 16 then some (Tab.get 0 x.store.profiles s) else some (Tab.get 0 x.store.adoptedProfiles (s - 16))

/-- The profile of a channel's dies as addressing uses it: all agree in ADDR_MODE and LPT (R108). -/
def Half.chanProfile? (x : Half) (c : Nat) : Option Profile :=
  (List.find? (fun e => e.2.present && e.2.slot.isSome) (x.chan c).dies).bind (fun e => x.profile? c e.1)

/-- Die index, unit and unit page of a PADDR, where R102 lets it name a codeword: bits [63:37] zero, a populated channel, the die, every field
below its limit, and a block of a unit. `dies` is GEN_STRAP.DIES + 1. -/
def Half.resolve (x : Half) (dies : Nat) (p : Paddr) (slcOf : Nat → Bool) : Option (Nat × Nat) :=
  let a := addrOf p
  match x.chanProfile? a.channel with
  | none => none
  | some q =>
    let d := a.die q
    match x.profile? a.channel d with
    | none => none
    | some f =>
      let i := recIndex a.channel d (a.block / f.g)
      if decide (fieldOf p 37 27 = 0) && decide (d < dies) && decide (d < 8) && decide (a.lun < (if f.volume then 2 else f.lpt)) &&
          decide (a.plane < f.planes) && decide (a.block < f.blocks) && decide (a.block / f.g < f.units) &&
          decide (a.page < f.pageCount (slcOf i)) then
        some (i, a.unitPage f (slcOf i))
      else none

/-! ### Straps (R89, R92) -/

/-- POP_MASK of a strap value. -/
def popMask (w : BitVec 16) : Nat := fieldOf w 0 8
/-- BOOT_CH. -/
def bootCh (w : BitVec 16) : Nat := fieldOf w 11 2
/-- GROUNDSHEET. -/
def groundsheet (w : BitVec 16) : Bool := w.getLsbD 13
/-- TWIN_SIDE: true for sole. -/
def soleSide (w : BitVec 16) : Bool := w.getLsbD 15
/-- GEN_STRAP.DIES + 1. -/
def strapDies (w : BitVec 16) : Nat := fieldOf w 8 3 + 1

/-- A strap fault (R90). -/
def strapFault (v : Variant) (w : BitVec 16) : Bool :=
  decide (popMask w = 0) || !w.getLsbD (bootCh w) || (decide (v = .brx4T) && decide (2 ≤ bootCh w))

/-- Populated home channels of half `h` under straps `w`, as pair channels. -/
def populated (v : Variant) (h : HalfId) (w : BitVec 16) : List Nat :=
  (Config.homeChannels v h).filter (fun c => w.getLsbD (c % 8))

/-- The SLC flag of a record. -/
def Half.slcOf (x : Half) (i : Nat) : Bool := (x.rec? i).slc

end Sys2Proof.Machine
end

