-- ==== Sys2Proof/Machine/Payload.lean ====
section
/-!
DEFINITION. Payloads: the randomiser, the field GF(2^8) of stripe parity, the pad payload and reconstruction (R196, R233, R234,
R279, R290).
-/

namespace Sys2Proof.Machine

open Sys2Proof

/-! ### Payloads as numbers (R228) -/

/-- The payload of zeros. -/
def zeroPayload : Payload := { user := 0, mdat := 0 }

/-- The pad payload: user bytes 0x00, metadata bytes 0xFF (R196). -/
def padPayload : Payload := { user := 0, mdat := BitVec.allOnes 256 }

/-- An erased codeword's delivery: every byte 0xFF (R238). -/
def erasedPayload : Payload := { user := BitVec.allOnes 32768, mdat := BitVec.allOnes 256 }

/-- A pad page: the pad payload in every slot (R196). -/
def padSlots : List Payload := [padPayload, padPayload, padPayload, padPayload]

/-- The payload bits of a codeword, user bytes first (R228). -/
def payloadBits (p : Payload) : BitVec 33024 := BitVec.ofNat 33024 (p.user.toNat + 2 ^ 32768 * p.mdat.toNat)

/-- The payload that 33,024 bits spell. -/
def payloadOf (x : BitVec 33024) : Payload :=
  { user := BitVec.ofNat 32768 x.toNat, mdat := BitVec.ofNat 256 (x.toNat / 2 ^ 32768) }

/-- Bytewise exclusive or of two payloads. -/
def xorPayload (p q : Payload) : Payload := { user := p.user ^^^ q.user, mdat := p.mdat ^^^ q.mdat }

/-! ### Randomiser (R233, R234) -/

/-- One step of the keystream's 31-bit LFSR: the state after, and the bit (R233). -/
def keyStep (s : BitVec 31) : BitVec 31 × Bool :=
  let fb := s.getLsbD 30 ^^ s.getLsbD 27
  ((s <<< 1) ||| BitVec.ofNat 31 (bitOf fb), fb)

/-- The keystream of a seed as a number, its bit i being k(i); `n` bits from bit `i` on (R233). -/
def keyBits (s : BitVec 31) (i n : Nat) : Nat :=
  match n with
  | 0 => 0
  | m + 1 => bitOf (keyStep s).2 * 2 ^ i + keyBits (keyStep s).1 (i + 1) m

/-- The seed of a codeword from its PADDR; `drive` is zero for region and flysheet units (R234). -/
def seedOf (drive : BitVec 31) (p : Paddr) : BitVec 31 :=
  let s := drive ^^^ BitVec.ofNat 31 (fieldOf p 0 31) ^^^ BitVec.ofNat 31 (fieldOf p 31 6 * 2 ^ 25)
  if s = 0 then 0x40000000 else s

/-- A payload randomised or descrambled for its address (R233, R235). -/
def scramble (drive : BitVec 31) (p : Paddr) (x : BitVec 33024) : BitVec 33024 :=
  x ^^^ BitVec.ofNat 33024 (keyBits (seedOf drive p) 0 33024)

/-- Raw 0 bits among the `w` bytes of a codeword (R237). -/
def zeroBits (raw : BitVec 36864) (w : Nat) : Nat := ((List.range (8 * w)).filter (fun i => !raw.getLsbD i)).length

/-! ### GF(2^8) over whole payloads (R279) -/

/-- A byte repeated over `n` bits. -/
def repByte (n v : Nat) : BitVec n := BitVec.ofNat n (v * ((2 ^ n - 1) / 255))

/-- Every byte multiplied by g = 0x02 modulo 0x11D. -/
def gfTwice {n : Nat} (x : BitVec n) : BitVec n :=
  ((x &&& repByte n 0x7F) <<< 1) ^^^ (((x >>> 7) &&& repByte n 0x01) * BitVec.ofNat n 0x1D)

/-- Every byte multiplied by the byte `c`. -/
def gfScale {n : Nat} (c : BitVec 8) (x : BitVec n) : BitVec n :=
  ((List.range 8).foldl (fun (a : BitVec n × BitVec n) i =>
    (if c.getLsbD i then a.1 ^^^ a.2 else a.1, gfTwice a.2)) (0, x)).1

/-- g to the power `i`. -/
def gfPow (i : Nat) : BitVec 8 := (List.range i).foldl (fun a _ => gfTwice a) (1 : BitVec 8)

/-- The inverse of a byte other than zero: its 254th power. -/
def gfInv (c : BitVec 8) : BitVec 8 := (List.range 254).foldl (fun a _ => gfScale c a) (1 : BitVec 8)

/-- A payload multiplied by a byte. -/
def scalePayload (c : BitVec 8) (p : Payload) : Payload := { user := gfScale c p.user, mdat := gfScale c p.mdat }

/-- P of data payloads in position order (R279). -/
def parityP (l : List Payload) : Payload := l.foldl xorPayload zeroPayload

/-- Q of data payloads, the first of which stands at position `i` (R279). -/
def parityQ (i : Nat) (l : List Payload) : Payload :=
  match l with
  | [] => zeroPayload
  | d :: r => xorPayload (scalePayload (gfPow i) d) (parityQ (i + 1) r)

/-! ### Reconstruction (R290) -/

/-- The payload at a position, zero where it is not available. -/
def payloadAt (l : List (Nat × Payload)) (i : Nat) : Payload :=
  match l.find? (fun e => decide (e.1 = i)) with
  | none => zeroPayload
  | some e => e.2

/-- A position is available. -/
def hasPos (l : List (Nat × Payload)) (i : Nat) : Bool := l.any (fun e => decide (e.1 = i))

/-- The `k` data payloads of a row from what is available, where R290 has a case: positions `k` and `k + 1` are P and Q. -/
def rowData (k : Nat) (l : List (Nat × Payload)) : Option (List Payload) :=
  let have' := (List.range k).map (payloadAt l)
  let p := xorPayload (payloadAt l k) (parityP have')
  let q := xorPayload (payloadAt l (k + 1)) (parityQ 0 have')
  match (List.range k).filter (fun i => !hasPos l i) with
  | [] => some have'
  | [x] =>
    if hasPos l k then some (have'.set x p)
    else if hasPos l (k + 1) then some (have'.set x (scalePayload (gfInv (gfPow x)) q))
    else none
  | [x, y] =>
    if hasPos l k && hasPos l (k + 1) then
      let dy := scalePayload (gfInv (gfPow x ^^^ gfPow y)) (xorPayload q (scalePayload (gfPow x) p))
      some ((have'.set y dy).set x (xorPayload p dy))
    else none
  | _ => none

/-- The payload of the member at position `t` of a row of `k` data members, rebuilt from the payloads available (R290). -/
def rebuildAt (k t : Nat) (l : List (Nat × Payload)) : Option Payload :=
  (rowData k (l.filter (fun e => decide (e.1 ≠ t)))).map (fun ds =>
    if t < k then ds.getD t zeroPayload else if t = k then parityP ds else parityQ 0 ds)

end Sys2Proof.Machine
end

