-- ==== Sys2Proof/Machine/FlyBytes.lean ====
section
/-!
DEFINITION. The flysheet record as it stands in flash: journal entries, the header, journal and seal pages, and the record read back from pages (R553, R562,
R563, R566, R567).
-/

namespace Sys2Proof

open Machine

/-! ### Bytes -/

/-- Bits `lo` to `lo + n - 1` of a number. -/
def bitsAt (x lo n : Nat) : Nat := x / 2 ^ lo % 2 ^ n

/-- `n` bytes of a number from byte `i` on. -/
def bytesAt (x i n : Nat) : Nat := bitsAt x (8 * i) (8 * n)

/-- A value of `n` bytes placed at byte `i`. -/
def putBytes (i v n : Nat) : Nat := at' v (8 * i) (8 * n)

/-- Numbers of `n` bytes each, placed one after another from byte `i` on. -/
def putTable (i n : Nat) (l : List Nat) : Nat := l.foldr (fun v a => v % 2 ^ (8 * n) + 2 ^ (8 * n) * a) 0 * 2 ^ (8 * i)

/-! ### Journal entries (R553) -/

/-- A region descriptor as the IMAGE of a journal entry. R553 gives IMAGE 16 bytes and R127 the descriptor's fields in five words: they stand packed, in their order (PRESUMED, log
entry 112). -/
def RgnDesc.packed (d : RgnDesc) : Nat :=
  at' (kindCode d.kind) 0 2 + at' (rgnCode d.state) 2 2 + at' d.size 4 13 + at' d.copy0 17 18 + at' d.copy1 35 18 + at' d.commitSeq.toNat 53 32 + at' d.imageCrc.toNat 85 32

/-- The region descriptor that 16 bytes spell. -/
def rgnOfPacked (x : Nat) : RgnDesc :=
  { kind := if bitsAt x 0 2 = 1 then .code else if bitsAt x 0 2 = 2 then .ucode else .empty,
    state := if bitsAt x 2 2 = 1 then .opened else if bitsAt x 2 2 = 2 then .closed else .unused, size := bitsAt x 4 13, copy0 := bitsAt x 17 18, copy1 := bitsAt x 35 18,
    commitSeq := BitVec.ofNat 32 (bitsAt x 53 32), imageCrc := BitVec.ofNat 32 (bitsAt x 85 32) }

/-- A stripe slot as the IMAGE of a journal entry: its first parity member, from which STRIPE_NEXT leads round the ring (R275), PQ, WINDOW, the low row, the parity row and the
absent members by position. A free slot is all zeros (PRESUMED, log entry 112). -/
def Stripe.packed (s : Stripe) : Nat :=
  1 + at' (bitOf s.pq) 1 1 + at' s.window 2 5 + at' (s.ring.getD (s.ring.length - (if s.pq then 2 else 1)) 0) 8 18 + at' s.lowRow 32 16 + at' s.parityRow 48 16 +
    at' ((s.absent.map (fun k => 2 ^ k)).sum) 64 8

/-- The stripe slot that 16 bytes spell, its ring holding the first parity member alone. -/
def stripeOfPacked (x : Nat) : Option Stripe :=
  if bitsAt x 0 1 = 0 then none
  else some { pq := decide (bitsAt x 1 1 = 1), ring := [bitsAt x 8 18], window := bitsAt x 2 5, lowRow := bitsAt x 32 16, parityRow := bitsAt x 48 16
              absent := (List.range 8).filter (fun k => decide (bitsAt x (64 + k) 1 = 1)) }

/-- The members that follow record index `i` round a ring, as STRIPE_NEXT names them, until `stop` comes again. -/
def ringFrom (recs : Tab Rec) (n stop i : Nat) : List Nat :=
  match n with
  | 0 => []
  | m + 1 => if i = stop then [] else i :: ringFrom recs m stop (Tab.get Rec.blank recs i).next.toNat

/-- A stripe read from a journal with its whole ring: D0 on, then P, then Q (R275). -/
def Stripe.withRing (s : Stripe) (recs : Tab Rec) : Stripe :=
  match s.ring with
  | [p] =>
    let after := ringFrom recs 8 p (Tab.get Rec.blank recs p).next.toNat
    { s with ring := if s.pq then after.drop 1 ++ p :: after.take 1 else after ++ [p] }
  | _ => s

/-- A grown-defect entry's 8 bytes (R120). -/
def Defect.packed (d : Defect) : Nat := putBytes 0 (d.index % 2 ^ 18) 3 + putBytes 3 d.cause 1 + putBytes 4 d.eraseCnt.toNat 3

/-- The grown-defect entry that 8 bytes spell (R120). -/
def defectOf (x : Nat) : Defect := { index := bitsAt x 0 18, cause := bytesAt x 3 1, eraseCnt := BitVec.ofNat 24 (bytesAt x 4 3) }

/-- KIND, INDEX, CLOSE and IMAGE of a journal entry (R553). A drive seed's IMAGE holds the seed and the sequence number from which it stands (PRESUMED, log entry 112). -/
def JKind.fields (k : JKind) : Nat × Nat × Nat × Nat :=
  match k with
  | .record i r => (1, i, 0, r.bytes.toNat)
  | .region n d => (2, n, 0, d.packed)
  | .seed v since => (3, 0, 0, at' v.toNat 0 31 + at' since 32 64)
  | .close isVoid => (4, 0, bitOf isVoid, 0)
  | .stripe n s => (5, n, 0, s.elim 0 Stripe.packed)
  | .defect d => (6, 0, 0, d.packed)

/-- A journal entry's 32 bytes (R553). -/
def JEntry.packed (e : JEntry) : Nat :=
  let f := e.kind.fields
  putBytes 0 f.1 1 + putBytes 1 e.count 1 + putBytes 2 (f.2.1 % 2 ^ 18) 3 + putBytes 5 (e.vdelta % 65536).toNat 2 + putBytes 7 f.2.2.1 1 + putBytes 8 f.2.2.2 16 +
    putBytes 24 (e.group % 2 ^ 12) 2 + putBytes 26 e.gseq 6

/-- The kind of entry that KIND, INDEX, CLOSE and IMAGE spell, none for another KIND (R553). -/
def jkindOf (kind index close image : Nat) : Option JKind :=
  match kind with
  | 1 => some (.record index (recOfBytes (BitVec.ofNat 128 image)))
  | 2 => some (.region index (rgnOfPacked image))
  | 3 => some (.seed (BitVec.ofNat 31 image) (bitsAt image 32 64))
  | 4 => some (.close (decide (close % 2 = 1)))
  | 5 => some (.stripe index (stripeOfPacked image))
  | 6 => some (.defect (defectOf image))
  | _ => none

/-- A change of VALID as 16 bits of two's complement spell it (R553). -/
def signed16 (x : Nat) : Int := if x < 32768 then x else (x : Int) - 65536

/-- The update took its unit from full to free: a member INVALIDATE's does, which lowers VALID and leaves the unit free (R373, R559). -/
def leftFree (k : JKind) (vdelta : Int) : Bool :=
  match k with
  | .record _ r => decide (vdelta < 0) && decide (r.state = .free)
  | _ => false

/-- The journal entry that 32 bytes spell (R553). -/
def jentryOf (x : Nat) : Option JEntry :=
  (jkindOf (bytesAt x 0 1) (bitsAt x 16 18) (bytesAt x 7 1) (bytesAt x 8 16)).map (fun k =>
    let v := signed16 (bytesAt x 5 2)
    { kind := k, count := bytesAt x 1 1, vdelta := v, freed := leftFree k v, group := bitsAt x 192 12, gseq := bytesAt x 26 6, grew := 0, old := false })

/-- The entries of the journal records that are whole: `n` bounds the records (R553, R567 step 4). -/
def wholeRecords (n : Nat) (l : List JEntry) : List JEntry :=
  match n, l with
  | 0, _ => []
  | _, [] => []
  | m + 1, e :: r =>
    let body := r.takeWhile (fun k => decide (k.count = 0))
    (if e.count = body.length + 1 then e :: body else []) ++ wholeRecords m (r.drop body.length)

end Sys2Proof

namespace Sys2Proof.Machine

open Sys2Proof

/-! ### Pages (R562, R566) -/

/-- A page of 16,384 user bytes with codeword 0's metadata; the other codewords' metadata are zero (PRESUMED, log entry 112). -/
def flyPage (user mdat : Nat) : List Payload :=
  (List.range 4).map (fun s => { user := BitVec.ofNat 32768 (user / 2 ^ (32768 * s)), mdat := if s = 0 then BitVec.ofNat 256 mdat else 0 })

/-- The user bytes of a page as one number. -/
def pageUser (l : List Payload) : Nat := l.foldr (fun p a => p.user.toNat + 2 ^ 32768 * a) 0

/-- Codeword 0's metadata of a page. -/
def pageMeta (l : List Payload) : Nat := (l.headD zeroPayload).mdat.toNat

/-- The CRC-32 (IEEE 802.3) of the user bytes of pages, in order (R566). -/
def crcPages (l : List (List Payload)) : BitVec 32 :=
  ~~~ (l.foldl (fun a p =>
    let u := pageUser p
    (List.range 16384).foldl (fun c i => crcByte c (u / 2 ^ (8 * i))) a) 0xFFFFFFFF)

/-- What the header page states of the half and its units (R566). -/
structure FlyHeader where
  half    : HalfId
  flags   : Nat
  seq     : BitVec 32
  holdup  : Nat
  ownN    : Nat
  mirrorN : Nat
  tHdr    : BitVec 32
  openTab : List (Nat × Nat × Nat)
  erasing : List (Nat × Bool)
  groups  : List (Nat × Nat × Nat × Nat × Bool)
  defects : List Defect
  deriving DecidableEq, Repr

/-- The header page's user bytes, every unlisted byte zero (R566). -/
def FlyHeader.user (f : FlyHeader) : Nat :=
  putBytes 0 0x53594C46 4 + putBytes 4 1 1 + putBytes 5 f.half.code 1 + putBytes 6 f.flags 1 + putBytes 8 f.seq.toNat 4 + putBytes 12 f.holdup 1 +
    putBytes 16 f.ownN 4 + putBytes 20 f.mirrorN 4 + putBytes 24 f.tHdr.toNat 4 +
    putBytes 28 f.openTab.length 2 + putBytes 30 f.erasing.length 2 + putBytes 32 f.groups.length 2 + putBytes 34 f.defects.length 2 +
    putTable 64 8 ((f.openTab.take 512).map (fun e =>
      putBytes 0 e.1 3 + putBytes 3 e.2.1 2 + putBytes 5 e.2.2 2 + putBytes 7 (bitOf (decide (Config.homeOf (recCh e.1) ≠ f.half))) 1)) +
    putTable 4160 4 ((f.erasing.take 128).map (fun e => putBytes 0 e.1 3 + putBytes 3 (bitOf e.2) 1)) +
    putTable 4672 16 ((f.groups.take 128).map (fun g =>
      putBytes 0 g.1 2 + putBytes 2 g.2.1 6 + putBytes 8 g.2.2.1 1 + putBytes 9 g.2.2.2.1 2 + putBytes 11 (bitOf g.2.2.2.2) 1)) +
    putTable 6720 8 ((f.defects.take 256).map Defect.packed)

/-- The entries of a table of the header: `n` of `w` bytes from byte `i` on. -/
def tableAt (x i w n : Nat) : List Nat := (List.range n).map (fun k => bytesAt x (i + w * k) w)

/-- The header that a page's user bytes spell, of the fields a recovery uses; none where MAGIC or VERSION is another (R566). -/
def headerOf (x : Nat) : Option FlyHeader :=
  if decide (bytesAt x 0 4 = 0x53594C46) && decide (bytesAt x 4 1 = 1) then
    some
      { half := if bytesAt x 5 1 = 0 then .a else .b, flags := bytesAt x 6 1, seq := BitVec.ofNat 32 (bytesAt x 8 4), holdup := bytesAt x 12 1
        ownN := bytesAt x 16 4, mirrorN := bytesAt x 20 4, tHdr := BitVec.ofNat 32 (bytesAt x 24 4)
        openTab := (tableAt x 64 8 (Nat.min 512 (bytesAt x 28 2))).map (fun e => (bytesAt e 0 3, bytesAt e 3 2, bytesAt e 5 2))
        erasing := (tableAt x 4160 4 (Nat.min 128 (bytesAt x 30 2))).map (fun e => (bytesAt e 0 3, decide (bytesAt e 3 1 = 1)))
        groups := (tableAt x 4672 16 (Nat.min 128 (bytesAt x 32 2))).map (fun e => (bytesAt e 0 2, bytesAt e 2 6, bytesAt e 8 1, bytesAt e 9 2, decide (bytesAt e 11 1 = 1)))
        defects := (tableAt x 6720 8 (Nat.min 256 (bytesAt x 34 2))).map defectOf }
  else none

/-- The pages of a journal, 512 entries each, from page index `n` of the record and position `pos` of the journal on; `k` bounds them (R566). -/
def journalPages (k : Nat) (h : HalfId) (n pos : Nat) (l : List JEntry) : List (List Payload) :=
  match k with
  | 0 => []
  | m + 1 =>
    if l.isEmpty then []
    else
      let user := putTable 0 32 ((l.take 512).map JEntry.packed)
      let page := flyPage user (putBytes 0 0x4A594C46 4 + putBytes 4 h.code 1 + putBytes 5 n 1 + putBytes 8 pos 8 + putBytes 16 (Nat.min 512 l.length) 2)
      let crc := crcPages [page]
      flyPage user (pageMeta page + putBytes 28 crc.toNat 4) :: journalPages m h (n + 1) (pos + 512) (l.drop 512)

/-- The seal page (R566). -/
def sealPage (pages : List (List Payload)) (seq : BitVec 32) (us : BitVec 32) : List Payload :=
  flyPage (putBytes 0 0x5A594C46 4 + putBytes 4 (pages.length + 1) 2 + putBytes 8 seq.toNat 4 + putBytes 12 (crcPages pages).toNat 4 + putBytes 16 us.toNat 4) 0

/-- A flysheet record's pages: the header, the own journal's, the mirror's, the seal (R562). -/
def flyPages (f : FlyHeader) (own mirror : List JEntry) (ownPos mirPos : Nat) (tSeal : BitVec 32) : List (List Payload) :=
  let n := own.length + 1
  let o := journalPages n f.half 1 ownPos own
  let body := flyPage f.user 0 :: (o ++ journalPages (mirror.length + 1) f.half.twin (o.length + 1) mirPos mirror)
  body ++ [sealPage body f.seq tSeal]

/-! ### A record read back (R567 steps 1 and 3) -/

/-- A page is a seal page: the copy's page count, CKPT_SEQ, the CRC-32 and the time of the seal (R566). -/
def sealOf (l : List Payload) : Option (Nat × BitVec 32 × BitVec 32 × BitVec 32) :=
  let x := pageUser l
  if bytesAt x 0 4 = 0x5A594C46 then
    some (bytesAt x 4 2, BitVec.ofNat 32 (bytesAt x 8 4), BitVec.ofNat 32 (bytesAt x 12 4), BitVec.ofNat 32 (bytesAt x 16 4))
  else none

/-- A page is page `n` of a record, by its metadata or, the header, by its user bytes; a journal page's own CRC must match (R566). -/
def isPage (n : Nat) (l : List Payload) : Bool :=
  if n = 0 then (headerOf (pageUser l)).isSome
  else
    let m := pageMeta l
    decide (bytesAt m 0 4 = 0x4A594C46) && decide (bytesAt m 5 1 = n % 256) && decide (BitVec.ofNat 32 (bytesAt m 28 4) = crcPages [l])

/-- The entries of the journal pages of half `h` among a record's pages, and the position of the first (R566). -/
def journalOf (h : HalfId) (pages : List (List Payload)) : Nat × List JEntry :=
  let mine := pages.filter (fun l => decide (bytesAt (pageMeta l) 4 1 = h.code))
  let es := (mine.map (fun l => (tableAt (pageUser l) 0 32 (Nat.min 512 (bytesAt (pageMeta l) 16 2))).filterMap jentryOf)).flatten
  ((mine.head?).elim 0 (fun l => bytesAt (pageMeta l) 8 8), wholeRecords es.length es)

/-- The record that a seal page completes with the pages read, each by its page index from whichever copy delivers it: none where one is missing, the header names another
CKPT_SEQ, or the CRC differs (R567 step 3). -/
def recordSealed (pages : List (List Payload)) (s : Nat × BitVec 32 × BitVec 32 × BitVec 32) : Option FlyRecord :=
  let body := (List.range (s.1 - 1)).filterMap (fun n => pages.find? (isPage n))
  match body.head?.bind (fun l => headerOf (pageUser l)) with
  | none => none
  | some f =>
    if decide (body.length = s.1 - 1) && decide (f.seq = s.2.1) && decide (crcPages body = s.2.2.1) then
      let own := journalOf f.half (body.drop 1)
      let mir := journalOf f.half.twin (body.drop 1)
      some { half := f.half, seq := f.seq, flags := f.flags, own := own.2, ownPos := own.1, mirror := mir.2, mirPos := mir.1
             openTab := f.openTab, erasing := f.erasing, tSeal := s.2.2.2 }
    else none

/-- The flysheet records that the pages read from record and spare units make up, those of a half with no whole sealed record missing (R567 steps 1 and 3). -/
def flyRecords (leaves : List FlyLeaf) : List FlyRecord :=
  [HalfId.a, HalfId.b].filterMap (fun h =>
    let pages := (leaves.filter (fun l => decide (l.half = h))).map FlyLeaf.page
    (pages.filterMap sealOf).findSome? (recordSealed pages))

end Sys2Proof.Machine
end

