-- ==== Sys2Proof/Machine/Ldpc.lean ====
section
/-!
DEFINITION. The LDPC code: its base matrix, the encoder, the syndrome, the min-sum decoders, and the error injector (R229-R233, R243, R244,
R257, R271, R669).
-/

namespace Sys2Proof.Machine

open Sys2Proof

/-! ### The base matrix (R229-R231) -/

/-- Information block columns of the code (R229). -/
def infoCols : Nat := 129

/-- Base rows in use, which are also the parity block columns: 15 with 480-byte parity, 11 with 352-byte parity (R229). -/
def codeRows (short : Bool) : Nat := if short then 11 else 15

/-- Block columns in use (R229). -/
def codeCols (short : Bool) : Nat := infoCols + codeRows short

/-- n: the bits of a codeword (R229). -/
def codeBits (short : Bool) : Nat := 256 * codeCols short

/-- An entry of the base matrix as its shift, or the all-zero block: the file's in the information columns, the bidiagonal of R231 in the parity columns. -/
def baseMatrix (i b : Nat) : Option Nat :=
  if b < infoCols then (Config.baseEntry i b).map BitVec.toNat
  else if b = infoCols + i || b + 1 = infoCols + i then some 0
  else none

/-- The non-zero entries of a base row among its first `cols` columns, as (column, shift). -/
def rowEntries (i cols : Nat) : List (Nat × Nat) :=
  (List.range cols).filterMap (fun b => (baseMatrix i b).map (fun c => (b, c)))

/-- An entry as the file spells it (R230). -/
def fileEntry (i b : Nat) : Nat := (baseMatrix i b).getD 0xFFFF

/-- The file of the base matrix as one little-endian number: header, then 15 rows of 144 entries (R230). -/
def matrixFile : Nat :=
  0x46 + 0x4A * 2 ^ 8 + 0x51 * 2 ^ 16 + 0x43 * 2 ^ 24 + 1 * 2 ^ 32 + 15 * 2 ^ 40 + 144 * 2 ^ 48 + 256 * 2 ^ 64 + 445 * 2 ^ 80 +
    ((List.range 2160).map (fun k => fileEntry (k / 144) (k % 144) * 2 ^ (8 * (16 + 2 * k)))).sum

/-- Non-zero entries of information column `b` in the first `rows` rows. -/
def colWeight (b rows : Nat) : Nat := ((List.range rows).filter (fun i => (baseMatrix i b).isSome)).length

/-- A closed walk through the base matrix along (row, column) pairs, each pair's row kept into the next column, is a cycle of the lifted graph: its entries
are all there and its shifts, taken with alternating signs, cancel modulo 256 (R231). -/
def closes (l : List (Nat × Nat × Nat)) : Bool :=
  l.all (fun e => (baseMatrix e.1 e.2.1).isSome && (baseMatrix e.1 e.2.2).isSome) &&
    decide ((l.foldl (fun (a : Int) e => a + ((baseMatrix e.1 e.2.1).getD 0 : Int) - ((baseMatrix e.1 e.2.2).getD 0 : Int)) 0) % 256 = 0)

/-- No cycle shorter than 8: none of length 4 and none of length 6 (R231). -/
def noShortCycle : Bool :=
  let rows := List.range 15
  let cols := List.range 144
  !(rows.any (fun i => rows.any (fun j => decide (i < j) && cols.any (fun a => cols.any (fun b => decide (a ≠ b) &&
      (closes [(i, a, b), (j, b, a)] ||
        rows.any (fun k => decide (j < k) && cols.any (fun c => decide (c ≠ a) && decide (c ≠ b) &&
          closes [(i, a, b), (j, b, c), (k, c, a)]))))))))

/-- What a checker may confirm against the file (R230, R231): its CRC, the weights of its columns and rows, two entries of every information column
in rows 0 to 10, no short cycle. -/
def matrixSound : Bool :=
  let cols := List.range infoCols
  let light := [0, 3, 6, 9, 12]
  decide (crc32 matrixFile 4336 = 0x6B2ED914) &&
    decide ((cols.filter (fun b => decide (colWeight b 15 = 3))).length = 100) &&
    decide ((cols.filter (fun b => decide (colWeight b 15 = 4))).length = 29) &&
    cols.all (fun b => decide (2 ≤ colWeight b 11)) &&
    (List.range 15).all (fun i => decide ((rowEntries i 144).length = if light.contains i then 29 else 30)) && noShortCycle

/-! ### Encoder and syndrome (R228, R231, R232) -/

/-- Block column `b` of a codeword (R229). -/
def blockOf (x : BitVec 36864) (b : Nat) : BitVec 256 := x.extractLsb' (256 * b) 256

/-- A circulant of shift `c` applied to a block: bit `r` of the result is bit (r + c) mod 256 of the block (R230, R231). -/
def circulant (c : Nat) (u : BitVec 256) : BitVec 256 := u.rotateRight c

/-- A base row applied to the first `cols` block columns of a codeword. -/
def rowCheck (i cols : Nat) (x : BitVec 36864) : BitVec 256 :=
  (rowEntries i cols).foldl (fun a e => a ^^^ circulant e.2 (blockOf x e.1)) 0

/-- The parity blocks p(i) to p(i + n − 1), accumulated onto `acc` (R231). -/
def parityFrom (x : BitVec 36864) (acc : BitVec 256) (i n : Nat) : List (BitVec 256) :=
  match n with
  | 0 => []
  | m + 1 =>
    let a := acc ^^^ rowCheck i infoCols x
    a :: parityFrom x a (i + 1) m

/-- Blocks set side by side from bit `lo` on. -/
def placeBlocks (l : List (BitVec 256)) (lo : Nat) : Nat :=
  match l with
  | [] => 0
  | u :: r => u.toNat * 2 ^ lo + placeBlocks r (lo + 256)

/-- The codeword of a randomised payload: the payload, then its parity unrandomised (R228, R231, R232). -/
def encode (short : Bool) (p : BitVec 33024) : BitVec 36864 :=
  let x := BitVec.ofNat 36864 p.toNat
  x ||| BitVec.ofNat 36864 (placeBlocks (parityFrom x 0 0 (codeRows short)) 33024)

/-- The syndrome of a codeword, a block for each base row in use (R232, R238). -/
def syndrome (short : Bool) (x : BitVec 36864) : List (BitVec 256) :=
  (List.range (codeRows short)).map (fun i => rowCheck i (codeCols short) x)

/-- The syndrome is zero (R238). -/
def isCodeword (short : Bool) (x : BitVec 36864) : Bool := (syndrome short x).all (fun u => decide (u = 0))

/-- Ones among the first `n` bits. -/
def onesIn {w : Nat} (x : BitVec w) (n : Nat) : Nat := ((List.range n).filter (fun i => x.getLsbD i)).length

/-- Unsatisfied checks of an image (R244). -/
def unsatisfied (short : Bool) (x : BitVec 36864) : Nat := ((syndrome short x).map (fun u => onesIn u 256)).sum

/-- The codeword sent to the pins for a payload at its address: randomised, then encoded (R232, R233, R235). -/
def pinImage (short : Bool) (drive : BitVec 31) (p : Paddr) (d : Payload) : BitVec 36864 :=
  encode short (scramble drive p (payloadBits d))

/-- A blank page's codeword: every bit 1, past the randomiser and the encoder (R302). -/
def blankImage (short : Bool) : BitVec 36864 := BitVec.ofNat 36864 (2 ^ codeBits short - 1)

/-! ### Layered, normalised min-sum (R243, R244, R669) -/

/-- What a core holds: the sum at each codeword bit, and the message of each check to each of its bits, by row, column and check. -/
structure MinSum where
  sums : Array Int
  msgs : Array Int

/-- The place of a message. -/
def msgAt (i b r : Nat) : Nat := (144 * i + b) * 256 + r

/-- A core loaded: each bit's sum is its input magnitude, negative for a 1 (R243, R257). -/
def MinSum.load (short : Bool) (mag : Nat → Nat) (raw : BitVec 36864) : MinSum :=
  { sums := ((List.range (codeBits short)).map (fun v => if raw.getLsbD v then -(mag v : Int) else (mag v : Int))).toArray
    msgs := Array.replicate (15 * 144 * 256) 0 }

/-- The message a check sends to one of its bits from what the others send it: the product of their signs, the smallest of their magnitudes normalised. -/
def minSumMsg (others : List Int) : Int :=
  let mag := Config.normalise ((others.map Int.natAbs).foldl Nat.min ((others.map Int.natAbs).headD 0))
  if (others.filter (fun v => decide (v < 0))).length % 2 = 1 then -(mag : Int) else (mag : Int)

/-- Check `r` of base row `i` taken: each of its bits gets the new message in place of the old. -/
def MinSum.check (s : MinSum) (i r : Nat) (es : List (Nat × Nat)) : MinSum :=
  let bits := es.map (fun e => (e.1, 256 * e.1 + (r + e.2) % 256))
  let ins := bits.map (fun e => Config.clipSum (s.sums.getD e.2 0 - s.msgs.getD (msgAt i e.1 r) 0))
  (List.range bits.length).foldl (fun (t : MinSum) k =>
    let e := bits.getD k (0, 0)
    let m := minSumMsg (ins.eraseIdx k)
    { sums := t.sums.setIfInBounds e.2 (Config.clipSum (ins.getD k 0 + m)), msgs := t.msgs.setIfInBounds (msgAt i e.1 r) m }) s

/-- The order of the layers: the core's, where it takes every row once. -/
def layers (m : Nat) : List Nat :=
  if (Config.layerOrder m).isPerm (List.range m) then Config.layerOrder m else List.range m

/-- One iteration: every layer in turn (R243). -/
def MinSum.iterate (short : Bool) (s : MinSum) : MinSum :=
  (layers (codeRows short)).foldl (fun t i =>
    let es := rowEntries i (codeCols short)
    (List.range 256).foldl (fun u r => u.check i r es) t) s

/-- The bits the sums decide. -/
def MinSum.decided (short : Bool) (s : MinSum) : BitVec 36864 :=
  BitVec.ofNat 36864 ((List.range (codeBits short)).foldr (fun v a =>
    let x := s.sums.getD v 0
    2 * a + bitOf (if x = 0 then Config.zeroDecides else decide (x < 0))) 0)

/-- What a decode reports (R244, R669): the image it ended with, its iterations, and the checks left unsatisfied. -/
structure Decoded where
  image : BitVec 36864
  iters : Nat
  unsat : Nat
  deriving DecidableEq, Repr

/-- The core reports success: a zero syndrome (R244). -/
def Decoded.ok (d : Decoded) : Bool := decide (d.unsat = 0)

/-- A core run for at most `n` iterations, `k` of them made: it stops after the first that leaves a zero syndrome (R244). -/
def MinSum.run (short : Bool) (s : MinSum) (k n : Nat) : Decoded :=
  match n with
  | 0 => { image := s.decided short, iters := k, unsat := unsatisfied short (s.decided short) }
  | m + 1 =>
    let t := s.iterate short
    if isCodeword short (t.decided short) then { image := t.decided short, iters := k + 1, unsat := 0 }
    else MinSum.run short t (k + 1) m

/-- A hard decode: every raw bit at one magnitude (R243). -/
def hardDecode (short : Bool) (raw : BitVec 36864) (iter : Nat) : Decoded :=
  MinSum.run short (MinSum.load short (fun _ => Config.hardMagnitude) raw) 0 iter

/-- The magnitude of a bit by its zone: the paired images against the RAW bit (R257). -/
def zoneMag (llr : BitVec 16) (raw low high : BitVec 36864) (v : Nat) : Nat :=
  let f := fun (k : Nat) => llr.toNat / 2 ^ (4 * k) % 16
  match decide (low.getLsbD v = raw.getLsbD v), decide (high.getLsbD v = raw.getLsbD v) with
  | true, true => f 0
  | false, true => f 1
  | true, false => f 2
  | false, false => f 3

/-- A soft decode of the RAW, SL and SH images (R243, R257). -/
def softDecode (short : Bool) (raw low high : BitVec 36864) (llr : BitVec 16) (iter : Nat) : Decoded :=
  MinSum.run short (MinSum.load short (zoneMag llr raw low high) raw) 0 iter

/-- Bits by which two images differ (R266). -/
def flipped (x y : BitVec 36864) : Nat := onesIn (x ^^^ y) 36864

/-! ### The error injector (R271) -/

/-- Which sense an image is, for mode 1: below, above, or at the threshold. -/
inductive SenseAt where
  | low
  | high
  | mid
  deriving DecidableEq, Repr

/-- A word of `n` bits, bit `v` given by a function. -/
def bitsBy (n : Nat) (f : Nat → Bool) : Nat := (List.range n).foldr (fun v a => 2 * a + bitOf (f v)) 0

/-- Mode 0: each bit inverted where its draw lies below PROB (R271). -/
def injectFlip (n prob use : Nat) (raw : BitVec 36864) : BitVec 36864 :=
  raw ^^^ BitVec.ofNat 36864 (bitsBy n (fun v => decide ((Config.injectDraw use v).toNat < prob)))

/-- Mode 1: a stored bit delivered as 1 where its voltage lies below the threshold of the sense; voltages in units of 2^−30 (R271). -/
def injectVoltage (n sigma delta seq paddr : Nat) (t : SenseAt) (raw : BitVec 36864) : BitVec 36864 :=
  let limit : Int := match t with
    | .low => -(delta : Int) * 2 ^ 20
    | .high => (delta : Int) * 2 ^ 20
    | .mid => 0
  BitVec.ofNat 36864 (bitsBy n (fun v =>
    let b : Int := if raw.getLsbD v then -(2 ^ 30) else 2 ^ 30
    decide (b + (sigma : Int) * Config.injectNormal seq paddr v < limit)))

end Sys2Proof.Machine
end

