-- ==== Sys2Proof/Machine/TrainOps.lean ====
section
/-!
DEFINITION. Rates and training of a channel: the target code, the eye search, the delays, and the retrains asked for (R141-R185).
-/

namespace Sys2Proof

/-! ### The extended parameter page (R172) -/

/-- Byte `i` of an extended parameter page. -/
def ExtPage.byte (p : ExtPage) (i : Nat) : Nat := p.bytes / 2 ^ (8 * i) % 256

/-- One bit of ONFI 5.1's integrity CRC, most significant bit first. -/
def crc16Bit (c : BitVec 16) (x : Bool) : BitVec 16 := if c.getLsbD 15 != x then (c <<< 1) ^^^ 0x8005 else c <<< 1

/-- ONFI 5.1's integrity CRC of bytes 2 up of a parameter page (PRESUMED of the standard, log entry 87). -/
def ExtPage.crc (p : ExtPage) : BitVec 16 :=
  (List.range (p.len - 2)).foldl (fun c i =>
    (List.range 8).foldl (fun a k => crc16Bit a (decide (p.byte (i + 2) / 2 ^ (7 - k) % 2 = 1))) c) 0x4F4E

/-- The CRC a page carries in its bytes 0 and 1 is right. -/
def ExtPage.intact (p : ExtPage) : Bool := decide (p.crc = BitVec.ofNat 16 (p.bytes % 2 ^ 16))

/-- The sections of a page as (type, first byte): eight specifiers of a type and a length in units of 16 bytes from byte 16 on, the sections from byte 32 on
(PRESUMED of the standard, log entry 87). -/
def ExtPage.sections (p : ExtPage) : List (Nat × Nat) :=
  ((List.range 8).foldl (fun (a : List (Nat × Nat) × Nat) k =>
    (a.1 ++ [(p.byte (16 + 2 * k), a.2)], a.2 + 16 * p.byte (17 + 2 * k))) ([], 32)).1

/-- The extension's first 32 bytes meet the table of R172. -/
def extValid (x : BitVec 256) : Bool :=
  decide (fieldOf x 0 32 = 0x52584A46) && decide (fieldOf x 32 8 = 1) && decide (fieldOf x 43 5 = 0) &&
    decide (fieldOf x 90 6 = 0) && decide (fieldOf x 184 72 = 0)

/-- The Fjarley extension of an extended parameter page: its section of type 0xF1 that begins with SIG, where the page's CRC and the section's bytes are
right (R172). -/
def ExtPage.extension (p : ExtPage) : Option (BitVec 256) :=
  if p.intact then
    ((p.sections.filter (fun e => decide (e.1 = 0xF1))).map (fun e => BitVec.ofNat 256 (p.bytes / 2 ^ (8 * e.2)))).find? (fun x =>
      decide (fieldOf x 0 32 = 0x52584A46)) |>.filter extValid
  else none

end Sys2Proof

namespace Sys2Proof.Machine

open Sys2Proof

/-! ### What a die offers (R173, R174) -/

/-- The first of the bits offered, in the order of preference given. -/
def firstOf (codes : Nat) (order : List Nat) : Option Nat := order.find? (fun k => decide (codes / 2 ^ k % 2 = 1))

/-- The die ODT code of the extended rate: 50 Ω, else 40 Ω, else 60 Ω (R174); a code is the number of its bit in ODT_CODES (DEDUCED, log entry 88). -/
def Die.odtCode (e : Die) : Option Nat := e.ext.bind (fun x => firstOf (fieldOf x 64 8) [1, 0, 2])

/-- The die drive code of the extended rate: 35 Ω, else 30 Ω, else 40 Ω (R174; DEDUCED, log entry 88). -/
def Die.drvCode (e : Die) : Option Nat := e.ext.bind (fun x => firstOf (fieldOf x 80 8) [1, 0, 2])

/-- The die offers ZQ calibration: in its parameter page, or by its extension (R176, R177). -/
def Die.offersZq (e : Die) : Bool := e.zq || e.ext.isSome

/-- The die qualifies for extended code `k` (R173). -/
def Die.qualifies (e : Die) (iface k : Nat) : Bool :=
  match e.ext with
  | none => false
  | some x =>
    decide (iface = 0) && extValid x && decide (10 ≤ k) && decide (k ≤ 12) && x.getLsbD (40 + (k - 10)) &&
      x.getLsbD 88 && x.getLsbD 89 && decide (fieldOf x 64 8 ≠ 0) && decide (fieldOf x 80 8 ≠ 0)

/-- RETRAIN_MS of a die's extension, 0 for no limit (R172). -/
def Die.retrainMs (e : Die) : Nat :=
  match e.ext with
  | none => 0
  | some x => if extValid x then fieldOf x 144 16 else 0

/-- Bound dies of a channel, with their indices. -/
def Chan.bound (k : Chan) : List (Nat × Die) :=
  List.filter (fun e => e.2.present && e.2.slot.isSome && !e.2.retired) k.dies

/-- The codes a channel's training tries, highest first (R143, R177, R180, R182): at or below RATE, 3 with SAFE_RATE, RATE_CAP, 9 unless
every die qualifies, and the lowest RATE_OK of dies trained before; down to 3, or the first alone where it is below 3. -/
def Half.trainCodes (x : Half) (c : Nat) : List Nat :=
  let k := x.chan c
  match x.chanProfile? c with
  | none => []
  | some p =>
    let oks := (k.bound.map (fun e => e.2.rateOk)).filter (fun r => decide (r ≠ 0))
    let top := oks.foldl Nat.min (Nat.min p.rate (Nat.min k.cfg.rateCap (if x.boot.strap.getLsbD 14 then 3 else 12)))
    let allowed := fun r => decide (r ≤ 9) || k.bound.all (fun e => e.2.qualifies p.iface r)
    let codes := ((List.range top).map (fun i => top - i)).filter allowed
    match codes with
    | [] => []
    | r :: rest => r :: rest.filter (fun n => decide (3 ≤ n))

/-- The codes the next full training tries: those below the present rate where a quick retrain found a die failing at it (R180, R185). -/
def Half.trainTries (x : Half) (c : Nat) : List Nat :=
  let k := x.chan c
  if k.trainReq = 3 then (x.trainCodes c).filter (fun r => decide (r < k.rate)) else x.trainCodes c

/-- The length of the run of passing taps that begins at tap `t`, counted round from 63 to 0 (R179). -/
def runFrom (pass : BitVec 64) (t n : Nat) : Nat :=
  match n with
  | 0 => 0
  | m + 1 => if pass.getLsbD (t % 64) then 1 + runFrom pass (t + 1) m else 0

/-- The longest run of passing taps: its first tap and its length, the lowest first tap among equals (R179). -/
def eyeOf (pass : BitVec 64) : Nat × Nat :=
  (List.range 64).foldl (fun (b : Nat × Nat) t => if b.2 < runFrom pass t 64 then (t, runFrom pass t 64) else b) (0, 0)

/-- The delay at the centre of an eye (R179). -/
def centre (e : Nat × Nat) : Nat := (e.1 + e.2 / 2) % 64

/-- A die passes training: every lane's eye is at least EYE_MIN, in both directions (R179). -/
def trainPasses (eyeMin : Nat) (t : DieTrain) : Bool :=
  decide (t.lanesRd.length = 8) && decide (t.lanesWr.length = 8) &&
    (t.lanesRd ++ t.lanesWr).all (fun w => decide (eyeMin ≤ (eyeOf w).2))

/-- The taps at which all eight lanes pass. -/
def commonEye (l : List (BitVec 64)) : BitVec 64 := l.foldl (fun a w => a &&& w) (BitVec.allOnes 64)

/-- The delays training sets on a die: read and write delays of DQ0 to DQ7, and the DQS write delay (R179). -/
def trainLanes (old : Tab Lane) (t : DieTrain) (write : Bool) : Tab Lane :=
  let dq := (List.range 8).foldl (fun (m : Tab Lane) i =>
    let r := eyeOf (t.lanesRd.getD i 0)
    let w := eyeOf (t.lanesWr.getD i 0)
    Tab.modify Lane.reset m i (fun l => { rd := centre r, wr := if write then centre w else l.wr, eye := r.2 })) old
  if write then Tab.modify Lane.reset dq 8 (fun l => { l with wr := centre (eyeOf (commonEye t.lanesWr)) }) else dq

/-- The smallest read eye of a die's lanes (CHN_DIEd.EYE). -/
def trainMinEye (t : DieTrain) : Nat := (t.lanesRd.map (fun w => (eyeOf w).2)).foldl Nat.min 64

/-- What was found of die `d` at code `r`. -/
def foundAt (found : List DieTrain) (d r : Nat) : Option DieTrain :=
  found.find? (fun t => decide (t.die = d) && decide (t.code = r))

/-- Every bound die of the channel passed at code `r` (R180). -/
def Chan.allPass (k : Chan) (found : List DieTrain) (r : Nat) : Bool :=
  k.bound.all (fun e => match foundAt found e.1 r with
    | none => false
    | some t => trainPasses k.cfg.eyeMin t)

/-- The highest code at which die `d` has passed: RATE_OK (R182). -/
def bestCode (eyeMin : Nat) (found : List DieTrain) (codes : List Nat) (d old : Nat) : Nat :=
  match codes.find? (fun r => match foundAt found d r with
    | none => false
    | some t => trainPasses eyeMin t) with
  | none => old
  | some r => Nat.max old r

/-- A die after steps 3 to 6 of a training whose target is `target`: its ODT and drive codes at the extended rate, ODT CONFIGURE, the FEATURES list and
PULSE_LIMIT (R174-R177, R197); the codes tried leave RATE_OK (R182), and the interface stands at the last of them. -/
def Die.setUp (e : Die) (eyeMin : Nat) (found : List DieTrain) (tried : List Nat) (d target last : Nat) : Die :=
  { e with
    odt := if 10 ≤ target then e.odtCode else e.odt
    drv := if 10 ≤ target then e.drvCode else e.drv
    term := true, featDue := false, pulseDue := false, mode := .run last
    rateOk := bestCode eyeMin found tried d e.rateOk }

/-- Every bound die set up by a training that tried these codes. -/
def Chan.setUp (k : Chan) (found : List DieTrain) (tried : List Nat) : Chan :=
  { k with
    padCal := true
    dies := k.bound.foldl (fun (m : Tab Die) e =>
      Tab.modify Die.absent m e.1 (fun d => d.setUp k.cfg.eyeMin found tried e.1 (tried.headD 0) (tried.getLastD 0))) k.dies }

/-- A channel trained at code `r`, the first of the codes tried at which every die passed (R176, R177, R180, R182). -/
def Chan.trainedAt (k : Chan) (found : List DieTrain) (tried : List Nat) (r us : Nat) : Chan :=
  let j := k.setUp found tried
  let dies := j.bound.foldl (fun (m : Tab Die) e =>
    match foundAt found e.1 r with
    | none => m
    | some t => Tab.modify Die.absent m e.1 (fun d => { d with eye := trainMinEye t, lanes := trainLanes d.lanes t true })) j.dies
  { j with dies := dies, rate := r, ext := decide (10 ≤ r), trained := true, trainFail := false, trainUs := us,
           trainReq := 0, trainRun := [] }

/-- What a quick retrain found of one die at the current code: its read deskew, or a die that fails, for which the channel is to be trained in full below that
code (R183, R185). -/
def Chan.quickDie (k : Chan) (t : DieTrain) : Chan :=
  let j : Chan := { k with trainRun := k.trainRun.filter (fun d => decide (d ≠ t.die)) }
  if t.lanesRd.length = 8 && t.lanesRd.all (fun w => decide (k.cfg.eyeMin ≤ (eyeOf w).2)) then
    { j with dies := Tab.modify Die.absent j.dies t.die (fun d => { d with eye := trainMinEye t, lanes := trainLanes d.lanes t false }) }
  else { j with trainReq := 3, trainFail := true }

/-- Quick retrains asked for of dies of a channel, behind what waits for the bus (R162 item 8, R185). -/
def Chan.askTrain (k : Chan) (dies : List Nat) : Chan :=
  { k with tasks := k.tasks ++ ((dies.map (fun d => ({ kind := .train, die := d } : BusTask))).filter (fun t => !k.tasks.contains t)) }

/-- A full retrain of a channel asked for, or a quick one of every bound die (R183). -/
def Chan.askRetrain (k : Chan) (full : Bool) : Chan :=
  if k.padRetired || k.retired then k
  else if full then { k with trainReq := Nat.max k.trainReq 2 }
  else k.askTrain (k.bound.map Prod.fst)

/-- A full training is due (R176, R183, R185). -/
def Chan.trainDue (k : Chan) : Bool := !k.trained || decide (2 ≤ k.trainReq)

/-- No training is asked for or under way. -/
def Chan.trainIdle (k : Chan) : Bool := decide (k.trainReq = 0) && k.trainRun.isEmpty

/-- Die operations wait for training: the channel has no rate, or a die has failed at it (R176, R185). -/
def Chan.gated (k : Chan) : Bool := !k.trained || k.trainFail

/-- The period of quick retrains in ms, 0 for none: at the extended rate also the smallest RETRAIN_MS of the dies that is not zero (R183). -/
def Chan.retrainMs (k : Chan) : Nat :=
  let l := if k.ext then (k.bound.map (fun e => e.2.retrainMs)).filter (fun n => decide (n ≠ 0)) else []
  l.foldl Nat.min k.cfg.periodMs
/-- TRAIN of PWR_LAT3 and PWR_LAT4: the longest last full training of a channel of the half, in µs (R532). -/
def Half.trainTerm (x : Half) : Nat := (x.twn.drives.map (fun c => (x.chan c).trainUs)).foldl Nat.max 0

end Sys2Proof.Machine
end

