-- ==== Sys2Proof/Machine/BusOps.lean ====
section
/-!
DEFINITION. What an engine puts on a channel's pins: the cycles of each bus task, the order of the tasks, and the state of the LUN
they leave (R146-R170, R197).
-/

namespace Sys2Proof.Machine

open Sys2Proof

/-- The order of precedence of R162. -/
def TaskKind.rank : TaskKind → Nat
  | .reset => 1
  | .raise => 1
  | .suspend => 2
  | .resume => 2
  | .fillCmd => 3
  | .fillOut => 3
  | .dataOut => 4
  | .poll => 5
  | .arrayCmd => 6
  | .dataIn => 7
  | .train => 8

/-- The first task of the highest precedence (R162). -/
def pickTask (l : List BusTask) : Option BusTask :=
  l.foldl (fun o t => match o with
    | none => some t
    | some u => if t.kind.rank < u.kind.rank then some t else some u) none

/-- The task of a burst in progress. -/
def Burst.task (u : Burst) : BusTask := { kind := if u.out then .dataOut else .dataIn, die := u.die }

/-- The bus task taken next among those that may run: the polls that come before anything else (R24, R160); with a burst in progress, only tasks of items 1 to 3
before it goes on (R163, R164); else the first of the highest precedence (R162). -/
def Chan.nextTask (k : Chan) (may : BusTask → Bool) : Option BusTask :=
  match k.mustPoll with
  | d :: _ => some { kind := .poll, die := d }
  | [] =>
    let l := k.tasks.filter may
    match k.burst with
    | none => pickTask l
    | some u => (pickTask (l.filter (fun t => decide (t.kind.rank ≤ 3)))).or (if may u.task then some u.task else none)

/-- A task put behind those that wait. -/
def Chan.addTask (k : Chan) (kind : TaskKind) (d : Nat) : Chan := { k with tasks := k.tasks ++ [{ kind := kind, die := d }] }

/-- A task put behind those that wait, unless the same one waits already. -/
def Chan.needTask (k : Chan) (kind : TaskKind) (d : Nat) : Chan :=
  if k.tasks.contains { kind := kind, die := d } then k else k.addTask kind d

/-- The tasks of one kind for a die taken off the bus's list. -/
def Chan.dropTask (k : Chan) (kind : TaskKind) (d : Nat) : Chan :=
  { k with tasks := k.tasks.filter (fun t => !(decide (t.kind = kind) && decide (t.die = d))) }

/-- Every task for a die taken off the bus's list, and its burst ended. -/
def Chan.dropTasks (k : Chan) (d : Nat) : Chan :=
  { k with tasks := k.tasks.filter (fun t => decide (t.die ≠ d)), burst := k.burst.filter (fun u => decide (u.die ≠ d)) }

/-- The opcode of an operation on a die: the one shown, but for a Toggle DDR die the one its family entry substitutes (R146, R148). -/
def Die.opcode (e : Die) (shown : Byte) (f : Family → Byte) : Byte := if e.toggle then e.family.elim shown f else shown
/-- The SLC prefix cycles of an operation. -/
def Die.prefixCycles (e : Die) (slc : Bool) : List Cycle :=
  match e.family with
  | none => []
  | some f => if slc then [.cmd f.slcPrefix] else []

/-- L: the row cycles that name a LUN (R146, R150). -/
def lunBytes (p : Profile) (d : Nat) : List Cycle :=
  rowBytes p { slot := 0, page := 0, block := 0, plane := 0, lun := (dieTarget p d).2, target := (dieTarget p d).1,
               channel := 0 }

/-- The CE_n line asserted, and VOLUME SELECT of the die's volume. -/
def callCycles (e : Die) (p : Profile) (d : Nat) : List Cycle :=
  [.ce (dieTarget p d).1] ++
    if p.volume then [.cmd (e.opcode 0xE1 Family.volumeOp), .addr (BitVec.ofNat 8 (e.vol.getD d))] else []

/-- The CE_n line asserted, and VOLUME SELECT where another volume of the line, or none, was last selected (R151, R153). -/
def selectCycles (k : Chan) (e : Die) (p : Profile) (d : Nat) : List Cycle :=
  let t := (dieTarget p d).1
  if p.volume && decide (k.volSel.find? t ≠ some d) then callCycles e p d else [.ce t]

/-- The volume a task's cycles select on its CE_n line (R153). -/
def Chan.selects (k : Chan) (p : Profile) (t : BusTask) : Tab Nat :=
  if p.volume then k.volSel.put (dieTarget p t.die).1 t.die else k.volSel

/-! ### Features (R145, R174, R197, R392) -/

/-- P1 to P4 as data cycles. -/
def paramCycles (w : Nat) : List Cycle := (lowBytes w 4).map Cycle.data

/-- SET FEATURES (R146). -/
def setFeature (f w : Nat) : List Cycle := [.cmd 0xEF, .addr (BitVec.ofNat 8 f)] ++ paramCycles w ++ [.busy]

/-- The profile's FEATURES list, as five bytes an entry (R105). -/
def featureList (p : Profile) : List Nat :=
  ((List.range 16).map (fun k => fieldOf p (8 * (368 + 5 * k)) 40)).takeWhile (fun v => decide (v % 256 ≠ 0))

/-- The FEATURES list written. -/
def featureCycles (p : Profile) : List Cycle := ((featureList p).map (fun v => setFeature (v % 256) (v / 256))).flatten

/-- PULSE_LIMIT written as P1 at PULSE_FEAT; nothing where PULSE_FEAT is 0x00 (R197). -/
def pulseCycles (p : Profile) : List Cycle := if p.byte 19 = 0 then [] else setFeature (p.byte 19) (p.byte 18)

/-- What is due of the FEATURES list and PULSE_LIMIT (R197, R392). -/
def setupCycles (p : Profile) (e : Die) : List Cycle :=
  (if e.featDue then featureCycles p else []) ++ (if e.pulseDue then pulseCycles p else [])

/-- A program waits for a write of PULSE_LIMIT (R197). -/
def Die.pulseWaits (e : Die) (p : Profile) : Bool := e.pulseDue && decide (p.byte 19 ≠ 0)

/-- The raise to SDR code 0 (R145): on an NV-LPDDR4 die the timing-mode feature, on a Toggle DDR die what its family entry names, if anything. -/
def raiseCycles (toggle : Bool) (f : Option Family) : List Cycle :=
  if toggle then (f.bind Family.sdrWrite).elim [] (fun w => setFeature (w.toNat % 256) (w.toNat / 256))
  else setFeature 0x01 (Config.timingParams false 0).toNat

/-- `x + y` of two bytes as signed numbers, saturating at −128 and 127 (R255). -/
def addSigned (x y : Nat) : Nat :=
  let s := (BitVec.ofNat 8 x).toInt + (BitVec.ofNat 8 y).toInt
  (BitVec.ofInt 8 (if s < -128 then -128 else if 127 < s then 127 else s)).toNat

/-- One SET FEATURES operation of an entry: its feature address and P1 to P4, as five bytes (R105). -/
def entryOp (w : BitVec 128) (k : Nat) : Nat := fieldOf w (40 * k) 40

/-- An operation of a SOFT entry applied to the best entry: each of P1 to P4 of the best entry's operation at the same feature address raised by
the SOFT entry's byte; as written where the best entry has no such operation (R255). -/
def softOp (soft : Nat) (best : BitVec 128) : Nat :=
  match (List.range 2).find? (fun k => decide (entryOp best k % 256 = soft % 256)) with
  | none => soft
  | some k => soft % 256 + ((List.range 4).map (fun i =>
      addSigned (entryOp best k / 2 ^ (8 * (i + 1)) % 256) (soft / 2 ^ (8 * (i + 1)) % 256) * 2 ^ (8 * (i + 1)))).sum

/-- The SET FEATURES operations that make a LUN hold an entry: 0 to 15 NOMINAL and the RETRY steps; 16 + e the low, and 32 + e the high sense entry around
best entry e (R105, R250, R255). -/
def entryOps (p : Profile) (entry : Nat) : List Nat :=
  let w := if entry < 16 then p.retry entry else if entry < 32 then p.retry 16 else p.retry 17
  let best := p.retry (entry % 16)
  (List.range 2).map (fun k => if entry < 16 then entryOp (BitVec.ofNat 128 w) k
    else softOp (entryOp (BitVec.ofNat 128 w) k) (BitVec.ofNat 128 best))

/-- The LUN SET FEATURES cycles that set a retry entry: its operations with a feature address other than 0x00 (R105, R146). -/
def entryCycles (p : Profile) (d entry : Nat) : List Cycle :=
  ((entryOps p entry).map (fun v =>
    if v % 256 = 0 then [] else [Cycle.cmd 0xD5] ++ lunBytes p d ++ [.addr (BitVec.ofNat 8 v)] ++ paramCycles (v / 256) ++ [.busy])).flatten

/-- The cycles of a page read of the unit pages, multi-plane where there are several (R146, R154, R155). -/
def readCycles (p : Profile) (e : Die) (slc : Bool) (i : Nat) (pages : List Nat) : List Cycle :=
  let n := pages.length
  e.prefixCycles (slc && decide (n = 1)) ++ ((List.range n).map (fun j =>
    let a := pageAddr p slc i (pages.getD j 0) 0
    [Cycle.cmd 0x00] ++ colBytes p 0 ++ rowBytes p a ++ (if j + 1 < n then [.cmd 0x32, .busy] else [.cmd 0x30]))).flatten

/-- The command and address cycles that open a program of a unit page (R146). -/
def programOpen (p : Profile) (e : Die) (slc : Bool) (i n : Nat) (first : Bool) : List Cycle :=
  e.prefixCycles (slc && first) ++ [.cmd 0x80] ++ colBytes p 0 ++ rowBytes p (pageAddr p slc i n 0)

/-- The cycles that bring one codeword of a program to the die (R146, R155): the command that opens a further plane's page before its first codeword, CHANGE WRITE COLUMN
where the burst has been split, the codeword's image, and after a page's last codeword its confirm. -/
def dataInStep (p : Profile) (e : Die) (o : DieOp) (u : Burst) (image : BitVec 36864) : List Cycle :=
  let a := u.places.getD u.moved (0, 0)
  let before := if u.moved = 0 then []
    else if a.2 = 0 then programOpen p e o.slc o.recIdx a.1 false
    else if u.split then [.cmd 0x85] ++ colBytes p a.2
    else []
  let after := if a.2 ≠ 3 then [] else if u.moved + 1 < u.places.length then [Cycle.cmd 0x11, .busy] else [.cmd 0x10]
  before ++ [.codeword image p.cwBytes] ++ after

/-- The multi-plane erase of block `k` of unit `i` (R146, R155, R209). -/
def eraseCycles (p : Profile) (e : Die) (slc : Bool) (i k : Nat) : List Cycle :=
  let n := p.planes
  e.prefixCycles (slc && decide (n = 1)) ++ ((List.range n).map (fun j =>
    let a : Addr := { pageAddr p slc i 0 0 with block := recUnit i * p.g + k, plane := j }
    [Cycle.cmd 0x60] ++ rowBytes p a ++ (if j + 1 < n then [.cmd 0xD1, .busy] else [.cmd 0xD0]))).flatten

/-- The cycles that bring one codeword of a read from the die: its column selected first, unless the burst goes straight on to it (R149, R154, R155). -/
def dataOutStep (p : Profile) (o : DieOp) (u : Burst) : List Cycle :=
  let a := u.places.getD u.moved (0, 0)
  let last := u.places.getD (u.moved - 1) (0, 0)
  (if u.moved ≠ 0 && !u.split && decide (a = (last.1, last.2 + 1)) then []
   else [Cycle.cmd 0x06] ++ colBytes p a.2 ++ rowBytes p (pageAddr p o.slc o.recIdx a.1 0) ++ [.cmd 0xE0]) ++ [.dout p.cwBytes]

/-- The operation of a die that a command's cycles are for: the read under a suspension, or the operation issued. -/
def Die.current (e : Die) : Option DieOp :=
  match e.under with
  | some u => some u
  | none => e.op

/-- The 16 pattern bytes of training. -/
def patternCycles : List Cycle := (lowBytes Config.trainPattern.toNat 16).map Cycle.data

/-- READ DQ TRAINING of a die (R146, R179). -/
def readDqCycles (p : Profile) (e : Die) (d : Nat) : List Cycle :=
  [.cmd (e.opcode 0x62 Family.readDqOp)] ++ lunBytes p d ++ patternCycles ++ [.dout 16]

/-- WRITE TRAINING TX and RX of a die (R146, R179). -/
def writeDqCycles (p : Profile) (e : Die) (d : Nat) : List Cycle :=
  [.cmd (e.opcode 0x63 Family.writeTxOp)] ++ lunBytes p d ++ patternCycles ++
    [.cmd (e.opcode 0x64 Family.writeRxOp)] ++ lunBytes p d ++ [.dout 16]

/-- Steps 3 to 6 of a full training on one die (R176, R177): NV-LPDDR4 at code 3, ZQ CALIBRATION LONG where it is offered, ODT and drive codes where the target is
an extended code, ODT CONFIGURE, the FEATURES list and PULSE_LIMIT. -/
def setUpCycles (p : Profile) (e : Die) (d target : Nat) : List Cycle :=
  let xr := fun (lo : Nat) (v : Option Nat) => match (if 10 ≤ target then e.ext else none), v with
    | some x, some n => setFeature (fieldOf x lo 8) n
    | _, _ => []
  callCycles e p d ++ setFeature 0x01 (Config.timingParams e.toggle 3).toNat ++
    (if e.offersZq then [Cycle.cmd 0xF9] ++ lunBytes p d ++ [.busy] else []) ++ xr 56 e.odtCode ++ xr 72 e.drvCode ++
    [.cmd 0xE2] ++ lunBytes p d ++ paramCycles Config.odtMatrix.toNat ++ featureCycles p ++ pulseCycles p

/-- Step 7 of a full training on one die: the rate switched to code `r` (R172, R176, R177); below an extended target XR_FEAT returns to the timing-mode rate. -/
def switchCycles (p : Profile) (e : Die) (d target r : Nat) : List Cycle :=
  let xr := fun (v : Nat) => (e.ext.filter (fun _ => decide (10 ≤ target))).elim [] (fun x => setFeature (fieldOf x 48 8) v)
  callCycles e p d ++ if 10 ≤ r then xr r else xr 0 ++ setFeature 0x01 (Config.timingParams e.toggle r).toNat

/-- The cycles of a full training of a channel's bound dies, each with its profile (R176, R177, R180): steps 3 to 6 once, steps 7 and 8 at each code tried. The search of
R179 repeats the training cycles at its taps; they stand here once. -/
def trainCycles (dies : List (Nat × Die × Profile)) (tried : List Nat) : List Cycle :=
  let target := tried.headD 0
  (dies.map (fun e => setUpCycles e.2.2 e.2.1 e.1 target)).flatten ++
    (tried.map (fun r =>
      (dies.map (fun e => switchCycles e.2.2 e.2.1 e.1 target r)).flatten ++
        (dies.map (fun e => callCycles e.2.1 e.2.2 e.1 ++ readDqCycles e.2.2 e.2.1 e.1 ++ writeDqCycles e.2.2 e.2.1 e.1)).flatten)).flatten

/-- The cycles by which one die is discovered (R145, R146, R151): in boot timing RESET, READ ID and READ PARAMETER PAGE, with READ STATUS on a target of one LUN;
its volume address where it hangs on an enable chain; and the raise to code 0 where 20 ns cycles are shown. The length of the pages read and the feature that
appoints a volume are ONFI 5.1's (PRESUMED, log entry 87). -/
def discoverCycles (f : DieFind) (fam : Option Family) : List Cycle :=
  [.ce f.line, .cmd 0xFF, .busy] ++ (if fam.any (fun m => decide (m.profile.lpt = 1)) then [.cmd 0x70, .dout 1] else []) ++
    [.cmd 0x90, .addr 0x00, .dout 8, .cmd 0x90, .addr 0x20, .dout 4, .cmd 0xEC, .addr (if f.toggle then 0x40 else 0x00), .busy,
     .dout (256 + f.ext.elim 0 ExtPage.len)] ++
    (if f.volume then setFeature 0x58 f.die else []) ++ (if f.sdr20 && fam.isSome then raiseCycles f.toggle fam else [])

/-- The cycles of a bus task but a data burst (R146). -/
def taskCycles (k : Chan) (e : Die) (p : Profile) (t : BusTask) : List Cycle :=
  let d := t.die
  let sel := selectCycles k e p d
  match t.kind with
  | .reset =>
    match (e.current).elim 0 DieOp.block with
    | 0 => sel ++ [.cmd 0xFA] ++ lunBytes p d
    | 1 => sel ++ [.cmd 0xFC]
    | _ => sel ++ [.cmd 0xFF]
  | .raise => sel ++ raiseCycles e.toggle e.family
  | .suspend =>
    match e.family with
    | none => []
    | some f => sel ++ [.cmd f.suspOp] ++ (if f.suspL then lunBytes p d else [])
  | .resume =>
    match e.family with
    | none => []
    | some f => sel ++ [.cmd f.resOp] ++ (if f.resL then lunBytes p d else [])
  | .poll => sel ++ [.cmd (e.opcode 0x78 Family.statusOp)] ++ lunBytes p d ++ [.dout 1]
  | .train => sel ++ (if e.offersZq then [Cycle.cmd 0xD9] ++ lunBytes p d ++ [.busy] else []) ++ readDqCycles p e d
  | .fillCmd | .arrayCmd =>
    match e.current with
    | none => []
    | some o =>
      let setEntry := if e.entry = o.entry then [] else entryCycles p d o.entry
      match o.kind with
      | .fill | .read | .raw => sel ++ setEntry ++ readCycles p e o.slc o.recIdx o.pages
      | .program | .parity => sel ++ programOpen p e o.slc o.recIdx (o.pages.headD 0) true
      | .erase => sel ++ eraseCycles p e o.slc o.recIdx o.block
      | .setup => sel ++ setupCycles p e
      | .reset => []
  | .fillOut | .dataOut | .dataIn => []

/-- The current operation of a die changed. -/
def Die.onCurrent (e : Die) (f : DieOp → DieOp) : Die :=
  match e.under with
  | some u => { e with under := some (f u) }
  | none => { e with op := e.op.map f }

/-- What a bus task leaves of a LUN's operation, a data-in once its last codeword has gone. The suspension counts and the erase age are kept by the callers' records and
registers (R145, R166, R169, R209, R223). -/
def Die.afterTask (e : Die) (t : TaskKind) : Die :=
  match t with
  | .raise => { e with mode := .sdr }
  | .suspend => { e with op := e.op.map (fun o => { o with phase := .suspending }) }
  | .resume => { e with op := e.op.map (fun o => { o with phase := .busy, gapDone := false, pol := none, begun := [] }) }
  | .fillCmd | .arrayCmd =>
    match e.current with
    | none => e
    | some o =>
      match o.kind with
      | .program | .parity => e.onCurrent (fun o => { o with phase := .dataIn })
      | .erase =>
        let e1 := e.onCurrent (fun o => { o with phase := .busy })
        if o.block = 0 then { e1 with eraseAge := 0, eraseSusp := 0, eraseActive := true, ageMarked := false } else e1
      | .fill | .read | .raw => { e.onCurrent (fun o => { o with phase := .busy }) with entry := o.entry }
      | .setup | .reset => e.onCurrent (fun o => { o with phase := .busy })
  | .dataIn => e.onCurrent (fun o => { o with phase := .busy })
  | .reset => { e with op := e.op.map (fun o => { o with phase := .busy }) }
  | _ => e

/-- A LUN's operation is one that runs at the die or stands suspended (R161, CHN_DIEd). -/
def OpPhase.running : OpPhase → Bool
  | .busy => true
  | .suspending => true
  | .unsuspendable => true
  | _ => false

/-- CHN_DIEd.BUSY. -/
def Die.busy (e : Die) : Bool :=
  match e.current with
  | none => false
  | some o => o.phase.running

/-- CHN_DIEd.SUSPENDED. -/
def Die.suspended (e : Die) : Bool :=
  match e.op with
  | none => false
  | some o => decide (o.phase = .suspended) || decide (o.phase = .resuming)

/-- No operation of the channel has run for GAP_US yet. -/
def Chan.gapAnew (k : Chan) : Chan :=
  { k with dies := k.dies.foldl (fun (m : Tab Die) e => Tab.set Die.absent m e.1 { e.2 with op := e.2.op.map (fun o => { o with gapDone := false }) }) k.dies }

/-- A LUN of the channel runs an operation for command `q`, or holds one suspended (R23). -/
def Chan.runsFor (k : Chan) (q : Nat) : Bool := List.any k.dies (fun e => (e.2.op.toList ++ e.2.under.toList).any (fun o => decide (o.seq = q)))

/-- Every LUN a half waits on is polled before anything else on its channel (R160, R537, R618). -/
def Chan.pollAll (k : Chan) : Chan :=
  { k with rbLatch := false, mustPoll := (List.filter (fun e => e.2.busy) k.dies).map Prod.fst, tasks := k.tasks.filter (fun t => decide (t.kind ≠ .poll)) }

/-- A channel whose pins are parked: the volumes must be selected again, and nothing is terminated (R62, R153, R175). -/
def Chan.parked (k : Chan) : Chan := { k with volSel := [], odtDie := none, odtPad := false }

/-- Programs whose confirm cycle has not been issued go back to their first cycle (R24, R84). -/
def Chan.restartSetups (k : Chan) : Chan :=
  (List.filter (fun e => e.2.current.any (fun o => decide (o.phase = .dataIn))) k.dies).foldl (fun (c : Chan) e =>
    ((c.dropTasks e.1).onDie e.1 (fun d => d.onCurrent (fun o => { o with phase := .issue }))).addTask .arrayCmd e.1)
    { k with burst := none }

/-- A channel as an engine newly bound to it goes on: it polls every die first, issues again what was not confirmed, and a cut data-out in full (R24). -/
def Chan.reissue (k : Chan) : Chan :=
  { k.restartSetups with rbLatch := false, mustPoll := k.bound.map Prod.fst, tasks := k.restartSetups.tasks.filter (fun t => decide (t.kind ≠ .poll)) }

end Sys2Proof.Machine
end

