-- ==== Sys2Proof/Machine/IrqOps.lean ====
section
/-!
DEFINITION. The interrupt concentrator's operations: filter, claim, end of interrupt, pending and mask writes, commit (14).
-/

namespace Sys2Proof.Machine

open Sys2Proof

/-- The half with its concentrator changed. -/
def Half.onIrq (x : Half) (f : Irq → Irq) : Half := { x with irq := f x.irq }

/-- A port response without poison. -/
def Resp.value (n : Nat) : Resp := { ok := true, data := n, poison := false }

/-- The error response. -/
def Resp.error : Resp := { ok := false, data := 0, poison := false }

/-- A level source's filter passes: its filtered level takes the raw condition and the sources are assigned again (R509, R512). -/
def Half.filterPass (v : Variant) (x : Half) (s : Nat) : Half :=
  if srcExists v s && !srcEdge s then
    x.onIrq (fun i => (i.onSrc s (fun y => { y with level := x.rawLevel s })).assign)
  else x

/-- The winner of a claim by `k`: the eligible source of highest PRIO, lowest ID first (R519). -/
def Irq.winner (i : Irq) (k : Nat) : Option (Nat × Src) :=
  (i.srcs.filter (fun e => i.eligible e.1 e.2 k)).foldl
    (fun o e => match o with
      | none => some e
      | some w => if w.2.prio < e.2.prio then some e else some w) none

/-- The claim word of R527. -/
def claimWord (id prio level count : Nat) : Nat := at' count 0 8 + at' prio 8 4 + at' level 12 4 + at' id 16 10

/-- The spurious claim word (R519). -/
def spuriousWord : Nat := 0x03FF0000

/-- The word a claim by `k` would return (R519, R644). -/
def Irq.claimValue (i : Irq) (k : Nat) : Nat :=
  match i.winner k with
  | none => spuriousWord
  | some (s, y) => claimWord s y.prio ((i.proc k).stack.length + 1) (if srcEdge s then y.count else 0)

/-- A claim by processor `k` (R519, R521): the winner becomes active and is pushed, and an edge source's count is taken; without one SPUR_CNT
counts. In both cases the output falls, and rises again where a source is then assigned. -/
def Irq.claim (i : Irq) (k : Nat) : Irq :=
  match i.winner k with
  | none => (i.onProc k (fun p => { p with out := false, spurCnt := satAdd 65535 p.spurCnt 1 })).assign
  | some (s, y) =>
    let i1 := i.onSrc s (fun z => { z with active := some k, count := if srcEdge s then 0 else z.count })
    let i2 := { i1 with claims := i.claims + 1 }
    (i2.onProc k (fun p => { p with out := false, run := y.prio, stack := (p.run, s) :: p.stack,
                                    claimed := i.claims + 1 })).assign

/-- An end of interrupt by processor `k` of LEVEL and ID (R522, R523). `raw` is the filtered level of a level source, sampled. -/
def Irq.eoi (i : Irq) (k level id : Nat) : Irq :=
  if id = 0x3FF then i
  else
    let p := i.proc k
    match p.stack with
    | [] => i.onProc k (fun p => { p with eoiErr := true })
    | (saved, s) :: rest =>
      if level = p.stack.length && id = s then
        ((i.onSrc s (fun y => { y with active := none })).onProc k
          (fun p => { p with run := saved, stack := rest })).assign
      else i.onProc k (fun p => { p with eoiErr := true })

/-- The sources of register word `n` whose bit of `w` is 1 and which the configuration has (R507, R527). -/
def wordSources (v : Variant) (n : Nat) (w : Word) : List Nat :=
  ((List.range 32).filter (fun k => w.getLsbD k && srcExists v (32 * n + k))).map (fun k => 32 * n + k)

/-- A pending set write: one event on each edge source named (R512, R513). -/
def Irq.pendSet (v : Variant) (i : Irq) (n : Nat) (w : Word) : Irq :=
  ((wordSources v n w).filter srcEdge).foldl Irq.count i

/-- A pending clear write: the counts of the edge sources named become zero (R513). -/
def Irq.pendClear (v : Variant) (i : Irq) (n : Nat) (w : Word) : Irq :=
  ((wordSources v n w).filter srcEdge).foldl (fun j s => j.onSrc s (fun y => { y with count := 0 })) i

/-- A mask set write (R514). -/
def Irq.maskSet (v : Variant) (i : Irq) (n : Nat) (w : Word) : Irq :=
  (wordSources v n w).foldl (fun j s => j.onSrc s (fun y => { y with mask := true })) i

/-- A mask clear write: the sources are presented at once (R514). -/
def Irq.maskClear (v : Variant) (i : Irq) (n : Nat) (w : Word) : Irq :=
  ((wordSources v n w).foldl (fun j s => j.onSrc s (fun y => { y with mask := false })) i).assign

/-- IRQ_COMMIT.GO: every PRIO and TARGET shadow applies at the claim boundary, which is found at once, since a command that claims or
ends an interrupt has ended when the next begins (R518). -/
def Irq.commit (i : Irq) : Irq :=
  (i.srcs.foldl (fun j e => j.onSrc e.1 (fun y => { y with prio := y.prioSh, target := y.targetSh })) i).assign

/-- IRQ_SRCCFGs as read (R527). -/
def srcCfg (s : Nat) (y : Src) : Nat :=
  at' y.prioSh 0 4 + at' y.filt 4 6 + at' y.filtAon 10 3 + at' (bitOf (srcEdge s)) 13 1 + at' y.targetSh.toNat 16 8

/-- IRQ_SRCCFGs written: PRIO and TARGET go to the shadow (R518, R527). -/
def Irq.writeCfg (i : Irq) (s : Nat) (w : Word) : Irq :=
  i.onSrc s (fun y => { y with prioSh := w.field 0 4, filt := w.field 4 6, filtAon := w.field 10 3,
                               targetSh := BitVec.ofNat 8 (w.field 16 8) })

/-- A register word of one bit for each of 32 sources. -/
def Irq.bits (i : Irq) (n : Nat) (f : Nat → Src → Bool) : Nat :=
  ((List.range 32).map (fun k => at' (bitOf (f (32 * n + k) (i.src (32 * n + k)))) k 1)).sum

end Sys2Proof.Machine
end

