-- ==== Sys2Proof/Machine/GutOps.lean ====
section
/-!
DEFINITION. The gutters' registers and the protected memories' operations (12).
-/

namespace Sys2Proof.Machine

open Sys2Proof

/-! ### Gutters -/

/-- The read pointer as an item number: that of the item it stands in or before. -/
def Gutter.pointer (u : Gutter) : Nat :=
  match u.current with
  | none => u.nextNum
  | some i => i.num

/-- MARK: the read pointer saved, or the start of the item it lies inside (R481). -/
def Gutter.setMark (u : Gutter) : Gutter := { u with mark := some u.pointer }

/-- REWIND: the read pointer at the mark, or at the oldest item held (R481). -/
def Gutter.rewind (u : Gutter) : Gutter := { u with rdItem := u.mark.getD u.oldest, rdWord := 0 }

/-- RELEASE: every item wholly before the read pointer freed, and the mark cleared (R481). -/
def Gutter.release (u : Gutter) : Gutter :=
  { u with items := u.items.filter (fun i => decide (u.rdItem ≤ i.num)), mark := none }

/-- A GUT_CTLg write's change of the gutter, in the order RELEASE, REWIND, MARK; ignored while the gutter spills (R481, R483). -/
def Gutter.control (u : Gutter) (mark rewind release : Bool) : Gutter :=
  if u.spilling then u
  else
    let u1 := if release then u.release else u
    let u2 := if rewind then u1.rewind else u1
    if mark then u2.setMark else u2

/-- UNSTALL: every stalled read ends and returns zero (R479); ignored while the gutter spills. -/
def Half.unstall (x : Half) (g : Nat) : Half :=
  let u := x.gutter g
  if u.spilling || decide (u.stalled = 0) then x
  else { x.onGutter g (fun u => { u with stalled := 0 }) with port := Resp.value 0 }

/-- One 4-byte read of GUT_RDg (R478, R479, R482, R483), which clears TMO: the next word; zero while the gutter spills; a stall where no item is readable. -/
def Half.gutRead (x : Half) (g : Nat) : Half :=
  let u := x.gutter g
  if u.spilling then { x.onGutter g (fun u => { u with tmo := false }) with port := Resp.value 0 }
  else if u.peek.isSome then x.gutTake g
  else x.onGutter g (fun u => { u with stalled := u.stalled + 1, tmo := false })

/-- The value GUT_PKg reads (R479, R483). -/
def Gutter.pkValue (u : Gutter) : Resp :=
  if u.spilling then Resp.value 0
  else
    match u.peek with
    | none => Resp.value 0
    | some (w, p) => { ok := true, data := w.toNat, poison := p }

/-- The unread timeout: TMO set where TMO_US is not zero and an unread item waits (R482). -/
def Gutter.timeout (u : Gutter) : Gutter :=
  if decide (u.tmoUs ≠ 0) && decide (0 < u.unread) then { u with tmo := true } else u

/-- The spill writes of a gutter's oldest item being spilled are all acknowledged: SPWR advances past it and its cells are freed; then further
items are copied (R483). -/
def Half.spillAck (x : Half) (g : Nat) : Half :=
  match (x.gutter g).spOut with
  | [] => x
  | (num, k) :: r =>
    let y := x.onGutter g (fun u =>
      { u with spOut := r, spWr := (u.spWr + k) % u.ring, items := u.items.filter (fun i => decide (i.num ≠ num)) })
    { y with dma := (List.range k).foldl (fun d _ => d.endWrite (fun m => decide (m.kind = WriteKind.spill g))) y.dma }.spill g
      ((y.gutter g).items.length + 1)

/-- An error response to a spill write: SPILL_ERR, and the spill stops (R483). -/
def Half.spillFail (x : Half) (g : Nat) : Half :=
  if (x.gutter g).spOut.isEmpty then x
  else
    let y := x.onGutter g (fun u => { u with spillErr := true, spStop := true, spOut := [] })
    { y with dma := y.dma.keepWrites (fun m => decide (m.kind ≠ .spill g)) }

/-- GUT_SPRDg written: slots freed, and waiting items copied (R483). -/
def Half.spillFree (x : Half) (g : Nat) (w : Word) : Half :=
  let y := x.onGutter g (fun u => { u with spRd := w.field 0 16 })
  y.spill g ((y.gutter g).items.length + 1)

/-- GUT_CFGg written: LIMIT at the nearer limit, WMARK 0 as 1; setting SPILL restarts the ring with both indices 0, copies what the gutter
holds and ends stalled reads, which return zero; clearing it ends an error's stop, and nothing waits for the copies on their way (R475, R483, R485). -/
def Half.writeGutCfg (v : Variant) (x : Half) (g : Nat) (w : Word) : Half :=
  let y := x.onGutter g (fun u =>
    let r := { u with limit := clampTo 16 (Config.gutterCells v) (w.field 0 14), wmark := clampTo 1 255 (w.field 16 8) }
    if w.bit 14 then
      if u.spill then r else { r with spill := true, spWr := 0, spRd := 0, spStop := false, spOut := [] }
    else { r with spill := false, spStop := false, spOut := [] })
  if w.bit 14 then
    let z := if (y.gutter g).stalled = 0 then y else { y.onGutter g (fun u => { u with stalled := 0 }) with port := Resp.value 0 }
    z.spill g ((z.gutter g).items.length + 1)
  else { y with dma := y.dma.keepWrites (fun m => decide (m.kind ≠ .spill g)) }

/-- A gutter item that its poisoned length word loses (R468). -/
def Gutter.loseItem (u : Gutter) (num : Nat) : Gutter :=
  match u.items.find? (fun i => decide (i.num = num)) with
  | none => u
  | some i => u.dropItem i

/-! ### Protected memories -/

/-- Memory `m` of R459. -/
def Half.mem (x : Half) (m : Nat) : Mem := Tab.get Mem.reset x.mems.tab m

/-- The half with a memory changed. -/
def Half.onMem (x : Half) (m : Nat) (f : Mem → Mem) : Half :=
  { x with mems := { x.mems with tab := Tab.modify Mem.reset x.mems.tab m f } }

/-- The fill of a memory: zero in every word whose written flag is clear, every flag set (R470, R471). -/
def Mem.fill (y : Mem) : Mem := { y with allWritten := true, fillDone := true }

/-- The groundsheet fill of every memory: zero in every word, written before or not, so no word stays poisoned (R470). -/
def Half.fillAll (x : Half) : Half :=
  (List.range 5).foldl (fun y m => y.onMem m (fun z => { z.fill with poisoned := [] })) x

/-- The word the scrubber reads has been written: by a fill, or by the structure that holds something in it (R460, R465, R472). -/
def Mem.isWritten (y : Mem) (hit : MemHit) : Bool := y.allWritten || decide (hit ≠ .unused)

/-- An error counted at word `w`, and its word latched (R473, R485). -/
def Mem.countError (y : Mem) (w : Nat) (ue : Bool) : Mem :=
  if ue then { y with ue := satAdd 65535 y.ue 1, word := w, lastUe := true, valid := true }
  else { y with ce := satAdd 65535 y.ce 1, word := w, lastUe := false, valid := true }

/-- The scrubber moves on by one word, wrapping and counting a pass at the end (R472). -/
def Mem.scrubNext (words : Nat) (y : Mem) : Mem :=
  if y.scrubAt + 1 < words then { y with scrubAt := y.scrubAt + 1 }
  else { y with scrubAt := 0, passes := y.passes + 1 }

/-- MEM_CLRm (R473, R485). -/
def Mem.clear (y : Mem) (ce ue : Bool) : Mem :=
  let y1 := if ce then { y with ce := 0 } else y
  if ue then { y1 with ue := 0, valid := false } else y1

/-- MEM_BANKUEb of a bank. -/
def Half.bankUe (x : Half) (b : Nat) : Nat := Tab.get 0 x.mems.bankUe b

end Sys2Proof.Machine
end

