-- ==== Sys2Proof/Machine/Wake.lean ====
section
/-!
DEFINITION. Pad enables, waking a half, and an access through its target port (R34, R52-R58, R70, R535-R543, R675).
-/

namespace Sys2Proof.Machine

open Sys2Proof

/-! ### Pad enables -/

/-- Cells of the half's live banks. -/
def Half.poolCells (x : Half) : Nat := x.pool.live.length * Config.bankCells

/-- Channels whose reserve a half holds: those it holds enabled (R29, R650). -/
def Block.reserved (b : Block) (h : HalfId) : Nat := (b.pair.enable.filter (fun e => decide (e.2 = h))).length

/-- Cells under holds: 33 a unit page (R200, 01 *An append, end to end*). -/
def Half.heldCells (x : Half) : Nat := (x.pool.holds.map (fun e => 33 * e.2.pages.length)).sum

/-- Codewords at the head of a command whose data has left the DMA: their cells are free again (R428, R453). -/
def Half.sentCws (x : Half) (c : Ctx) : Nat :=
  match c.xfer with
  | .complete => c.cws.length
  | .active n =>
    let t := Tab.get Stream.reset x.dma.streams n
    if t.metaLen = 0 then t.moved / 4096 else 0
  | _ => 0

/-- The data of a codeword that has ended is still wanted: a command's own until it has been sent, a member's until its row is rebuilt; that of a read-back, a sample and a
PATROL is not. -/
def Ctx.keepsCw (c : Ctx) (sent i : Nat) (k : Cw) : Bool :=
  match k.role with
  | .main => decide (c.opcode ≠ .patrol) && decide (sent ≤ i)
  | .member _ _ => true
  | _ => false

/-- Cells of the RAW and OUT sets a codeword holds: none before its first image arrives, both until that image is classified, then the RAW set, and once it is decoded
the OUT set, a core's reserve exchanged for the RAW set (R238, R240, R242). -/
def Cw.images (k : Cw) : Nat :=
  match k.st with
  | .sensing => if k.step ≤ 1 then 0 else 9
  | .arriving => if k.step ≤ 1 then 18 else 9
  | _ => 9

/-- Cells of the RAW and OUT sets of a command's codewords on channel `c`. -/
def Ctx.imagesOn (x : Ctx) (sent c : Nat) : Nat :=
  ((List.range x.cws.length).map (fun i =>
    match x.cws[i]? with
    | none => 0
    | some k => if recCh k.idx = c && (decide (k.st ≠ .done) || x.keepsCw sent i k) then Cw.images k else 0)).sum

/-- Codewords of a command on channel `c` that hold TRY, SL and SH sets from `which`. -/
def Ctx.setsOn (x : Ctx) (c : Nat) (which : CwSets) : Nat :=
  (x.cws.filter (fun k => decide (recCh k.idx = c) && decide (k.sets = which))).length

/-- A unit page's data is in the pool: until it is programmed, or read back (R38, R205). A failing page's cells are under a hold; a pad page needs none. -/
def Ctx.keepsPage (c : Ctx) (p : UPage) : Bool :=
  p.held && !p.pad && ((c.entry.getLsbD 8 && decide (p.st = .passed)) || !(decide (p.st = .passed) || decide (p.st = .failed)))

/-- Cells of a command's program data on channel `c`: 33 a unit page (R200). -/
def Ctx.pagesOn (x : Ctx) (c : Nat) : Nat := if recCh x.dstIdx = c then 33 * (x.pages.filter x.keepsPage).length else 0

/-- What a channel uses of the pool: its ladder reserve, cells of RAW and OUT sets, cells of TRY, SL and SH sets beyond the ladder reserve, and cells of program
data (R240, R241, R429). -/
structure ChanUse where
  ladder : Bool
  reads  : Nat
  extra  : Nat
  progs  : Nat
  deriving DecidableEq, Repr

/-- What channel `c` uses. -/
def Block.useOf (b : Block) (c : Nat) : ChanUse :=
  let l := b.ha.que.readers.map (fun e => (b.ha.sentCws e.2, e.2)) ++ b.hb.que.readers.map (fun e => (b.hb.sentCws e.2, e.2))
  { ladder := l.any (fun e => decide (0 < e.2.setsOn c .ladder))
    reads := (l.map (fun e => e.2.imagesOn e.1 c)).sum
    extra := 27 * (l.map (fun e => e.2.setsOn c .shared)).sum
    progs := (l.map (fun e => e.2.pagesOn c)).sum }

/-- Cells beyond the read floor that want a place in the rest of a reserve (R429). -/
def ChanUse.rest (u : ChanUse) : Nat := u.reads - 36 + u.progs

/-- Cells a channel uses of a reserve of `r` cells: the ladder reserve of 27, the read floor of 36 for RAW and OUT sets alone, and the rest (R429). -/
def ChanUse.inReserve (u : ChanUse) (r : Nat) : Nat := 27 * bitOf u.ladder + Nat.min u.reads 36 + Nat.min u.rest (r - 63)

/-- Shared cells a channel uses. -/
def ChanUse.beyond (u : ChanUse) (r : Nat) : Nat := u.rest - (r - 63) + u.extra

/-- RES_USED of POOL_CHc: what stands in the channel's reserve (R650). -/
def Block.resUsed (b : Block) (h : HalfId) (c : Nat) : Nat := (b.useOf c).inReserve (b.half h).pool.reserve

/-- Shared cells a channel uses at the half that drives it (R650). -/
def Block.beyond (b : Block) (h : HalfId) (c : Nat) : Nat := (b.useOf c).beyond (b.half h).pool.reserve

/-- Shared cells in use: what the channels use beyond their reserves (R650). -/
def Block.sharedUsed (b : Block) (h : HalfId) : Nat := ((b.half h).twn.drives.map (fun c => b.beyond h c)).sum

/-- FREE of POOL_STAT: cells outside every channel reserve that no use takes; the journals are set aside 12 KiB for every bound die of the
pair (R554, R650). -/
def Block.poolFree (b : Block) (h : HalfId) : Nat :=
  let x := b.half h
  x.poolCells - x.pool.reserve * b.reserved h - b.sharedUsed h - x.heldCells -
    24 * (b.ha.boundDies + b.hb.boundDies) - x.par.used

/-- Channel `c` may take `reads` cells for RAW and OUT sets and `progs` for program data: from its own reserve, and what goes beyond it from free shared cells, never from another
channel's reserve (R29, R429). -/
def Block.roomFor (b : Block) (c reads progs : Nat) : Bool :=
  match b.driver c with
  | none => true
  | some g =>
    let u := b.useOf c
    let r := (b.half g).pool.reserve
    decide ({ u with reads := u.reads + reads, progs := u.progs + progs }.beyond r - u.beyond r ≤ b.poolFree g)

/-- MIN_FREE follows FREE down (R650). -/
def Block.notePool (b : Block) (h : HalfId) : Block :=
  b.onHalf h (fun x => { x with pool := { x.pool with minFree := Nat.min x.pool.minFree (b.poolFree h) } })

/-- The pad ring of a channel. -/
def Pair.pad (p : Pair) (c : Nat) : PadRing := Tab.get PadRing.reset p.pads c

/-- The pair with the pad ring of a channel changed. -/
def Pair.onPad (p : Pair) (c : Nat) (f : PadRing → PadRing) : Pair := { p with pads := Tab.modify PadRing.reset p.pads c f }

/-- The source a channel's pad ring selects: the half whose enable is active; park while PORST_n is low, in the peg phase and while freeze is active (R61). -/
def Pair.padSource (p : Pair) (c : Nat) : Option HalfId :=
  if decide (p.phase = .parked) && !p.frozen then p.enable.find? c else none

/-- A pad ring that selects a source: going to park, it drives every CE_n high before its other outputs move (R62). -/
def PadRing.select (r : PadRing) (o : Option HalfId) : PadRing :=
  if r.source = o then r else { r with source := o, moves := if o.isNone then [.chipEnables, .others] else [] }

/-- The pad rings of a list of channels, each at its source (R61, R62). -/
def Block.settlePads (b : Block) (l : List Nat) : Block :=
  b.onPair (fun p => l.foldl (fun q c => q.onPad c (fun r => r.select (q.padSource c))) p)

/-- WP_n driven on the channels a half holds enabled; the pad ring keeps the level from then on (R63). -/
def Block.driveWp (b : Block) (h : HalfId) (on : Bool) : Block :=
  b.onPair (fun p => ((p.enable.filter (fun e => decide (e.2 = h))).map Prod.fst).foldl (fun q c => q.onPad c (fun r => { r with wp := on })) p)

/-- WP_n high is what a half drives: it is admin ready, and no blank half that waits for FORMAT (R634). -/
def Half.drivesWpHigh (x : Half) : Bool := x.ready && !(x.boot.blank && !x.boot.formatted)

/-- The interlock gives half `h` its enable on channel `c`, unless the other half's is active (R34) or freeze holds the ownership (R69); the channel enters the run
phase, its reserve is taken, and WP_n stays as it is but where the half drives it high (R63, R82, R634, R650). -/
def Block.takeEnable (b : Block) (h : HalfId) (c : Nat) : Block :=
  match b.pair.enable.find? c with
  | some _ => b
  | none =>
    if b.pair.frozen then b
    else
      (((b.onPair (fun p => ({ p with enable := p.enable.put c h, ranPhase := true } : Pair).onPad c (fun r =>
        { r with wp := r.wp || (b.half h).drivesWpHigh }))).settlePads [c]).onHalf h (fun x => x.onChan c Chan.parked)).notePool h

/-- Half `h` drops its enable on channel `c`; the channel parks and its reserve is given up (R62, R650). Freeze holds the ownership (R69). -/
def Block.dropEnable (b : Block) (h : HalfId) (c : Nat) : Block :=
  if b.enabled h c && !b.pair.frozen then
    ((b.onPair (fun p => { p with enable := p.enable.drop c })).settlePads [c]).onHalf h (fun x => x.onChan c Chan.parked)
  else b

/-- Every enable of a half taken, on the channels it drives (R70). -/
def Block.takeAll (b : Block) (h : HalfId) : Block := b.each (b.half h).twn.drives (fun a c => a.takeEnable h c)

/-- Every enable of a half dropped (R35, R70). -/
def Block.dropAll (b : Block) (h : HalfId) : Block :=
  b.each ((b.pair.enable.filter (fun e => decide (e.2 = h))).map Prod.fst) (fun a c => a.dropEnable h c)

/-- Steps 4 and 5 of the entry into PS2: the enables dropped, the clocks stopped (R534). -/
def Block.beginPs2 (b : Block) (h : HalfId) : Block :=
  (b.dropAll h).onHalf h (fun y => { y with pwr := { y.pwr with state := 2, entering := false, decGated := true } })

/-- Every channel a half drives changed. -/
def Half.onDriven (x : Half) (f : Chan → Chan) : Half := x.twn.drives.foldl (fun y c => y.onChan c f) x

/-! ### Waking -/

/-- The registers and memories that an exit from PS4 leaves at their reset values (R543, R647): gutters empty, line buffer and traces empty,
records and mirrors to be restored. -/
def Half.afterPs4 (v : Variant) (x : Half) : Half :=
  { x with
    gut := { x.gut with tab := x.gut.tab.foldl (fun t e => Tab.modify Gutter.reset t e.1 (fun u =>
      { u with items := [], tmo := false, stalled := 0, spWr := 0, spOut := [], rdItem := u.nextNum, rdWord := 0,
               mark := none })) x.gut.tab }
    irq := { x.irq with srcs := x.irq.srcs.foldl (fun t e => Tab.modify Src.reset t e.1 (fun y =>
      { y with level := false })) x.irq.srcs }
    loops := { x.loops with tab := x.loops.tab.foldl (fun t e => Tab.modify Loop.reset t e.1 (fun l =>
      { l with integ := 0, out := 0, meas := 0, err := 0, trace := [] })) x.loops.tab }
    dma := { x.dma with free := Config.dmaLines v }
    que := { x.que with ctxs := [], jobs := [], locks := [] }
    pool := { x.pool with minFree := x.poolCells }
    win := { x.win with lines := [] }
    store := { x.store with recs := [], written := false, poisoned := [] }
    mir := Mirror.reset
    mems := { x.mems with tab := x.mems.tab.foldl (fun t e => Tab.modify Mem.reset t e.1 (fun y =>
      { y with allWritten := false, poisoned := [] })) x.mems.tab }
    boot := { x.boot with stage := if x.boot.stage = 15 then 15 else 5, filled := false } }

/-- One half woken to PS0 (R536, R537): its clocks restart, latched events are counted, enables are taken again, every waited-on LUN is
polled, and the retrain of R183 is asked for. An entry into PS4 under way ends, and its checkpoint is abandoned; an entry into PS2 whose SLEEP the twin may have takes it back by AWAKE
(R535, R542). -/
def Block.wakeOne (b : Block) (h : HalfId) (cause : Nat) : Block :=
  let x := b.half h
  let n := x.pwr.state
  if n = 0 then
    if x.pwr.entering then
      b.onHalf h (fun y => { y with pwr := { y.pwr with entering := false, wakeCause := cause },
                                    fly := { y.fly with ckptFrom := none, ckptNew := none, clean := false, phase := 0 } })
    else b
  else
    let v := b.variant
    let b1 := b.onHalf h (fun y =>
      let z := { y with pwr := { y.pwr with state := 0, wakeCause := cause, entering := false }, win := { y.win with updateEn := b.pair.updateEn } }
      (if n = 4 then z.afterPs4 v else z))
    let b2 := (if 2 ≤ n then b1.takeAll h else b1).onHalf h (fun y =>
      let z := if n = 1 then y else y.onDriven (fun k => (k.askRetrain (decide (3 ≤ n))))
      (z.onDriven Chan.pollAll).countLatched)
    if 2 ≤ n then
      ((b2.onPair (fun p => { p with budget := p.budgetIn })).send h .awake).raise h 112
    else if x.falling then b2.send h .awake
    else b2

/-- A half woken by a wake event of the given cause (R536); a half in PS4 wakes its twin too (R541). Nothing wakes while the pair is
frozen: the event is latched and acts at thaw (R545). A wake from PS3 or PS4 finds its PLLs locked within it (R530, R531). -/
def Block.wake (b : Block) (h : HalfId) (cause : Nat) : Block :=
  if b.pair.frozen then b
  else if (b.half h).pwr.state = 4 && (b.half h.twin).pwr.state = 4 then (b.wakeOne h cause).wakeOne h.twin 5
  else b.wakeOne h cause

/-- An event of source `s` wakes a half from any state below PS0: the source is unmasked (R511, R536). -/
def Block.wakesOn (b : Block) (h : HalfId) (s : Nat) : Bool :=
  !b.pair.frozen && decide (1 ≤ (b.half h).pwr.state) && srcExists b.variant s && !((b.half h).irq.src s).mask

/-- An edge event that may find the half asleep, and then wakes it (R510, R511). -/
def Block.raiseWake (b : Block) (h : HalfId) (s : Nat) : Block :=
  if b.wakesOn h s then (b.raise h s).wake h 4 else b.raise h s

/-- Events of unmasked sources that a sleeping half latched during a freeze act at its thaw (R545). -/
def Block.wakeLatched (b : Block) (h : HalfId) : Block :=
  if (b.half h).irq.latched.any (b.wakesOn h) then b.wake h 4 else b

/-! ### The target port -/

/-- A half held in reset, which answers every access with an error response (R675). -/
def Block.held (b : Block) (h : HalfId) : Bool := decide (b.pair.phase = .reset) || (b.half h).boot.heldReset || (b.half h).boot.hrst

/-- The half with a port response. -/
def Block.respond (b : Block) (h : HalfId) (r : Resp) : Block := b.onHalf h (fun x => { x with port := r })

/-- What has come to a port of half `h` kept waiting there, while freeze holds the handshakes (R58). -/
def Block.wait (b : Block) (h : HalfId) (target : Bool) (i : Instr) : Block := b.onPair (fun p => { p with held := p.held ++ [(h, target, i)] })

/-- An access `i` through the target port of half `h` (R57, R58, R675): a half held in reset answers with an error; while freeze is active the access waits; a sleeping
half wakes, with the cause given; otherwise `f` is the access's effect, answered OKAY unless it says otherwise. -/
def Block.access (b : Block) (h : HalfId) (cause : Nat) (i : Instr) (f : Block → Block) : Block :=
  if b.held h then b.respond h Resp.error
  else if b.pair.frozen then b.wait h true i
  else f ((b.wake h cause).respond h (Resp.value 0))

/-- The half's AON domain is supplied and runs (R97, R606, R675). -/
def Block.alive (b : Block) (h : HalfId) : Bool := b.pair.powered && (b.half h).boot.aon

/-- An access as a command: a half without VDD_AON answers nothing (R675). -/
def portRun (h : HalfId) (cause : Nat) (i : Instr) (f : Block → Block) (s : State) : Host.Outcome State Fault Refusal :=
  if s.blk.alive h then run (fun b => b.access h cause i f) s else .fault .unpowered

/-- A response of the fabric to the master port: it waits while freeze holds the handshakes (R58). -/
def masterRun (h : HalfId) (i : Instr) (f : Block → Block) (s : State) : Host.Outcome State Fault Refusal :=
  run (fun b => if b.pair.frozen then b.wait h false i else f b) s

/-- Register-window accesses in the order of causes of PWR_STAT.WAKE_CAUSE (R547). -/
def causeRegister : Nat := 2

end Sys2Proof.Machine
end

