-- ==== Sys2Proof/Machine/Freeze.lean ====
section
/-!
DEFINITION. Freeze, and the read-out's frames and registers (18).
-/

namespace Sys2Proof.Machine

open Sys2Proof

/-- Words of a read-out segment (R609). -/
def segWords (v : Variant) (n : Nat) : Nat :=
  match n with
  | 0 => 16
  | 1 => 16384
  | 2 => 1024
  | 3 => Config.per v 8192 2048
  | 4 => Config.per v 4096 1024
  | 5 => Config.per v 3584 1024
  | 6 => 128
  | 7 => Config.per v 512 256
  | 8 => Config.per v 1024 512
  | 9 => 2048
  | 10 => Config.per v 32768 16384
  | 11 => Config.per v 393216 98304
  | 12 => Config.per v 1572864 393216
  | 13 => Config.per v 3145728 786432
  | 14 => Config.per v 98304 24576
  | 15 => Config.per v 98304 12288
  | 16 => 32768
  | 17 => Config.per v 135168 33792
  | _ => 0

/-- The header word of a segment's frame (R612). -/
def frameHeader (v : Variant) (h : HalfId) (n : Nat) : Word :=
  BitVec.ofNat 32 (at' n 0 8 + at' h.code 8 1 + at' (segWords v n) 9 23)

/-- The next segment whose FRZ_RO_MASK bit is set, after `n`, wrapping to 0 (R613). -/
def nextSegment (mask : BitVec 18) (n : Nat) : Nat :=
  ((List.range 18).find? (fun k => decide (n < k) && mask.getLsbD k)).getD 0

/-- Timer ticks and clocks stop (R605-R608): the freeze begins, every pad parks with its ownership held (R61, R69), the freeze ports start at segment 0. -/
def Block.freeze (b : Block) (cause : Nat) : Block :=
  let start := fun (x : Half) => { x with ro := { x.ro with seg := if x.ro.src then x.ro.sel else 0, pos := 0 } }
  ((((b.onPair (fun p => { p with frozen := true, frzPend := false, frzCause := cause, frzTicks := 0,
                                  frzCount := satAdd 65535 p.frzCount 1 })).settlePads (List.range 16)).onHalf .a start).onHalf .b start)

/-- A request to freeze: ignored while frozen (R607) or while a brown-out is latched (R78). -/
def Block.askFreeze (b : Block) (cause : Nat) : Block :=
  if b.pair.frozen || b.pair.latched then b else b.freeze cause

/-- A channel after the thaw: every LUN waited on polled first, the volumes to be selected again; a held burst goes on at its next codeword (R85, R153, R618). -/
def Chan.thawed (k : Chan) : Chan := { k.pollAll with volSel := [] }

/-- A half after the thaw (R618): latched edges applied, every LUN polled, the read-out at its frame's start. -/
def Half.thawed (x : Half) : Half :=
  let y := { x.onDriven Chan.thawed with ro := { x.ro with pos := 0, crc := 0xFFFFFFFF } }
  if decide (y.pwr.state ≤ 1) && y.boot.coreLock then y.countLatched else y

/-- FRZ_REQ (R605, R607, R78, R98): during reset and the peg phase the request waits for the end of the peg phase. -/
def execFrzReq (s : State) : Host.Outcome State Fault Refusal :=
  run (fun b =>
    if b.pair.phase = .parked then b.askFreeze 1
    else if b.pair.latched || b.pair.frozen then b
    else b.onPair (fun p => { p with frzPend := true })) s

/-- A response at the debug access port. -/
def Block.dbgRespond (b : Block) (r : Resp) : Block := b.onPair (fun p => { p with dbg := r })

/-- An access through the debug access port (R615, R644): it wakes a sleeping half that is not frozen; an unpowered half answers nothing. -/
def dbgRun (h : HalfId) (f : Block → Block) (s : State) : Host.Outcome State Fault Refusal :=
  if s.blk.alive h then run (fun b => f ((b.wake h causeRegister).dbgRespond (Resp.value 0))) s
  else .fault .unpowered

/-- FRZ_CTL_FREEZE (R605): cause 2 through a register window, 3 through the debug access port; the response precedes the stop. -/
def execFrzCtlFreeze (h : HalfId) (dbg : Bool) (s : State) : Host.Outcome State Fault Refusal :=
  if dbg then dbgRun h (fun b => b.askFreeze 3) s
  else portRun h causeRegister (.frzCtlFreeze h dbg) (fun b => b.askFreeze 2) s

/-- FRZ_RO_CTL written: SRC and SEG; the frame restarts at its header, SRC 0 restarting the freeze port at segment 0 (R616). -/
def Half.writeRoCtl (x : Half) (w : Word) : Half :=
  { x with ro := { x.ro with src := w.bit 0, sel := w.field 8 5, seg := if w.bit 0 then w.field 8 5 else 0, pos := 0,
                             crc := 0xFFFFFFFF } }

/-- FRZ_RO_CTL_WRITE (R616): through the register window outside freeze, through the debug access port at any time. -/
def execFrzRoCtlWrite (h : HalfId) (dbg : Bool) (value : Word) (s : State) : Host.Outcome State Fault Refusal :=
  if dbg then dbgRun h (fun b => b.onHalf h (fun x => x.writeRoCtl value)) s
  else portRun h causeRegister (.frzRoCtlWrite h dbg value) (fun b => b.onHalf h (fun x => x.writeRoCtl value)) s

end Sys2Proof.Machine
end

