-- ==== Sys2Proof/Machine/PowerCmds.lean ====
section
/-!
DEFINITION. Meanings of the power controller's commands: going to sleep, waking, the sleep messages and the beacon (15).
-/

namespace Sys2Proof.Machine

open Sys2Proof

/-- No LUN of a driven channel is busy or suspended, and no bus task or training is due (R533). -/
def Half.busQuiet (x : Half) : Bool :=
  x.twn.drives.all (fun c => (x.chan c).tasks.isEmpty && (x.chan c).mustPoll.isEmpty && (x.chan c).trainIdle &&
    List.all (x.chan c).dies (fun e => e.2.current.isNone))

/-- The conditions of PS1 (R533). -/
def Block.canPs1 (b : Block) (h : HalfId) : Bool :=
  (b.half h).busQuiet && !b.pair.latched && decide (1 ≤ (b.half h).pwr.psMax)

/-- The conditions of PS2 beside those of PS1 (R533, R479). -/
def Half.canPs2 (x : Half) : Bool :=
  x.que.ctxs.isEmpty && x.dma.writes.isEmpty && x.dma.reads.isEmpty && x.dma.waitWr.isEmpty && x.dma.waitRd.isEmpty && List.all x.dma.streams (fun e => !e.2.active) &&
    x.win.fills.isEmpty && List.all x.gut.tab (fun e => decide (e.2.stalled = 0)) && decide (2 ≤ x.pwr.psMax)

/-- The conditions of PS4 beside those of PS3, the twin's state apart (R533): a checkpoint is written, so the half is admin ready. A halted half stays as it is (R90, R636). -/
def Half.canPs4 (x : Half) : Bool :=
  x.ready && decide (x.pwr.psMax = 4) && x.pool.holds.isEmpty && List.all x.gut.tab (fun e => e.2.items.isEmpty) &&
    decide (x.par.used = 0)

/-- What a checkpoint of half `h` writes, into the older slot (R556): its records and an adopted partition, regions, stripes, the drive seed, the sequence counter, the grown-defect table
and J0. -/
def Block.ckptNow (b : Block) (h : HalfId) (clean : Bool) : Ckpt :=
  let x := b.half h
  { half := h, slot := (x.fly.ckptSeq.toNat + 1) % 2, seq := x.fly.ckptSeq + 1, sealed := 0, clean := clean, recs := x.store.recs, regions := x.win.desc, stripes := x.par.stripes
    seed := b.pair.seed, nextSeq := b.pair.nextSeq, defects := x.store.defects, j0 := x.fly.jbase + x.fly.journal.length
    flyUnits := (List.range 8).filterMap (fun k => x.fly.units.find? k) }

/-- A checkpoint begun: J0 is the journal position now (R555, R556). -/
def Block.startCkpt (b : Block) (h : HalfId) (clean : Bool) : Block :=
  let c := b.ckptNow h clean
  b.onHalf h (fun x => x.onFly (fun f => { f with ckptFrom := some f.journal.length, ckptNew := some c, copies := 0, clean := clean, phase := 5 }))

/-- A half's record checkpoint for PS4: clocks and enables at the PS0 settings, and a CLEAN checkpoint begun (R542, R556). -/
def Block.beginPs4 (b : Block) (h : HalfId) : Block :=
  ((b.onHalf h (fun x => { x with pwr := { x.pwr with state := 0, entering := true, offered := false } })).startCkpt h true).takeAll h

/-- An offer of PS4 that the twin cannot take (R541): at most once in an idle period. -/
def Block.declinePs4 (b : Block) (h : HalfId) : Block :=
  if (b.half h).pwr.offered then b
  else (b.onHalf h (fun x => { x with pwr := { x.pwr with offered := true, declined := true } })).raiseWake h 114

/-- The next deeper state entered, where its conditions hold (R533, R534, R541, R542); with an attached twin, PS2 once the twin has acknowledged SLEEP. -/
def Block.sleep (b : Block) (h : HalfId) : Block :=
  let x := b.half h
  if x.pwr.state = 0 then
    if b.canPs1 h && !x.pwr.entering then b.onHalf h (fun y => { y with pwr := { y.pwr with state := 1, offered := false } })
    else b
  else if x.pwr.state = 1 then
    if b.canPs1 h && x.canPs2 then
      if !b.linked then b.beginPs2 h
      else if x.pwr.entering then b
      else (b.send h (.sleep 2)).onHalf h (fun y => { y with pwr := { y.pwr with entering := true } })
    else b
  else if x.pwr.state = 2 then
    if decide (3 ≤ x.pwr.psMax) then
      (b.send h (.sleep 3)).onHalf h (fun y => { y with pwr := { y.pwr with state := 3 } })
    else b
  else if x.pwr.state = 3 && x.canPs4 then
    if b.linked then
      let t := b.half h.twin
      if decide (t.pwr.state = 3) && t.canPs4 then (b.beginPs4 h).beginPs4 h.twin else b.declinePs4 h
    else b.beginPs4 h
  else b

/-- IDLE_TIMER_EXPIRY (R533): the timer of the next deeper state reaches its value. -/
def execIdleTimerExpiry (h : HalfId) (s : State) : Host.Outcome State Fault Refusal :=
  run (fun b => if b.pair.frozen || b.held h || !(b.half h).boot.coreLock then b else b.sleep h) s

/-- WAKE_EVENT (R536): a wake event of the given cause. A brown-out wakes no half in PS4 (R544), and a retrain period only one in PS1 (R183). -/
def execWakeEvent (h : HalfId) (cause : Nat) (s : State) : Host.Outcome State Fault Refusal :=
  run (fun b =>
    let n := (b.half h).pwr.state
    if (decide (cause = 6) && decide (n = 4)) || (decide (cause = 7) && decide (n ≠ 1)) then b else b.wake h cause) s

/-- PWR_CTL_WAKE (R536, R547): the write's own wake is the first event, of cause 8. -/
def execPwrCtlWake (h : HalfId) (s : State) : Host.Outcome State Fault Refusal := portRun h 8 (.pwrCtlWake h) (fun b => b) s

/-- TWIN_STATE takes what the twin announces; each change raises source 113 (R538). -/
def Block.twinAnnounces (b : Block) (h : HalfId) (n : Nat) (watch : Bool) : Block :=
  let old := (b.half h).pwr.twinState
  let b1 := b.onHalf h (fun x => { x with pwr := { x.pwr with twinState := n, watching := watch, beacons := 0 } })
  if n = old then b1 else b1.raiseWake h 113

/-- SLEEP_MESSAGE (R534, R538, R539): from its acknowledgement the receiver watches the beacon. -/
def execSleepMessage (h : HalfId) (s : State) : Host.Outcome State Fault Refusal :=
  run (fun b => if b.pair.frozen then b else
    match b.incoming h with
    | some (.sleep n) => (b.accepted h).twinAnnounces h n true
    | _ => b) s

/-- AWAKE_MESSAGE (R538, R540): the messages that wait behind a WAKE may go. -/
def execAwakeMessage (h : HalfId) (s : State) : Host.Outcome State Fault Refusal :=
  run (fun b => if b.pair.frozen then b else
    match b.incoming h with
    | some .awake => (b.accepted h).twinAnnounces h 0 false
    | _ => b) s

/-- WAKE_MESSAGE (R540): a WAKE passes even to a sleeping half, and wakes it. -/
def execWakeMessage (h : HalfId) (s : State) : Host.Outcome State Fault Refusal :=
  run (fun b => if b.pair.frozen then b else
    match b.incoming h with
    | some .wake => (b.accepted h).wake h 5
    | _ => b) s

/-- BEACON_TOGGLE (R539): a toggle restarts the loss count of a half that watches its twin's beacon. -/
def execBeaconToggle (h : HalfId) (s : State) : Host.Outcome State Fault Refusal :=
  run (fun b => b.onHalf h (fun x =>
    if x.pwr.watching then { x with pwr := { x.pwr with beacons := x.pwr.beacons + 1 } } else x)) s

/-- CLK_DEC_GATE (R529): no core holds a grant and no request is pending. -/
def execClkDecGate (h : HalfId) (s : State) : Host.Outcome State Fault Refusal :=
  run (fun b => b.onHalf h (fun x =>
    if x.arb.dec.held.isEmpty && x.arb.dec.reqs.isEmpty then { x with pwr := { x.pwr with decGated := true } } else x)) s

end Sys2Proof.Machine
end

