-- ==== Sys2Proof/Machine/EngineOps.lean ====
section
/-!
DEFINITION. Binding of sequencer engines, a fault of the whole half, and the shrinking of reserves (R20-R30, R41).
-/

namespace Sys2Proof.Machine

open Sys2Proof

/-- Engines of a half that are not retired, in ascending number. -/
def Half.liveEngines (v : Variant) (x : Half) : List Nat :=
  (List.range (Config.engines v)).filter (fun e => decide ((x.engine e).role ≠ .retired))

/-- Engines in a role. -/
def Half.inRole (v : Variant) (x : Half) (r : Role') : List Nat :=
  (List.range (Config.engines v)).filter (fun e => decide ((x.engine e).role = r))

/-- The channels a half serves, ascending: those it drives that are not retired. -/
def Half.served (v : Variant) (x : Half) : List Nat := (Config.pairChannels v).filter (fun c => x.drivesCh c && !(x.chan c).retired)

/-- Single-half operation: the half stands alone and drives channels of both halves. It runs no background jobs and holds no spare minimum (R26). -/
def Half.alone (x : Half) : Bool :=
  (decide (x.twn.st = .solo) || decide (x.twn.st = .takingOver) || decide (x.twn.st = .syncing)) && x.twn.drives.any (fun c => decide (Config.homeOf c = .a)) &&
    x.twn.drives.any (fun c => decide (Config.homeOf c = .b))

/-- Background roles of R21: the smaller of BG_MAX and the engines left less the spare minimum; none in single-half operation (R26). -/
def bgCount (v : Variant) (bgMax left : Nat) (alone : Bool) : Nat :=
  if alone then 0 else Nat.min bgMax (left - Config.spareMin v)

/-- An engine in a role, without a channel or a job. -/
def Engine.idle (r : Role') : Engine := { role := r, chan := 0, job := none, next := none }

/-- An engine bound to a channel. -/
def Engine.on (c : Nat) : Engine := { role := .bound, chan := c, job := none, next := none }

/-- The engines in service bound in ascending number: one to each channel served in ascending order, the next background, the rest spare
(R21). -/
def Half.bindEngines (v : Variant) (x : Half) : Half :=
  let chs := x.served v
  let live := x.liveEngines v
  let nb := bgCount v x.gen.bgMax (live.length - chs.length) x.alone
  (List.range live.length).foldl (fun y i =>
    y.onEngine (live.getD i 0) (fun _ =>
      if i < chs.length then Engine.on (chs.getD i 0)
      else if i < chs.length + nb then Engine.idle .background
      else Engine.idle .spare)) x

/-- The engine bound to a channel (R21). -/
def Half.engineOf (v : Variant) (x : Half) (c : Nat) : Option Nat :=
  (List.range (Config.engines v)).find? (fun e => decide ((x.engine e).role = .bound) && decide ((x.engine e).chan = c))

/-- Channels a half serves without an engine bound to them (R23, R637). -/
def Half.unbound (v : Variant) (x : Half) : List Nat := (x.served v).filter (fun c => (x.engineOf v c).isNone)

/-- A REBUILD goes on where a background engine is on it (R25, R297). -/
def Half.onJob (x : Half) (v : Variant) (q : Nat) : Bool := (List.range (Config.engines v)).any (fun e => decide ((x.engine e).job = some q))

/-- A fault of the whole half (R41): it stops refreshing its pad enables and loses them; its twin's loss detection follows. -/
def Block.halfFault (b : Block) (h : HalfId) : Block :=
  (b.dropAll h).onHalf h (fun x => { x with boot := { x.boot with failed := true } })

/-- The reserve each driven channel can keep: whole while the banks hold it, else less by steps of 64 cells, not below 64 (R29, R30). -/
def reserveFor (cells channels n : Nat) : Nat :=
  match n with
  | 0 => Config.reserveFloor
  | m + 1 =>
    let r := Config.reserveFloor * (m + 2)
    if r * channels ≤ cells then r else reserveFor cells channels m

/-- The reserve size of a half with `cells` cells driving `channels` channels. -/
def fitReserve (cells channels : Nat) : Nat := reserveFor cells channels 7

/-- DEGRADED (R637): a channel without an engine, no background engine, no soft core, a shrunken reserve, or no twin. -/
def Half.degradedNow (v : Variant) (x : Half) (alone : Bool) : Bool :=
  !(x.unbound v).isEmpty || (x.inRole v .background).isEmpty || x.dec.soft.isEmpty ||
    decide (x.pool.reserve < Config.reserveCells) || alone

end Sys2Proof.Machine
end

