-- ==== Sys2Proof/Machine/Checks.lean ====
section
/-!
DEFINITION. Queue entries: their fields, the opcodes, and the checks made in the step of the fetch (R310, R329, R352-R354, R360,
R361, R379, R674).
-/

namespace Sys2Proof

/-! ### Fields of an entry (R310) -/

/-- Byte `i` of an entry. -/
def Entry.byte (e : Entry) (i : Nat) : Nat := fieldOf e (8 * i) 8
/-- `n` bytes of an entry from byte `i`, little-endian. -/
def Entry.bytes (e : Entry) (i n : Nat) : Nat := fieldOf e (8 * i) (8 * n)
/-- FLAGS bit `k`. -/
def Entry.flag (e : Entry) (k : Nat) : Bool := e.getLsbD (8 + k)
/-- GROUP. -/
def Entry.group (e : Entry) : Nat := fieldOf e 16 12
/-- CMD_ID. -/
def Entry.cmdId (e : Entry) : Nat := fieldOf e 32 32
/-- KEY_START. -/
def Entry.keyStart (e : Entry) : Nat := fieldOf e 64 64
/-- KEY_LEN. -/
def Entry.keyLen (e : Entry) : Nat := fieldOf e 128 32
/-- MARK. -/
def Entry.mark (e : Entry) : Nat := e.byte 63
/-- The PADDR of PARAM bytes 20 to 27. -/
def Entry.paddr (e : Entry) : Paddr := BitVec.ofNat 64 (e.bytes 20 8)
/-- DESC, bytes 28 to 35. -/
def Entry.desc (e : Entry) : Nat := e.bytes 28 8
/-- META, bytes 36 to 43. -/
def Entry.metaAddr (e : Entry) : Nat := e.bytes 36 8

/-! ### Opcodes (R352) -/

/-- The value of an opcode. -/
def Opcode.code : Opcode → Nat
  | .read => 0x01 | .readRaw => 0x02 | .patrol => 0x03 | .program => 0x08 | .programAt => 0x09 | .offer => 0x0A
  | .copy => 0x0B | .erase => 0x0C | .invalidate => 0x0D | .victim => 0x10 | .blankCheck => 0x11 | .rebuild => 0x12
  | .release => 0x14 | .groupCommit => 0x15 | .fence => 0x16 | .identify => 0x80 | .pitch => 0x81 | .strike => 0x82
  | .logGet => 0x83 | .profileLoad => 0x84 | .profileBind => 0x85 | .recUpdate => 0x86 | .stripeOpen => 0x87
  | .regionOpen => 0x88 | .regionClose => 0x89 | .dieFeature => 0x8A | .dieReset => 0x8B | .retire => 0x8C
  | .restore => 0x8D | .detach => 0x8E | .attach => 0x8F

/-- The opcode of a value. -/
def Opcode.ofCode (n : Nat) : Option Opcode :=
  match n with
  | 0x01 => some .read | 0x02 => some .readRaw | 0x03 => some .patrol | 0x08 => some .program
  | 0x09 => some .programAt | 0x0A => some .offer | 0x0B => some .copy | 0x0C => some .erase
  | 0x0D => some .invalidate | 0x10 => some .victim | 0x11 => some .blankCheck | 0x12 => some .rebuild
  | 0x14 => some .release | 0x15 => some .groupCommit | 0x16 => some .fence | 0x80 => some .identify
  | 0x81 => some .pitch | 0x82 => some .strike | 0x83 => some .logGet | 0x84 => some .profileLoad
  | 0x85 => some .profileBind | 0x86 => some .recUpdate | 0x87 => some .stripeOpen | 0x88 => some .regionOpen
  | 0x89 => some .regionClose | 0x8A => some .dieFeature | 0x8B => some .dieReset | 0x8C => some .retire
  | 0x8D => some .restore | 0x8E => some .detach | 0x8F => some .attach
  | _ => none

/-- The classes that may carry an opcode: bit 0 HOST, 1 RECLAIM, 2 RECORD, 3 MAINT (R308, R352). -/
def Opcode.classes : Opcode → BitVec 4
  | .read => 0xF | .readRaw => 0x8 | .patrol => 0xA | .program => 0xF | .programAt => 0xF | .offer => 0x1
  | .copy => 0xA | .erase => 0xE | .invalidate => 0xF | .victim => 0xB | .blankCheck => 0x8 | .rebuild => 0x8
  | .release => 0xF | .groupCommit => 0x5 | .fence => 0xF
  | _ => 0x8

/-- The opcode is carried on a queue of class `cls`, queue number `q`: admin opcodes only on queue 0 (R352). -/
def Opcode.permitted (o : Opcode) (cls q : Nat) : Bool := o.classes.getLsbD cls && (decide (o.code < 0x80) || decide (q = 0))

/-- FLAGS bits the opcode defines (R353). -/
def Opcode.flagMask : Opcode → BitVec 8
  | .read => 0x01 | .readRaw => 0x01 | .program => 0x07 | .programAt => 0x07 | .offer => 0x0B | .copy => 0x03
  | .erase => 0x01 | .blankCheck => 0x01 | .groupCommit => 0x01 | .fence => 0x01 | .strike => 0x01
  | .dieFeature => 0x03 | .attach => 0x01
  | _ => 0x00

/-- May be a member of a group (R352, R379). -/
def Opcode.member : Opcode → Bool
  | .program => true | .programAt => true | .copy => true | .invalidate => true
  | _ => false

/-- Enters the range-lock table in shared mode (R405). -/
def Opcode.shared : Opcode → Bool
  | .read => true | .readRaw => true | .patrol => true | .blankCheck => true
  | _ => false

/-! ### PARAM (R353, R354) -/

/-- The PARAM fields an opcode defines, as (byte, bit in it, bits); the member count of STRIPE_OPEN decides how many indices count. -/
def Opcode.fields (o : Opcode) (e : Entry) : List (Nat × Nat × Nat) :=
  match o with
  | .read => [(20, 0, 64), (28, 0, 64), (36, 0, 64), (44, 0, 16)]
  | .readRaw => [(20, 0, 64), (28, 0, 64), (36, 0, 64), (44, 0, 16), (46, 0, 4)]
  | .patrol => [(20, 0, 64), (28, 0, 64), (36, 0, 64), (44, 0, 16)]
  | .program => [(20, 0, 64), (28, 0, 64), (36, 0, 64), (44, 0, 8), (45, 0, 6)]
  | .programAt => [(20, 0, 64), (28, 0, 64), (36, 0, 64), (44, 0, 8), (45, 0, 6)]
  | .offer => [(20, 0, 64), (28, 0, 64), (36, 0, 64), (44, 0, 8), (45, 0, 6)]
  | .copy => [(20, 0, 64), (28, 0, 64), (36, 0, 64), (44, 0, 8)]
  | .erase => [(20, 0, 64)]
  | .invalidate => [(20, 0, 64), (28, 0, 16)]
  | .victim => [(20, 0, 4), (21, 0, 8), (24, 0, 64)]
  | .blankCheck => [(20, 0, 64), (28, 0, 16)]
  | .rebuild => [(20, 0, 18), (24, 0, 18)]
  | .release => [(20, 0, 6)]
  | .groupCommit => [(20, 0, 8)]
  | .fence => [(20, 0, 64)]
  | .identify => [(20, 0, 8), (21, 0, 8), (24, 0, 64)]
  | .pitch => [(20, 0, 16), (22, 0, 4), (23, 0, 8), (24, 0, 64), (32, 0, 64), (40, 0, 16), (42, 0, 5), (44, 0, 10)]
  | .strike => [(20, 0, 16)]
  | .logGet => [(20, 0, 8), (24, 0, 32), (28, 0, 32), (32, 0, 64)]
  | .profileLoad => [(20, 0, 4), (24, 0, 64)]
  | .profileBind => [(20, 0, 8), (21, 0, 3), (22, 0, 4)]
  | .recUpdate => [(20, 0, 18), (23, 0, 8), (24, 0, 8)]
  | .stripeOpen => [(20, 0, 1), (21, 0, 8), (22, 0, 8)] ++
      (List.range (Nat.min (e.byte 22) 8)).map (fun k => (24 + 3 * k, 0, 18))
  | .regionOpen => [(20, 0, 4), (21, 0, 2), (22, 0, 16), (24, 0, 18), (28, 0, 18)]
  | .regionClose => [(20, 0, 4), (24, 0, 32)]
  | .dieFeature => [(20, 0, 8), (21, 0, 3), (22, 0, 2), (23, 0, 8), (24, 0, 32)]
  | .dieReset => [(20, 0, 8), (21, 0, 3), (22, 0, 8)]
  | .retire => [(20, 0, 8), (21, 0, 8), (22, 0, 3)]
  | .restore => [(20, 0, 8), (21, 0, 8), (22, 0, 3)]
  | .detach => [(20, 0, 1)]
  | .attach => [(20, 0, 1)]

/-- A reserved PARAM byte or bit is not zero (R353): PARAM differs from its defined fields. -/
def reservedParam (o : Opcode) (e : Entry) : Bool :=
  decide (fieldOf e 160 224 ≠
    ((o.fields e).map (fun f => fieldOf e (8 * f.1 + f.2.1) f.2.2 * 2 ^ (8 * f.1 + f.2.1 - 160))).sum)

/-- A DESC that must be given: not zero, aligned to 32 bytes (R360). -/
def descOk (e : Entry) : Bool := decide (e.desc ≠ 0) && decide (e.desc % 32 = 0)

/-- A META that may be given: aligned to 32 bytes (R361). -/
def metaOk (e : Entry) : Bool := decide (e.metaAddr % 32 = 0)

/-- Counts from 1 to `n`. -/
def countOk (n x : Nat) : Bool := decide (1 ≤ x) && decide (x ≤ n)

/-- The PARAM ranges and alignments that end a command with PARAM_INVALID (check 2 of R354; R360-R393, R674). -/
def paramOk (v : Variant) (o : Opcode) (e : Entry) : Bool :=
  match o with
  | .read => descOk e && metaOk e && countOk 256 (e.bytes 44 2)
  | .readRaw => descOk e && decide (e.metaAddr = 0) && decide (e.bytes 44 2 = 1)
  | .patrol => decide (e.desc = 0) && decide (e.metaAddr = 0) && countOk 4096 (e.bytes 44 2)
  | .program | .programAt => (e.flag 2 || (descOk e && metaOk e)) && countOk 64 (e.byte 44)
  | .offer => descOk e && metaOk e && countOk 64 (e.byte 44)
  | .copy => decide (e.metaAddr = 0) && countOk 16 (e.byte 44)
  | .erase => true
  | .invalidate => decide (1 ≤ e.bytes 28 2)
  | .victim => countOk 32 (e.byte 21) && decide (e.bytes 24 8 % 64 = 0)
  | .blankCheck => decide (1 ≤ e.bytes 28 2)
  | .rebuild => true
  | .release => true
  | .groupCommit => countOk 64 (e.byte 20)
  | .fence => true
  | .identify => decide (e.byte 20 ≤ 2) && decide (e.bytes 24 8 % 64 = 0) &&
      (decide (e.byte 20 ≠ 1) || decide (e.byte 21 ∈ Config.pairChannels v)) &&
      (decide (e.byte 20 ≠ 2) || decide (e.byte 21 < 16))
  | .pitch => true
  | .strike => true
  | .logGet => countOk 4 (e.byte 20) && decide (e.bytes 24 4 % 64 = 0) && decide (e.bytes 28 4 % 64 = 0) &&
      decide (64 ≤ e.bytes 28 4) && decide (e.bytes 28 4 ≤ 65536)
  | .profileLoad => decide (e.bytes 24 8 % 64 = 0)
  | .profileBind => true
  | .recUpdate => countOk 3 (e.byte 23)
  | .stripeOpen => countOk 16 (e.byte 21)
  | .regionOpen => (decide (fieldOf e 168 2 = 1) || decide (fieldOf e 168 2 = 2)) && countOk 4096 (e.bytes 22 2)
  | .regionClose => true
  | .dieFeature => true
  | .dieReset => decide (e.byte 22 ≤ 2)
  | .retire => decide (e.byte 20 ≤ 6)
  | .restore => decide (e.byte 20 ≤ 6)
  | .detach => true
  | .attach => true

/-- The success status of an opcode (R355). -/
def Opcode.success (o : Opcode) : Status := match o with | .offer => .accepted | _ => .doneOk

/-- The status with which checks 1 and 2 of R354 refuse a command, if they do. -/
def paramStatus (v : Variant) (o : Opcode) (e : Entry) : Option Status :=
  if reservedParam o e || !paramOk v o e then some .paramInvalid else none

/-- Unit pages a member counts toward its group's limit (R379). -/
def memberPages (o : Opcode) (e : Entry) : Nat := match o with | .invalidate => 0 | _ => e.byte 44

/-- The cause with which an entry fails the checks of R329 on a queue of class `cls` and number `q`, in their order; codes of R332. -/
def entryCause (cls q : Nat) (e : Entry) : Option Nat :=
  if e.mark ≠ 0x50 then some 1
  else
    match Opcode.ofCode (e.byte 0) with
    | none => some 2
    | some o =>
      if !o.permitted cls q then some 3
      else if decide (fieldOf e 28 4 ≠ 0) || decide (BitVec.ofNat 8 (e.byte 1) &&& ~~~ o.flagMask ≠ 0) then some 4
      else if 2 ^ 64 < e.keyStart + e.keyLen then some 5
      else none

end Sys2Proof

namespace Sys2Proof.Machine

open Sys2Proof

/-! ### Groups (check 3 of R354; R379, R380) -/

/-- A group that has just opened, its first member not yet counted. -/
def Group.fresh (gseq : Nat) : Group :=
  { members := [], ok := [], ended := [], pages := 0, isVoid := false, gseq := gseq % 2 ^ 48, closing := none, changes := [] }

/-- Groups that count among the 128: those with a member (R379). -/
def Pair.openCount (p : Pair) : Nat := (List.filter (fun e => !e.2.members.isEmpty) p.groups).length

/-- A member joins its group: the shared state after, and the status that refuses it, if any. `early` tells that check 1 or 2 refused it
(R379). -/
def Pair.join (p : Pair) (tag seq pages : Nat) (early : Bool) : Pair × Option Status :=
  match p.groups.find? tag with
  | some g =>
    if g.closing.isSome then (p, some .groupInvalid)
    else if 64 < g.members.length + 1 || 256 < g.pages + pages then
      ({ p with groups := p.groups.put tag { g with members := g.members ++ [seq], isVoid := true } }, some .groupLimit)
    else
      ({ p with groups := p.groups.put tag { g with members := g.members ++ [seq], pages := g.pages + pages } }, none)
  | none =>
    if p.openCount < 128 then
      ({ p with groups := p.groups.put tag { Group.fresh seq with members := [seq], pages := pages } }, none)
    else if early then (p, none)
    else ({ p with voidMarks := if p.voidMarks.contains tag then p.voidMarks else p.voidMarks ++ [tag] }, some .groupLimit)

/-- A GROUP_COMMIT closes its tag's group to later members (R380). -/
def Pair.close (p : Pair) (tag seq : Nat) : Pair × Option Status :=
  match p.groups.find? tag with
  | some g =>
    if g.closing.isSome then (p, some .groupInvalid)
    else ({ p with groups := p.groups.put tag { g with closing := some seq } }, none)
  | none => ({ p with groups := p.groups.put tag { Group.fresh seq with closing := some seq } }, none)

/-- Check 3 of R354, after the status of checks 1 and 2. -/
def Pair.groupCheck (p : Pair) (o : Opcode) (e : Entry) (seq : Nat) (early : Option Status) : Pair × Option Status :=
  let tag := e.group
  match o with
  | .groupCommit =>
    if early.isSome then (p, early) else if tag = 0 then (p, some .groupInvalid) else p.close tag seq
  | _ =>
    if tag = 0 then (p, early)
    else if !o.member then (p, some (early.getD .groupInvalid))
    else
      let r := p.join tag seq (if early.isSome then 0 else memberPages o e) early.isSome
      (r.1, if early.isSome then early else r.2)

/-- Checks 1 to 3 of R354 on a fetched entry: the block after, and the status that refuses the command, if any. -/
def Block.precheck (b : Block) (o : Opcode) (e : Entry) (seq : Nat) : Block × Option Status :=
  let r := b.pair.groupCheck o e seq (paramStatus b.variant o e)
  ({ b with pair := r.1 }, r.2)

end Sys2Proof.Machine
end

