-- ==== Sys2Proof/Machine/QueOps.lean ====
section
/-!
DEFINITION. The queue manager's operations: ring arithmetic, doorbells, headers, admission of fetched entries, the range-lock table,
completion and release (08; 10, *Range keys and the range-lock table*).
-/

namespace Sys2Proof.Machine

open Sys2Proof

/-! ### Ring arithmetic (R322) -/

/-- S: entries of a ring. -/
def Queue.ringSize (u : Queue) : Nat := 2 ^ u.size

/-- Free slots: (H − 1 − T) mod S (R322). -/
def Queue.free (u : Queue) : Nat := (u.head + 2 * u.ringSize - 1 - u.tail) % u.ringSize

/-- New entries a tail claims: (T′ − T) mod S (R324). -/
def Queue.claimed (u : Queue) (t : Nat) : Nat := (t + u.ringSize - u.tail % u.ringSize) % u.ringSize

/-- Posted entries the Brixma may fetch: from FETCH to the tail the twin has acknowledged (R326). -/
def Queue.fetchable (u : Queue) : Nat := (u.seen + u.ringSize - u.fetch) % u.ringSize

/-- The index after `i`, round the ring. -/
def Queue.next (u : Queue) (i : Nat) : Nat := (i + 1) % u.ringSize

/-- A change of the header's fields: a header write falls due, but for a queue without a ring, and one that met a HEADER_ERROR, whose header is
written afresh at RESTART (R320, R335). -/
def Queue.dirty (u : Queue) : Queue :=
  if u.size = 0 || (u.state = .error && u.errCause = 9) then u else { u with hdrDirty := true }

/-- The error state entered with a cause and an index; the first to stop a queue stays latched (R332). -/
def Queue.stop (u : Queue) (cause index : Nat) : Queue :=
  if u.state = .error then u
  else { u with state := .error, errCause := cause, errIndex := index % 65536 }.dirty

/-- A queue with no context, no fetch in flight and no reply outstanding (R337), its header left aside. -/
def QueMgr.quiet (m : QueMgr) (adopted : Bool) (q : Nat) (u : Queue) : Bool :=
  decide (u.inflight = 0) && u.asked.isEmpty &&
    !(m.malformed.any (fun r => decide (r.adopted = adopted) && decide (r.queue = q)))

/-- IDLE of QUE_QSTATq (R337): quiet, and no header write outstanding or due. -/
def QueMgr.idle (m : QueMgr) (adopted : Bool) (q : Nat) (u : Queue) : Bool :=
  m.quiet adopted q u && !u.hdrDirty && !u.hdrOut

/-- STATE as a header or QUE_QSTATq shows it: a disabled queue that is idle shows idle; the last header write before IDLE rises already
does (R337). -/
def QState.code : QState → Nat
  | .active => 1 | .draining => 2 | .idle => 3 | .error => 4 | .struck => 5

/-- STATE shown when the queue is idle, or is not. -/
def Queue.shown (u : Queue) (idle : Bool) : Nat :=
  if u.state = .draining && idle then QState.idle.code else u.state.code

/-! ### Doorbells (R324, R325, R334) -/

/-- A tail written to a queue with a ring and in no error: judged against H and T of that moment (R324). The second value tells that it was
accepted and moved the tail. -/
def Queue.ring' (u : Queue) (t : Nat) : Queue × Bool :=
  if u.ringSize ≤ t then (u.stop 6 t, false)
  else if u.free < u.claimed t then (u.stop 7 t, false)
  else if u.claimed t = 0 then (u, false)
  else ({ u with tail := t }.dirty, true)

/-- A stray doorbell (R306, R307, R348): ignored, latched in QUE_STAT; bit 9 of STRAY_Q set for the DBL_TQ range. -/
def Half.stray (x : Half) (adopted : Bool) (q : Nat) : Half :=
  x.onQue (fun m => { m with stray := true, strayQ := q + (if adopted then 512 else 0) })

/-- The half takes doorbells: it has reached admin ready and is no standby half (R598, R634). -/
def Half.takesDoorbells (x : Half) : Bool := x.ready && !x.aside

/-- A queue that has just entered the error state: its twin's copy follows (R32), and source 108 is raised where it is adopted (R591). -/
def Block.tellStop (b : Block) (h : HalfId) (adopted : Bool) (q : Nat) (consumed : Bool) : Block :=
  match (b.half h).que.queue? adopted q with
  | none => b
  | some u =>
    let b1 := b.send h (.queue adopted q (.stopped u.errCause u.errIndex consumed))
    if adopted then b1.raise h 108 else b1

/-- A doorbell at a half (R306, R307, R324-R326, R334, R348, R579). An accepted tail is mirrored, and its entries may be fetched once the twin has
acknowledged it; at once where no twin is attached. A number that the configuration lacks sets nothing (R648). -/
def Block.doorbell (b : Block) (h : HalfId) (adopted : Bool) (q t : Nat) : Block :=
  if Config.queues b.variant ≤ q then b else
  let x := b.half h
  match (if x.takesDoorbells then x.que.queue? adopted q else none) with
  | none => b.onHalf h (fun x => x.stray adopted q)
  | some u =>
    if decide (u.size = 0) || !u.live then b.onHalf h (fun x => x.stray adopted q)
    else if u.state = .error then b.onHalf h (fun x => x.onQueue adopted q (fun u => { u with dbIgnored := true }))
    else
      let r := u.ring' t
      let b1 := b.onHalf h (fun x => x.onQueue adopted q (fun _ => r.1))
      if r.2 then
        if b.linked then b1.send h (.tail adopted q t)
        else b1.onHalf h (fun x => x.onQueue adopted q (fun u => { u with seen := t }))
      else if r.1.state = .error then b1.tellStop h adopted q false
      else b1

/-! ### Control (R335, R336, R579) -/

/-- DISABLE as it takes effect (R336). -/
def Queue.setDisable (u : Queue) (on : Bool) : Queue :=
  let s := match u.state with
    | .active => if on then .draining else .active
    | .draining => if on then .draining else .active
    | other => other
  { u with disable := on, state := s }.dirty

/-- RESTART as it takes effect (R335). The header is due afresh, since its fields change. -/
def Queue.restart (u : Queue) : Queue :=
  if u.state = .error then
    { u with state := if u.disable then .draining else .active, errCause := 0, errIndex := 0, dbIgnored := false }.dirty
  else u

/-- The replies of a queue that met an error may be written again (R335). -/
def QueMgr.retryReplies (m : QueMgr) (adopted : Bool) (q : Nat) : QueMgr :=
  { m with
    ctxs := m.ctxs.foldl (fun t e =>
      if e.2.queue = q && e.2.adopted = adopted && e.2.phase = .replyFailed then t.change e.1 (fun c => { c with phase := .finished })
      else t) m.ctxs
    malformed := m.malformed.map (fun r =>
      if r.adopted = adopted && r.queue = q then { r with failed := false } else r) }

/-- RESTART's effect on the queue and its replies. -/
def Half.restartQueue (x : Half) (adopted : Bool) (q : Nat) : Half :=
  match x.que.queue? adopted q with
  | none => x
  | some u =>
    if u.state = .error then (x.onQue (fun m => m.retryReplies adopted q)).onQueue adopted q Queue.restart else x

/-- A mirrored act on a queue as it takes effect at the half that holds the queue (R579). -/
def Half.queueAct (x : Half) (adopted : Bool) (q : Nat) (a : QAct) : Half :=
  match a with
  | .disable on => x.onQueue adopted q (fun u => u.setDisable on)
  | .restart => x.restartQueue adopted q
  | .created _ => x
  | .gone => x
  | .stopped _ _ _ => x

/-- A QUE_QCTLq write takes effect when the twin has acknowledged it, at once where none is attached (R575, R579). -/
def Block.queueCtl (b : Block) (h : HalfId) (adopted : Bool) (q : Nat) (a : QAct) : Block :=
  if b.linked then b.send h (.queue adopted q a) else b.onHalf h (fun x => x.queueAct adopted q a)

/-! ### Headers (R318, R320) -/

/-- The bytes of a queue's header (R318). -/
def Queue.header (u : Queue) (quiet : Bool) : Nat :=
  at' u.update.toNat 0 32 + at' u.head 32 16 + at' u.fetch 48 16 + at' u.tail 64 16 + at' (u.shown quiet) 80 3 +
    at' u.errCause 88 4 + at' u.errIndex 96 16 + at' u.inflight 128 16 + at' u.doneCnt.toNat 160 32 +
    at' u.lastSeq.toNat 192 64 + at' u.update.toNat 480 32

/-- A write put on the master port. -/
def Half.issue (x : Half) (w : MWrite) : Half := { x with dma := x.dma.addWrites [w] }

/-- The header of a queue written as one ORDERED beat of 64 bytes, UPDATE counted first (R318, R320). -/
def Half.writeHeader (x : Half) (adopted : Bool) (q : Nat) (u : Queue) : Half :=
  let w : Queue := { u with update := u.update + 1, hdrDirty := false, hdrOut := true }
  (x.onQueue adopted q (fun _ => w)).issue
    { kind := .header q adopted, addr := u.hdr.toNat, len := 64, data := w.header (x.que.quiet adopted q u), poison := 0,
      ordered := true }

/-- The first outstanding write of a kind taken off the master port. -/
def Half.landed (x : Half) (k : WriteKind) : Half :=
  { x with dma := x.dma.endWrite (fun w => decide (w.kind = k)) }

/-- A write of the kind is outstanding. -/
def Half.outWrite (x : Half) (k : WriteKind) : Bool := x.dma.writes.any (fun w => decide (w.kind = k))

/-! ### The range-lock table (R405-R409) -/

/-- Two entries conflict (R406). -/
def Lock.conflicts (p q : Lock) : Bool :=
  (p.excl || q.excl) && decide (p.start < q.start + q.len) && decide (q.start < p.start + p.len)

/-- The command's entry has no conflicting entry of a lower number before it (R407); a keyless command takes no entry. -/
def QueMgr.mayLeave (m : QueMgr) (seq : Nat) : Bool :=
  match m.locks.find? (fun l => decide (l.seq = seq)) with
  | none => true
  | some l => !(m.locks.any (fun p => decide (p.seq < seq) && p.conflicts l))

/-- STALLED of QUE_RL_STAT: own commands in the table that may not leave (R407). -/
def QueMgr.stalledCount (m : QueMgr) : Nat :=
  (List.filter (fun e => decide (e.2.phase = .stalled) && !m.mayLeave e.1) m.ctxs).length

/-! ### Contexts (R330, R341, R342, R399-R401) -/

/-- Contexts the own and adopted queues hold, with those asked of the owner. -/
def QueMgr.asking (m : QueMgr) : Nat :=
  (m.queues.map (fun e => e.2.asked.length)).sum + (m.adopted.map (fun e => e.2.asked.length)).sum

/-- Contexts a queue may still take: its quota, and the half's contexts less the admin reserve for other queues (R341, R342). -/
def Half.ctxRoom (v : Variant) (x : Half) (adopted : Bool) (q : Nat) (u : Queue) : Nat :=
  let quota := if q = 0 && !adopted then x.que.admQuota else u.quota
  let isAdmin := fun (c : Ctx) => decide (c.queue = 0) && !c.adopted
  let own := List.filter (fun e => decide (e.2.adopted = adopted)) x.que.ctxs
  let admin := (List.filter (fun e => isAdmin e.2) own).length +
    (match x.que.queue? false 0 with | none => 0 | some a => a.asked.length)
  let used := own.length + x.que.asking
  let shared := (used - admin) + (admin - Config.adminReserve v)
  let room := if q = 0 && !adopted then Config.contexts v - used else Config.contexts v - Config.adminReserve v - shared
  Nat.min (quota - (u.inflight + u.asked.length)) room

/-- The command context of a fetched entry, with its number, or refused by the checks of R354 (R330, R400). -/
def Ctx.fresh (q : Nat) (adopted : Bool) (index : Nat) (e : Entry) (o : Opcode) (cls : Nat) (keyed : Bool) : Ctx :=
  { queue := q, adopted := adopted, index := index, entry := e, opcode := o, cls := cls, phase := .stalled, final := none,
    flags := Flags.none, result := 0, cws := [], pages := [], dstIdx := 0, xfer := .none, buf := 0, bufLen := 0,
    waitAck := [], waitJrnl := false, progress := Progress.none, holdTag := none, failN := 0, firstFail := none,
    maxBits := 0, cmpFirst := none, readLeft := false, keyed := keyed, redo := false, fill := false, again := false, heldOff := false, before := none, order := 0, took := false }

/-- The range-lock entry of a command (R405). -/
def lockOf (seq : Nat) (e : Entry) (o : Opcode) (own : Bool) : Lock :=
  { seq := seq, start := e.keyStart, len := e.keyLen, excl := !o.shared, own := own }

/-- The status a command ends with: DATA_POISON in place of success where a poisoned word of its context, its hold or its data gave it (R448, R468). -/
def Ctx.ends (c : Ctx) (st : Status) : Status :=
  if c.flags.dataPoison && decide (st = c.opcode.success) then .dataPoison else st

/-- Half `h` finishes a command: STATUS and RESULT stand, its 16 reply bytes go to the twin before the reply write (R355, R397, R579). -/
def Block.finish (b : Block) (h : HalfId) (seq : Nat) (st : Status) (result : Nat) : Block :=
  let done' := ((b.half h).ctx? seq).elim st (fun c => c.ends st)
  ((b.onHalf h (fun x => x.onCtx seq (fun c =>
    { c with phase := .finished, final := some done', result := BitVec.ofNat 112 result }))).send h
      (.complete seq done' (BitVec.ofNat 112 result))).awaitLink h seq

/-- An entry with number `seq`, refused or not, takes its context and its range-lock entry, and FETCH advances past it (R330, R343, R400, R401). The twin
is told in one message (R399). -/
def Block.place (b : Block) (h : HalfId) (adopted : Bool) (q seq : Nat) (e : Entry) (refused : Option Status) : Block :=
  match (b.half h).que.queue? adopted q, Opcode.ofCode (e.byte 0) with
  | some u, some o =>
    let keyed := decide (e.keyLen ≠ 0) && refused.isNone
    let b1 := b.onHalf h (fun x =>
      (x.onQue (fun m => { m with
        ctxs := m.ctxs.put seq (Ctx.fresh q adopted u.fetch e o u.cls keyed)
        locks := if keyed then m.locks ++ [lockOf seq e o true] else m.locks })).onQueue adopted q (fun u =>
          { u with fetch := u.next u.fetch, inflight := u.inflight + 1, lastSeq := BitVec.ofNat 64 seq }.dirty))
    let b2 := (b1.send h (.fetch true adopted seq q u.fetch e keyed refused)).awaitLink h seq
    match refused with
    | none => b2
    | some st => b2.finish h seq st 0
  | _, _ => b

/-- An entry with number `seq` checked under R354 and placed. -/
def Block.acceptEntry (b : Block) (h : HalfId) (adopted : Bool) (q seq : Nat) (e : Entry) : Block :=
  match Opcode.ofCode (e.byte 0) with
  | none => b
  | some o =>
    let r := b.precheck o e seq
    r.1.place h adopted q seq e r.2

/-- The next pair-wide number taken from the counter (R330, R398). -/
def Block.takeSeq (b : Block) : Nat × Block := (b.pair.nextSeq.toNat, b.onPair (fun p => { p with nextSeq := p.nextSeq + 1 }))

/-- The half allocates numbers itself: it owns the counter, or runs alone (R398, R584). -/
def Block.allocates (b : Block) (h : HalfId) : Bool := !b.linked || decide (b.pair.owner = h)

/-- A malformed entry stops its queue (R331-R333). With causes OPCODE, CLASS, RESERVED and KEY it is consumed: FETCH stands past it, and MALFORMED
is written into it. -/
def Block.stopFetch (b : Block) (h : HalfId) (adopted : Bool) (q cause : Nat) (e : Entry) : Block :=
  match (b.half h).que.queue? adopted q with
  | none => b
  | some u =>
    let i := u.fetch
    let consumed := decide (2 ≤ cause) && decide (cause ≤ 5)
    let b1 := b.onHalf h (fun x =>
      let y := x.onQueue adopted q (fun u => (if consumed then { u with fetch := u.next i } else u).stop cause i)
      if consumed then
        (y.onQue (fun m => { m with malformed := m.malformed ++
          [{ adopted := adopted, queue := q, index := i, cmdId := e.cmdId, failed := false }] })).issue
          { kind := .malformedReply q adopted i, addr := u.ring.toNat + 64 * i + 48, len := 16,
            data := 0x08 + 2 ^ 120 * 0xD0, poison := 0, ordered := true }
      else y)
    b1.tellStop h adopted q consumed

/-- Fetched entries taken in ring order, each checked under R329; `stop` is the cause and entry that stop the queue after them (R330, R331). -/
def Block.takeEntries (b : Block) (h : HalfId) (adopted : Bool) (q : Nat) (l : List Entry) : Block :=
  match l with
  | [] => b
  | e :: r =>
    match (b.half h).que.queue? adopted q with
    | none => b
    | some u =>
      match entryCause u.cls q e with
      | some c => b.stopFetch h adopted q c e
      | none =>
        let n := b.takeSeq
        Block.takeEntries (n.2.acceptEntry h adopted q n.1 e) h adopted q r

/-- The entries of a burst before the first that fails a check, and that entry with its cause (R329, R331). -/
def splitBurst (cls q : Nat) (l : List Entry) : List Entry × Option (Nat × Entry) :=
  match l with
  | [] => ([], none)
  | e :: r =>
    match entryCause cls q e with
    | some c => ([], some (c, e))
    | none => (e :: (splitBurst cls q r).1, (splitBurst cls q r).2)

/-- Numbers asked of the owner, one message for each entry (R399); what stops the queue waits behind them. -/
def Block.askEntries (b : Block) (h : HalfId) (q cls : Nat) (l : List Entry) (bad : Option Nat) : Block :=
  match (b.half h).que.queue? false q with
  | none => b
  | some u =>
    let s := splitBurst cls q l
    if s.1.isEmpty then
      match s.2 with
      | some (c, e) => b.stopFetch h false q c e
      | none => match bad with
        | some c => b.stopFetch h false q c 0
        | none => b
    else
      let b1 := b.onHalf h (fun x => x.onQueue false q (fun u => { u with
        asked := s.1, bad := if s.2.isSome then s.2 else bad.map (fun c => (c, 0)) }))
      b1.each (List.range s.1.length) (fun a k =>
        let e := s.1.getD k 0
        a.send h (.seqAsk q ((u.fetch + k) % u.ringSize) e))

/-- A number that comes for the first of the entries asked: its context is taken; behind the last of them, what stops the queue does so
(R330, R331, R399). -/
def Block.answered (b : Block) (h : HalfId) (q seq : Nat) (e : Entry) (refused : Option Status) : Block :=
  let b1 := (b.place h false q seq e refused).onHalf h (fun x => x.onQueue false q (fun u => { u with asked := u.asked.drop 1 }))
  match (b1.half h).que.queue? false q with
  | none => b1
  | some u =>
    match u.asked, u.bad with
    | [], some (c, w) =>
      (b1.onHalf h (fun x => x.onQueue false q (fun u => { u with bad := none }))).stopFetch h false q c w
    | _, _ => b1

/-- The queue whose turn it is (R328): the next in ascending order after the last served, own queues before adopted ones, of those that have entries
to fetch and contexts to take. -/
def Half.fetchReady (v : Variant) (x : Half) (adopted : Bool) (q : Nat) (u : Queue) : Bool :=
  decide (u.state = .active) && u.live && decide (u.size ≠ 0) && u.asked.isEmpty && decide (0 < u.fetchable) &&
    decide (0 < x.ctxRoom v adopted q u) && !(if adopted then x.twn.holdAdopt else x.twn.holdOwn)

/-- The order in which queues are served. -/
def turnKey (adopted : Bool) (q : Nat) : Nat := q + (if adopted then 512 else 0)

/-- The queues that may fetch, by their turn keys. -/
def Half.fetchers (v : Variant) (x : Half) : List Nat :=
  ((List.filter (fun e => x.fetchReady v false e.1 e.2) x.que.queues).map (fun e => turnKey false e.1)) ++
    ((List.filter (fun e => x.fetchReady v true e.1 e.2) x.que.adopted).map (fun e => turnKey true e.1))

/-- The turn key served next (R328). -/
def Half.fetchTurn (v : Variant) (x : Half) : Option Nat :=
  let l := x.fetchers v
  match l.find? (fun k => decide (x.que.turn ≤ k)) with
  | some k => some k
  | none => l.head?

/-- The half fetches entries at all: clocks run, admin ready, not standby or yielding, no brown-out latched, not asked to hold by a DETACH or an
ATTACH (R350, R585, R597, R598, R634). -/
def Block.fetches (b : Block) (h : HalfId) : Bool :=
  let x := b.half h
  b.coreRuns h && decide (x.pwr.state = 0) && !x.pwr.entering && x.takesDoorbells && !b.pair.latched &&
    decide (x.twn.st ≠ .yielding)

/-- Entries from the one at FETCH to the next 4 KiB boundary, which no burst crosses (R47). -/
def Queue.toBoundary (u : Queue) : Nat := 64 - (u.ring.toNat / 64 + u.fetch) % 64

/-- Entries of one burst: BURST, what is posted and visible, what contexts allow, and no further than the ring's end or a 4 KiB boundary (R47, R328, R342). -/
def Half.burstLen (v : Variant) (x : Half) (adopted : Bool) (q : Nat) (u : Queue) : Nat :=
  Nat.min (Nat.min (Nat.min x.que.burst u.fetchable) (Nat.min (x.ctxRoom v adopted q u) (u.ringSize - u.fetch))) u.toBoundary

/-- One fetch turn of a queue: the entries the burst brings, and the failure that ends them, if any (R51, R328-R333, R399). -/
def Block.fetchBurst (b : Block) (h : HalfId) (adopted : Bool) (q : Nat) (l : List Entry) (bad : Option Nat) : Block :=
  let x := b.half h
  match x.que.queue? adopted q with
  | none => b
  | some u =>
    if b.fetches h && x.canRead && decide (x.fetchTurn b.variant = some (turnKey adopted q)) then
      let es := l.take (x.burstLen b.variant adopted q u)
      let b1 := b.onHalf h (fun x => x.onQue (fun m => { m with turn := turnKey adopted q + 1 }))
      if b.allocates h then
        let b2 := b1.takeEntries h adopted q es
        match bad with
        | none => b2
        | some c => if ((b2.half h).que.queue? adopted q).any (fun u => decide (u.state = .error)) then b2
                    else b2.stopFetch h adopted q c 0
      else b1.askEntries h q u.cls es bad
    else b

/-! ### Completion and release (R319, R343, R344, R408) -/

/-- HEAD past every acknowledged entry; `n` bounds the steps (R319). -/
def Queue.advanceHead (u : Queue) (n : Nat) : Queue :=
  match n with
  | 0 => u
  | m + 1 =>
    if u.acked.contains u.head then
      Queue.advanceHead { u with head := u.next u.head, acked := u.acked.filter (fun i => decide (i ≠ u.head)) } m
    else u

/-- A reply acknowledged: counted, its entry passed by HEAD in its turn (R318, R319). -/
def Queue.replied (u : Queue) (i : Nat) (ctx : Bool) : Queue :=
  ({ u with acked := u.acked ++ [i], doneCnt := u.doneCnt + 1,
            inflight := if ctx then u.inflight - 1 else u.inflight }.advanceHead (u.acked.length + 1)).dirty

/-- The completion notice of a reply (R344): to the queue's gutter, or to ADOPT_GUT for an adopted queue (R591). -/
def Block.completionNotice (b : Block) (h : HalfId) (adopted : Bool) (q i status cmdId : Nat) : Block :=
  let x := b.half h
  let home := if adopted then h.twin else h
  let g := match x.que.queue? adopted q with
    | none => none
    | some u => if adopted then some x.twn.adoptGut else u.gutter
  match g with
  | none => b
  | some k => b.onHalf h (fun x => x.notice b.variant k (0x01 + 256 * status + 2 ^ 16 * (q % 512) + 2 ^ 25 * home.code) i cmdId 0)

/-- Status values of R396. -/
def statusCode : Status → Nat
  | .doneOk => 0x00 | .accepted => 0x01 | .declined => 0x02 | .malformed => 0x08 | .aborted => 0x09
  | .addressRange => 0x10 | .unitState => 0x11 | .unitSpace => 0x12 | .programOrder => 0x13 | .openLimit => 0x14
  | .holdInvalid => 0x15 | .paramInvalid => 0x18 | .fail => 0x20 | .verifyFail => 0x21 | .uncorrectable => 0x22
  | .dataPoison => 0x23 | .sourcePoison => 0x24 | .xferError => 0x25 | .compareMiss => 0x26 | .regionHidden => 0x30
  | .regionLocked => 0x31 | .regionMapped => 0x32 | .regionLayout => 0x33 | .regionCheck => 0x34
  | .regionState => 0x35 | .stripeLimit => 0x38 | .stripeLayout => 0x39 | .stripeWindow => 0x3A
  | .queueInvalid => 0x40 | .queueExists => 0x41 | .watchLimit => 0x42 | .profileInvalid => 0x48
  | .profileBound => 0x49 | .groupInvalid => 0x50 | .groupLimit => 0x51 | .groupVoid => 0x52 | .unitAbsent => 0x58
  | .retireLimit => 0x59 | .restoreBlocked => 0x5A | .restoreFail => 0x5B | .twinState => 0x5C | .attachFail => 0x5D
  | .featureReserved => 0x60

/-- The 16 reply bytes: STATUS, RESULT, MARK DONE (R314). -/
def replyBytes (st : Status) (result : BitVec 112) : Nat := statusCode st + 2 ^ 8 * result.toNat + 2 ^ 120 * 0xD0

/-- A member's end noted in its group (R380). -/
def Group.memberEnds (g : Group) (seq : Nat) (good : Bool) : Group :=
  if g.members.contains seq && !g.ended.contains seq then
    { g with ended := g.ended ++ [seq], ok := if good then g.ok ++ [seq] else g.ok }
  else g

/-- A command with a group completes (R380). -/
def Pair.memberEnds (p : Pair) (tag seq : Nat) (good : Bool) : Pair :=
  if tag = 0 then p else { p with groups := p.groups.change tag (fun g => g.memberEnds seq good) }

/-- A statistics slot free, the lowest (R268). -/
def Half.watchSlot (x : Half) : Option Nat := (List.range 16).find? (fun n => !(Tab.get Watch.free x.dec.watch n).active)

/-- A WATCH queue takes statistics slot `k` (R268). -/
def Half.takeWatch (x : Half) (adopted : Bool) (q k : Nat) (thresh : Nat) : Half :=
  let t : Watch := { queue := q, active := true, adopted := adopted, thresh := thresh, reads := 0, warns := 0, bits := 0 }
  { x.onQueue adopted q (fun u => { u with watch := some k }) with dec := { x.dec with watch := Tab.set Watch.free x.dec.watch k t } }

/-- A statistics slot freed (R268): the adopted queue that waits for one, lowest first, takes it. -/
def Half.freeWatch (x : Half) (w : Option Nat) : Half :=
  match w with
  | none => x
  | some k =>
    let y := { x with dec := { x.dec with watch := Tab.modify Watch.free x.dec.watch k (fun y => { y with active := false }) } }
    match List.find? (fun e => decide (e.2.watch = some 16)) y.que.adopted with
    | none => y
    | some (q, u) => if k < 16 then y.takeWatch true q k u.thresh else x

/-- What a command's DONE brings about beside its own: PITCH's queue exists, STRIKE's is gone (R307). -/
def Half.onDone (x : Half) (c : Ctx) : Half :=
  if c.final = some .doneOk then
    match c.opcode with
    | .pitch => x.onQueue c.adopted (c.entry.bytes 20 2) (fun u => { u with live := true })
    | .strike => x.onQue (fun m => m.dropQueue c.adopted (c.entry.bytes 20 2))
    | _ => x
  else x

/-- A command's context, range-lock entry and pool cells released, in both halves' tables (R343, R408). -/
def Half.releaseCtx (x : Half) (seq : Nat) : Half :=
  x.onQue (fun m => { m with ctxs := m.ctxs.drop seq, locks := m.locks.filter (fun l => decide (l.seq ≠ seq)) })

/-- A STRIKE waits for queue `q` (R338): once the queue is idle its slot is freed, its last header shows struck, and the STRIKE completes. -/
def Block.struck (b : Block) (h : HalfId) (ad : Bool) (q : Nat) : Block :=
  let x := b.half h
  match x.que.queue? ad q with
  | none => b
  | some u =>
    match u.strikeBy with
    | none => b
    | some seq =>
      if x.que.idle ad q u then
        let b1 := b.onHalf h (fun x =>
          let w : Queue := { u with state := .struck, watch := none, strikeBy := none }
          (x.freeWatch u.watch).writeHeader ad q w)
        (b1.send h (.queue ad q .gone)).finish h seq .doneOk 0
      else b

end Sys2Proof.Machine
end

