-- ==== Sys2Proof/Machine/RestoreOps.lean ====
section
/-!
DEFINITION. Record restore: the choice of a checkpoint, the journals, open groups, and what is left to do after admin ready
(R556-R572).
-/

namespace Sys2Proof.Machine

open Sys2Proof

/-- The newest of the checkpoints that has a sealed copy (R569, R627). -/
def newestSealed (l : List Ckpt) : Option Ckpt :=
  (l.filter (fun c => decide (0 < c.sealed))).foldl (fun o c => match o with
    | none => some c
    | some e => if e.seq < c.seq then some c else some e) none

/-- The checkpoint slot record restore takes: one a sealed flysheet record names, else the newest (R569). -/
def chooseCkpt (slots : List Ckpt) (copies : List FlyRecord) : Option Ckpt :=
  let named := slots.find? (fun c => decide (0 < c.sealed) && copies.any (fun r => decide (r.seq = c.seq)))
  match named with
  | some c => some c
  | none => newestSealed slots

/-- What journals make of a half's state: records, regions, stripes, defects, seed, the unit pages reserved by group members, and the
groups closed. -/
structure Replay where
  recs    : Tab Rec
  regions : Tab RgnDesc
  stripes : Tab Stripe
  defects : List Defect
  seed    : BitVec 31 × Nat
  ranges  : List (Nat × Nat × Nat × Nat × Nat)
  closed  : List (Nat × Nat)
  marked  : List (Nat × Nat)
  underflow : Bool
  deriving DecidableEq, Repr

/-- A checkpoint's own state. -/
def Replay.ofCkpt (c : Ckpt) : Replay :=
  { recs := c.recs, regions := c.regions, stripes := c.stripes, defects := c.defects, seed := (c.seed, c.nextSeq.toNat), ranges := [],
    closed := [], marked := [], underflow := false }

/-- The drive seed taken where it is no older than the one the pair holds. -/
def Pair.takeSeed (p : Pair) (s : BitVec 31 × Nat) : Pair := if p.seedSince ≤ s.2 then { p with seed := s.1, seedSince := s.2 } else p

/-- Of two drive seeds, each with the sequence number from which it stands, the newer (R236). -/
def newerSeed (a c : BitVec 31 × Nat) : BitVec 31 × Nat := if a.2 ≤ c.2 then c else a

/-- One journal entry applied (R553, R558). The image of an entry that stands before the checkpoint's J0, carried forward for its group, is in the
checkpoint already (R556). -/
def Replay.apply (r : Replay) (e : JEntry) : Replay :=
  match e.kind with
  | .record i new =>
    let grown := if e.old then e.grew else new.wp.toNat - (Tab.get Rec.blank r.recs i).wp.toNat
    { r with recs := if e.old then r.recs else Tab.set Rec.blank r.recs i new,
             ranges := if e.gseq ≠ 0 && grown ≠ 0 then r.ranges ++ [(i, new.wp.toNat - grown, grown, e.group, e.gseq)]
                       else r.ranges }
  | .region n d => { r with regions := Tab.set RgnDesc.none r.regions n d }
  | .seed s n => { r with seed := newerSeed r.seed (s, n) }
  | .close isVoid =>
    { r with closed := r.closed ++ [(e.group, e.gseq)],
             marked := if isVoid then r.marked else r.marked ++ [(e.group, e.gseq)] }
  | .stripe k none => { r with stripes := r.stripes.drop k }
  | .stripe k (some s) => { r with stripes := r.stripes.put k s }
  | .defect d => { r with defects := r.defects ++ [d] }

/-- The close entries of every journal the flysheet records hold: a group's close stands in the journal of the half that made it (R553, R558). -/
def closedGroups (copies : List FlyRecord) : List (Nat × Nat) :=
  (copies.map (fun r => (r.own ++ r.mirror).filterMap (fun e => match e.kind with
    | .close _ => some (e.group, e.gseq)
    | _ => none))).flatten

/-- The groups that entries name and no close entry closes: open at the power loss, void at recovery (R558). -/
def openGroups (closed : List (Nat × Nat)) (es : List JEntry) : List (Nat × Nat) :=
  (es.foldl (fun (l : List (Nat × Nat)) e =>
    let g := (e.group, e.gseq)
    if e.gseq = 0 || closed.contains g || l.contains g then l else l ++ [g]) [])

/-- VALID after a signed change is taken back, at zero at the lowest (R113, R559). -/
def takeBack (v : BitVec 16) (d : Int) : BitVec 16 := BitVec.ofNat 16 ((v.toNat : Int) - d).toNat

/-- Taking a signed change of VALID back finds too few valid pages (R113). -/
def backUnder (v : BitVec 16) (d : Int) : Bool := decide ((v.toNat : Int) < d)

/-- A member entry undone: its change of VALID subtracted, UNDERFLOW set where that finds too few, and a unit it took from full to free full again (R113, R559). -/
def Replay.undoEntry (r : Replay) (e : JEntry) : Replay :=
  match e.kind with
  | .record i _ =>
    { r with
      recs := Tab.modify Rec.blank r.recs i (fun r => { r with valid := takeBack r.valid e.vdelta, state := if e.freed then .full else r.state })
      underflow := r.underflow || backUnder (Tab.get Rec.blank r.recs i).valid e.vdelta }
  | _ => r

/-- The open groups voided (R559). -/
def Replay.voidGroups (r : Replay) (es : List JEntry) (gs : List (Nat × Nat)) : Replay :=
  (es.filter (fun e => gs.contains (e.group, e.gseq))).foldl Replay.undoEntry r

/-- A unit's record after a journal loss, from its class (R570). -/
def classify (cap : Nat) (r : Rec) (c : UClass) : Rec :=
  match c with
  | .clean => { r with state := .free, wp := 0, valid := 0 }
  | _ => { r with state := .full, wp := BitVec.ofNat 16 cap, valid := BitVec.ofNat 16 cap }

/-- A record that R570 classifies: not retired, not FLY, not in state region. -/
def recClassified (r : Rec) : Bool := decide (r.state ≠ .retired) && !r.fly && decide (r.state ≠ .region)

/-- A record with the grown-defect table's entry applied where it does not show it (R121): STATE alone is set, no rule naming another field (DESIGN CHOICE, log entry 99). -/
def applyDefect (recs : Tab Rec) (d : Defect) : Tab Rec :=
  Tab.modify Rec.blank recs d.index (fun r => { r with state := .retired })

/-- The unit of a block under a profile, if it belongs to one (R109). -/
def markedUnit (r : SpareRead) (p : Profile) : Option Nat :=
  if r.block / p.g < p.units then some (recIndex r.ch r.die (r.block / p.g)) else none

/-- A unit with a factory bad block: retired, GROWN_BAD 0 (R119). -/
def retireMarked (recs : Tab Rec) (i : Nat) : Tab Rec :=
  Tab.modify Rec.blank recs i (fun r => { r with state := .retired, grownBad := false })

/-- The marks read of one block applied, where its die has no records in `known`, those of the checkpoint restored (R119). -/
def applyMark (prof : Option Profile) (known recs : Tab Rec) (r : SpareRead) : Tab Rec :=
  if r.bad && !List.any known (fun e => decide (recCh e.1 = r.ch) && decide (recDie e.1 = r.die)) then
    (prof.bind (markedUnit r)).elim recs (retireMarked recs)
  else recs

/-- The entries that stand before a checkpoint's J0 told by their positions, `pos` being the first's (R556, R566). The unit pages that a carried-forward entry moved WP on by are known from
no entry before it: a free value (DESIGN CHOICE, log entry 111). -/
def datedFrom (j0 pos : Nat) (l : List JEntry) : List JEntry :=
  match l with
  | [] => []
  | e :: r =>
    let wp := match e.kind with | .record _ i => i.wp.toNat | _ => 0
    (if pos < j0 then { e with old := true, grew := Nat.min wp (Config.carriedPages e.gseq pos) } else e) :: datedFrom j0 (pos + 1) r

/-- The longest of the journals a half's entries may be taken from (R567 step 4, R632): the own journal of its record that follows the checkpoint chosen, and the mirror journals of
its twin's records, with the position of the first entry. -/
def bestJournal (h : HalfId) (seq : BitVec 32) (copies : List FlyRecord) : Nat × List JEntry :=
  ((copies.filter (fun r => decide (r.half ≠ h) || decide (r.seq = seq))).map (fun r => if r.half = h then (r.ownPos, r.own) else (r.mirPos, r.mirror))).foldl
    (fun (a : Nat × List JEntry) l => if a.2.length < l.2.length then l else a) (0, [])

/-- The twin's record holds the half's journal from a checkpoint's J0 on (R567 step 4, R622). -/
def mirrored (h : HalfId) (j0 : Nat) (copies : List FlyRecord) : Bool :=
  copies.any (fun r => decide (r.half ≠ h) && !r.mirror.isEmpty && decide (r.mirPos ≤ j0) && decide (j0 ≤ r.mirPos + r.mirror.length))

/-- The class of a unit by its samples (R375, R570): those at STRIDE FLY_CFG.BC_STRIDE in the mode its record gives, by their zero counts; one that is not among them is odd. -/
def Half.classOfUnit (x : Half) (l : List UnitSample) (p : Profile) (i : Nat) (slc : Bool) : UClass :=
  let ss := (samplePages (p.capacity slc) x.fly.bcStride).map (fun n => match l.find? (fun s => decide (s.idx = i) && decide (s.page = n)) with
    | none => Sample.odd
    | some s => sampleOf x.dec.erasedMax p.parity352 (zeroBits s.raw p.cwBytes))
  if classOf ss = 0 then .clean else if classOf ss = 1 then .programmed else .partly

/-- The units that a recovery without its journal classifies, each once, with their classes (R570). -/
def Half.unitClasses (x : Half) (recs : Tab Rec) (l : List UnitSample) : List (Nat × UClass) :=
  let units := l.foldl (fun (u : List Nat) s => if u.contains s.idx then u else u ++ [s.idx]) []
  units.filterMap (fun i => (x.profile? (recCh i) (recDie i)).map (fun p => (i, x.classOfUnit l p i (Tab.get Rec.blank recs i).slc)))

/-- The drive seed that a restore of half `h` finds: the newest of the one already taken, its checkpoint's, and those its flysheet record's journals set (R236). -/
def restoredSeed (h : HalfId) (slots : List Ckpt) (copies : List FlyRecord) (now : BitVec 31 × Nat) : BitVec 31 × Nat :=
  match chooseCkpt (slots.filter (fun c => decide (c.half = h))) (copies.filter (fun r => decide (r.half = h))) with
  | none => now
  | some c =>
    let es := (copies.find? (fun r => decide (r.half = h) && decide (r.seq = c.seq))).elim [] (fun r => r.own ++ r.mirror)
    es.foldl (fun a e => match e.kind with
      | .seed s n => newerSeed a (s, n)
      | _ => a) (newerSeed now (c.seed, c.nextSeq.toNat))

/-- Steps 1 to 5 of R567 for the records of half `src`, into the partition of the half that restores them: its own (`own`), or those of a twin whose
channels it takes, whose stripes it serves in slots 32 to 63 and whose flysheet units stay the twin's (R303, R633). -/
def Half.restoreFrom (x : Half) (src : HalfId) (own : Bool) (slots : List Ckpt) (copies : List FlyRecord)
    (samples : List UnitSample) (marks : List SpareRead) : Half :=
  match chooseCkpt (slots.filter (fun c => decide (c.half = src))) (copies.filter (fun r => decide (r.half = src))) with
  | none => x
  | some c =>
    let mine := copies.find? (fun r => decide (r.half = src) && decide (r.seq = c.seq))
    let found := mine.isSome || mirrored src c.j0 copies
    let lost := !found && !c.clean
    let classes := x.unitClasses c.recs samples
    let best := bestJournal src c.seq copies
    let es := if found then datedFrom c.j0 best.1 best.2 else []
    let r0 := es.foldl Replay.apply (Replay.ofCkpt c)
    let gs := openGroups (r0.closed ++ closedGroups copies) es
    let r1 := r0.voidGroups es gs
    let recs2 := if lost then
        classes.foldl (fun (m : Tab Rec) e => Tab.modify Rec.blank m e.1 (fun r =>
          if recClassified r then classify ((x.profile? (recCh e.1) (recDie e.1)).elim 0 (fun p => p.capacity r.slc)) r e.2
          else r)) r1.recs
      else r1.recs
    let recs3 := marks.foldl (fun m e => applyMark (x.profile? e.ch e.die) c.recs m e) (r1.defects.foldl applyDefect recs2)
    let erasing := mine.elim (if found then (List.filter (fun e => decide (e.2.state = .erasing)) r1.recs).map (fun e => (e.1, e.2.slc)) else []) FlyRecord.erasing
    let opened := mine.elim [] FlyRecord.openTab
    let pads := (opened.filter (fun o => decide (o.2.2 < o.2.1))).map (fun o => (o.1, o.2.2, o.2.1 - o.2.2))
    let voids := (r1.ranges.filter (fun g => gs.contains (g.2.2.2.1, g.2.2.2.2))).map (fun g =>
      (1, g.1, g.2.1, g.2.2.1, g.2.2.2.1, g.2.2.2.2))
    let partials := if lost then (classes.filter (fun e => decide (e.2 = .partly))).map (fun e => (3, e.1, 0, 0, 0, 0))
      else []
    let padEntries := pads.map (fun e => (2, e.1, e.2.1, e.2.2, 0, 0))
    let base : Half := { x with
      store := { x.store with recs := recs3.foldl (fun (m : Tab Rec) e => Tab.set Rec.blank m e.1 e.2) x.store.recs,
                              defects := r1.defects, underflow := x.store.underflow || r1.underflow }
      par := { x.par with stripes := r1.stripes.foldl (fun (m : Tab Stripe) e => m.put (e.1 + (if own then 0 else 32)) (e.2.withRing r1.recs)) x.par.stripes } }
    if own then
      { base with
        win := { x.win with desc := r1.regions }
        fly := { x.fly with
          phase := 4, ckptSeq := c.seq, jbase := if found then best.1 + es.length else c.j0, ckptSlots := slots.foldl (fun (t : Tab Ckpt) k => if k.half = src then t.put k.slot k else t) [], lost := x.fly.lost || lost
          units := (List.range 8).foldl (fun (m : Tab Nat) k => match c.flyUnits[k]? with
            | none => m
            | some u => m.put k u) []
          reErase := x.fly.reErase ++ erasing
          padDue := x.fly.padDue ++ pads
          summary :=
            { outcome := if lost then 2 else if found then 1 else 0, flags := mine.elim 0 FlyRecord.flags,
              seq := c.seq, applied := es.length, committed := r1.marked.length, voided := gs.length, reerased := 0,
              pads := 0, classified := if lost then classes.length else 0, partials := partials.length,
              tSeal := mine.elim 0 FlyRecord.tSeal, entries := voids ++ padEntries ++ partials } } }
    else
      { base with
        mir := { x.mir with regions := r1.regions }
        fly := { x.fly with
          reErase := x.fly.reErase ++ erasing, padDue := x.fly.padDue ++ pads
          summary := { x.fly.summary with entries := x.fly.summary.entries ++ voids ++ padEntries ++ partials } } }

/-- The highest sequence number the chosen checkpoint and its journal hold (R633). -/
def highestSeq (src : HalfId) (slots : List Ckpt) (copies : List FlyRecord) : Nat :=
  match chooseCkpt (slots.filter (fun c => decide (c.half = src))) (copies.filter (fun r => decide (r.half = src))) with
  | none => 0
  | some c => ((bestJournal src c.seq copies).2.map (fun e => e.gseq + 1)).foldl Nat.max c.nextSeq.toNat

end Sys2Proof.Machine
end

