-- ==== Sys2Proof/Machine/StripeOps.lean ====
section
/-!
DEFINITION. Stripes: the ring of members, rows and their accumulators, absent members, the release of a slot (R274-R294).
-/

namespace Sys2Proof.Machine

open Sys2Proof

/-- The half with its stripe parity unit changed. -/
def Half.onPar (x : Half) (f : Parity → Parity) : Half := { x with par := f x.par }

/-! ### Rings (R275, R298) -/

/-- The members met by following STRIPE_NEXT from record `i`, `n` at most, up to the return to `stop`. -/
def Half.walk (x : Half) (stop i n : Nat) : List Nat :=
  match n with
  | 0 => []
  | m + 1 =>
    let j := (x.rec? i).next.toNat
    if j = stop then [i] else i :: Half.walk x stop j m

/-- A unit that a REBUILD has replaced: it has a role, and its ring no longer leads back to it (R298). -/
def Half.forwarded (x : Half) (i : Nat) : Bool :=
  decide ((x.rec? i).role ≠ .none) &&
    !(decide ((x.rec? i).next.toNat = i) || ((x.walk i (x.rec? i).next.toNat 8).any (fun j => decide ((x.rec? j).next.toNat = i))))

/-- The unit that serves a read of unit `i`: itself, or the target it is forwarded to (R298). -/
def Half.servedBy (x : Half) (i n : Nat) : Nat :=
  match n with
  | 0 => i
  | m + 1 => if x.forwarded i then Half.servedBy x (x.rec? i).next.toNat m else i

/-- The ring of a member in the order D0 … Dk−1, P, Q (R275). -/
def Half.ring (x : Half) (i : Nat) : List Nat :=
  let l := x.walk i i 8
  let cut := (List.range l.length).find? (fun k =>
    decide ((x.rec? (l.getD k 0)).role = .data) && decide ((x.rec? (l.getD ((k + l.length - 1) % l.length) 0)).role ≠ .data))
  l.rotateLeft (cut.getD 0)

/-- Data members of a ring. -/
def Half.dataCount (x : Half) (ring : List Nat) : Nat := (ring.filter (fun i => decide ((x.rec? i).role = .data))).length

end Sys2Proof.Machine

namespace Sys2Proof

open Machine

/-- Parity members of a stripe. -/
def Stripe.parityCount (s : Stripe) : Nat := if s.pq then 2 else 1

/-- Data members of a stripe. -/
def Stripe.dataCount (s : Stripe) : Nat := s.ring.length - s.parityCount

end Sys2Proof

namespace Sys2Proof.Machine

open Sys2Proof

/-- The position of a member in its ring. -/
def posOf (ring : List Nat) (i : Nat) : Nat := ring.idxOf i

/-- A stripe that is open, of which a record is a member: its slot and itself. -/
def Half.openStripe (x : Half) (i : Nat) : Option (Nat × Stripe) := List.find? (fun e => e.2.ring.contains i) x.par.stripes

end Sys2Proof.Machine

namespace Sys2Proof

open Machine

/-- The accumulator cells of a stripe (R278). -/
def Stripe.cells (s : Stripe) : Nat := 2 * s.window * 33 * s.parityCount

end Sys2Proof

namespace Sys2Proof.Machine

open Sys2Proof

/-! ### Absence (R287) -/

/-- Channel `c`'s driver, where it is not retired, holds the state of its dies. -/
def Block.dieOf (b : Block) (c d : Nat) : Die :=
  match b.driver c with
  | none => Die.absent
  | some g => (b.half g).die c d

/-- A channel is retired: no half drives it, or its driver has retired it (R39, R294). -/
def Block.chanRetired (b : Block) (c : Nat) : Bool :=
  match b.driver c with
  | none => true
  | some g => ((b.half g).chan c).retired

/-- The die of a record is retired or on a retired channel (R294). -/
def Block.dieRetired (b : Block) (i : Nat) : Bool := b.chanRetired (recCh i) || (b.dieOf (recCh i) (recDie i)).retired

/-- Member `i` of a stripe that half `h` keeps is absent (R287). -/
def Block.memberAbsent (b : Block) (h : HalfId) (i : Nat) : Bool :=
  decide (((b.half h).rec? i).state = .retired) || b.dieRetired i

/-! ### Rows (R279-R281, R285, R287) -/

/-- Accumulators of zeros. R281 names no class or number for the parity programs of a row that no data program completes, but absence or pads: it has class MAINT and number 0 (DESIGN
CHOICE, log entry 108). -/
def Row.fresh : Row :=
  { p := [zeroPayload, zeroPayload, zeroPayload, zeroPayload], q := [zeroPayload, zeroPayload, zeroPayload, zeroPayload],
    folded := [], ended := [], issued := false, done := [], seq := 0, cls := 3 }

/-- A page of the member at position `i` folded, once (R279, R280). -/
def Row.fold (r : Row) (i : Nat) (slots : List Payload) : Row :=
  if r.folded.contains i then r
  else
    { r with
      p := List.zipWith xorPayload r.p slots
      q := List.zipWith (fun a d => xorPayload a (scalePayload (gfPow i) d)) r.q slots
      folded := r.folded ++ [i] }

/-- The key of a row. -/
def rowKey (slot row : Nat) : Nat := 65536 * slot + row

/-- Absent data members of a stripe fold the pad payload (R287). -/
def Row.foldAbsent (r : Row) (s : Stripe) : Row :=
  (s.absent.filter (fun i => decide (i < s.dataCount))).foldl (fun a i => a.fold i padSlots) r

/-- C of a stripe: the unit pages of its members (R110, R277). -/
def Half.stripeCap (x : Half) (s : Stripe) : Nat :=
  let i := s.ring.headD 0
  (x.profile? (recCh i) (recDie i)).elim 0 (fun p => p.capacity (x.slcOf i))

/-- Data positions of a row that never fold: the unit is full below it, since a REBUILD wrote pad pages there and left it its source's WP
(R297, R298). -/
def Half.padded (x : Half) (s : Stripe) (row : Nat) : List Nat :=
  (List.range s.dataCount).filter (fun k =>
    let r := x.rec? (s.ring.getD k 0)
    !s.absent.contains k && decide (r.state = .full) && decide (r.wp.toNat ≤ row))

/-- A row of an open stripe, made with its first fold. -/
def Half.row (x : Half) (slot row : Nat) (s : Stripe) : Row :=
  match x.par.rows.find? (rowKey slot row) with
  | some r => r
  | none => (x.padded s row).foldl (fun (a : Row) k => { a.fold k padSlots with ended := a.ended ++ [k] }) (Row.fresh.foldAbsent s)

/-- A row changed. -/
def Half.onRow (x : Half) (slot row : Nat) (s : Stripe) (f : Row → Row) : Half :=
  x.onPar (fun p => { p with rows := p.rows.put (rowKey slot row) (f (x.row slot row s)) })

/-- Rows of a slot that hold accumulator cells. -/
def Half.rowsHeld (x : Half) (slot : Nat) : Nat :=
  (List.filter (fun e => decide (e.1 / 65536 = slot)) x.par.rows).length

/-- A row can take a fold: it holds cells, or the stripe has cells left (R285). -/
def Half.rowRoom (x : Half) (slot row : Nat) (s : Stripe) : Bool :=
  (x.par.rows.find? (rowKey slot row)).isSome || decide (x.rowsHeld slot < 2 * s.window)

/-- A unit page's slots folded at a confirm, where its unit is a data member of an open stripe (R280). -/
def Half.foldPage (x : Half) (i page : Nat) (slots : List Payload) : Half :=
  match x.openStripe i with
  | none => x
  | some (slot, s) =>
    if posOf s.ring i < s.dataCount then x.onRow slot page s (fun r => r.fold (posOf s.ring i) slots) else x

/-- A data member's program of a unit page has ended (R281): the last to end gives the row its class and number. -/
def Half.pageEnded (x : Half) (i page seq cls : Nat) : Half :=
  match x.openStripe i with
  | none => x
  | some (slot, s) =>
    if posOf s.ring i < s.dataCount then
      x.onRow slot page s (fun r => { r with ended := r.ended ++ [posOf s.ring i], seq := seq, cls := cls })
    else x

/-- The low row of a stripe: the lowest row some present data member has not yet reserved. -/
def Half.lowRowOf (x : Half) (s : Stripe) : Nat :=
  let wps := (List.range s.dataCount).filterMap (fun k =>
    let r := x.rec? (s.ring.getD k 0)
    if s.absent.contains k then none else some (if r.state = .full then x.stripeCap s else r.wp.toNat))
  match wps with
  | [] => s.lowRow
  | w :: r => r.foldl Nat.min w

/-- The low rows of all open stripes made to follow the reservations. -/
def Half.lowRows (x : Half) : Half :=
  x.onPar (fun p => { p with stripes := p.stripes.map (fun e => (e.1, { e.2 with lowRow := x.lowRowOf e.2 })) })

end Sys2Proof.Machine

namespace Sys2Proof

open Machine

/-- Ring positions of a stripe's present parity members. -/
def Stripe.parityHere (s : Stripe) : List Nat :=
  ((List.range s.parityCount).map (fun k => s.dataCount + k)).filter (fun i => !s.absent.contains i)

/-- Every present data member's program of the row has ended (R281). -/
def Stripe.rowEnded (s : Stripe) (r : Row) : Bool :=
  (List.range s.dataCount).all (fun i => s.absent.contains i || r.ended.contains i)

end Sys2Proof

namespace Sys2Proof.Machine

open Sys2Proof

/-- A slot and its cells released. -/
def Half.freeSlot (x : Half) (slot : Nat) : Half :=
  match x.par.stripes.find? slot with
  | none => x
  | some s => x.onPar (fun p => { p with
      stripes := p.stripes.drop slot, used := p.used - s.cells
      rows := List.filter (fun e => decide (e.1 / 65536 ≠ slot)) p.rows })

/-- The parity row moved past rows whose parity programs have all ended; the slot released past the last row; `n` bounds the steps (R278, R285). -/
def Half.advanceParity (x : Half) (slot n : Nat) : Half :=
  match n with
  | 0 => x
  | m + 1 =>
    match x.par.stripes.find? slot with
    | none => x
    | some s =>
      match x.par.rows.find? (rowKey slot s.parityRow) with
      | none => x
      | some r =>
        if r.issued && s.parityHere.all (fun i => r.done.contains i) then
          let y := x.onPar (fun p => { p with
            rows := p.rows.drop (rowKey slot s.parityRow)
            stripes := p.stripes.put slot { s with parityRow := s.parityRow + 1 } })
          if x.stripeCap s ≤ s.parityRow + 1 then y.freeSlot slot else Half.advanceParity y slot m
        else x

/-- Member `i` found absent: ABSENT shows it, the pad payload is folded in its place into the rows held, and the stripe-degraded notice is raised
with the stripe's P record index (R287, R294). -/
def Block.goneAbsent (b : Block) (h : HalfId) (i : Nat) : Block :=
  match (b.half h).openStripe i with
  | none =>
    if ((b.half h).rec? i).role = .none then b
    else
      let ring := (b.half h).ring i
      b.event h 0x14 0 (at' (ring.getD ((b.half h).dataCount ring) 0) 0 24 + at' 0xFFFF 32 16)
  | some (slot, s) =>
    let pos := posOf s.ring i
    if s.absent.contains pos then b
    else
      let t := { s with absent := s.absent ++ [pos] }
      let b1 := b.onHalf h (fun x =>
        (x.onPar (fun p => { p with
          stripes := p.stripes.put slot t
          rows := p.rows.map (fun e => if e.1 / 65536 = slot && pos < s.dataCount then (e.1, e.2.fold pos padSlots) else e) })).lowRows)
      b1.event h 0x14 slot (at' (s.ring.getD s.dataCount 0) 0 24 + at' 0xFFFF 32 16)

/-- The records of a half's partition that lie on dies found retired and have a role in a stripe. -/
def Block.newlyAbsent (b : Block) (h : HalfId) (gone : Nat → Bool) : List Nat :=
  (List.filter (fun e => decide (e.2.role ≠ .none) && gone e.1) (b.half h).store.recs).map Prod.fst

/-- Every stripe member for which `gone` holds becomes absent, at the half that keeps it (R294). -/
def Block.allAbsent (b : Block) (gone : Nat → Bool) : Block :=
  (b.each (b.newlyAbsent .a gone) (fun a i => a.goneAbsent .a i)).each (b.newlyAbsent .b gone) (fun a i => a.goneAbsent .b i)

/-! ### Accumulators rebuilt from flash (R301-R303) -/

/-- What a unit page of a present data member at ring position `k` adds to a rebuilt row: pad pages for one voided at the takeover, written as pads, or that recovery pads (R567 step 7), else
what its read delivers; none where that is uncorrectable (R301, R302). -/
def Half.foldedSlots (x : Half) (s : Stripe) (row k : Nat) (flash : List FlashPage) : Option (List Payload) :=
  let i := s.ring.getD k 0
  if (x.padded s row).contains k || (x.twn.voided ++ x.fly.padDue).any (fun r => decide (r.1 = i) && decide (r.2.1 ≤ row) && decide (row < r.2.1 + r.2.2)) then some padSlots
  else (flash.find? (fun f => decide (f.idx = i) && decide (f.page = row))).map FlashPage.slots

/-- Positions of present data members whose unit page `row` is reserved, or padded: the pages folded (R301). -/
def Half.foldedAt (x : Half) (s : Stripe) (row : Nat) : List Nat :=
  (List.range s.dataCount).filter (fun k =>
    !s.absent.contains k && (decide (row < (x.rec? (s.ring.getD k 0)).wp.toNat) || (x.padded s row).contains k))

/-- The rebuild of a row meets an uncorrectable member page (R302). -/
def Half.rowBad (x : Half) (s : Stripe) (row : Nat) (flash : List FlashPage) : Bool :=
  (x.foldedAt s row).any (fun k => (x.foldedSlots s row k flash).isNone)

/-- Row `row` of a stripe rebuilt from flash: every reserved page of a present data member is folded and ended; absent members fold the pad payload. Its parity
programs rank as MAINT with number 0. A bad row has no accumulators: its parity pages are blank (R287, R301, R302). -/
def Half.rebuiltRow (x : Half) (s : Stripe) (row : Nat) (flash : List FlashPage) : Row :=
  let has := fun (k : Nat) => decide (row < (x.rec? (s.ring.getD k 0)).wp.toNat)
  let full := (x.foldedAt s row).foldl (fun (a : Row) k => a.fold k ((x.foldedSlots s row k flash).getD padSlots)) (Row.fresh.foldAbsent s)
  { full with
    p := if x.rowBad s row flash then [] else full.p
    q := if x.rowBad s row flash then [] else full.q
    ended := x.foldedAt s row
    issued := false, done := s.parityHere.filter has, seq := 0, cls := 3 }

/-- The parity row of a stripe as its records show it: the lowest row that some present parity member has not taken (R281, R285, R301). -/
def Half.parityRowOf (x : Half) (s : Stripe) : Nat :=
  match s.parityHere.map (fun k => (x.rec? (s.ring.getD k 0)).wp.toNat) with
  | [] => x.lowRowOf s
  | w :: r => r.foldl Nat.min w

/-- The accumulators of an open stripe rebuilt from flash (R301); the slot is released where no row is left. `flash` holds the member pages as their reads
delivered them; one that is missing was uncorrectable (R302). -/
def Block.rebuildAcc (b : Block) (h : HalfId) (slot : Nat) (flash : List FlashPage) : Block :=
  match (b.half h).par.stripes.find? slot with
  | none => b
  | some s0 =>
    let x := b.half h
    let s1 : Stripe := { s0 with absent := (List.range s0.ring.length).filter (fun k => b.memberAbsent h (s0.ring.getD k 0)) }
    let s2 : Stripe := { s1 with parityRow := x.parityRowOf s1, lowRow := x.lowRowOf s1 }
    let top := ((List.range s2.dataCount).map (fun k => (x.rec? (s2.ring.getD k 0)).wp.toNat)).foldl Nat.max 0
    let rows := (List.range (top - s2.parityRow)).map (fun i => s2.parityRow + i)
    let b1 := b.onHalf h (fun y => (y.onPar (fun p => { p with
      stripes := p.stripes.put slot s2
      rows := rows.foldl (fun (t : Tab Row) r => t.put (rowKey slot r) (x.rebuiltRow s2 r flash))
        (List.filter (fun e => decide (e.1 / 65536 ≠ slot)) p.rows) })))
    let b2 := b1.each (rows.filter (fun r => x.rowBad s2 r flash)) (fun a r =>
      a.event h 0x14 slot (at' (s2.ring.getD s2.dataCount 0) 0 24 + at' r 32 16))
    if x.stripeCap s2 ≤ s2.parityRow then b2.onHalf h (fun y => y.freeSlot slot) else b2

/-- Cells of the accumulators that the open stripes of a half have reserved (R278). -/
def Half.countAcc (x : Half) : Half := x.onPar (fun p => { p with used := (p.stripes.map (fun e => e.2.cells)).sum })

/-- Every open stripe of a half whose slot is in a range rebuilt. -/
def Block.rebuildAccs (b : Block) (h : HalfId) (slots : List Nat) (flash : List FlashPage) : Block :=
  (b.onHalf h Half.countAcc).each slots (fun a n => a.rebuildAcc h n flash)

/-! ### Dissolving (R293) -/

/-- The records a dissolving ERASE of member `i` frees of their stripe: the ring, and the units forwarded into it. -/
def Half.dissolved (x : Half) (i : Nat) : List Nat :=
  let ring := x.ring i
  ring ++ (List.filter (fun e => x.forwarded e.1 && ring.contains (x.servedBy e.1 8)) x.store.recs).map Prod.fst

/-- An ERASE of a member is accepted (R293). -/
def Block.mayDissolve (b : Block) (h : HalfId) (i : Nat) : Bool :=
  let x := b.half h
  let ring := x.ring i
  (ring.all (fun j => decide ((x.rec? j).role ≠ .data) || b.memberAbsent h j || decide ((x.rec? j).valid = 0))) &&
    !(List.any x.par.rebuilds (fun e => ring.contains e.2.src))

end Sys2Proof.Machine
end

