-- ==== Sys2Proof/Machine/Flysheet.lean ====
section
/-!
DEFINITION. Brown-out, the flysheet commit and checkpoints (16; R171).
-/

namespace Sys2Proof.Machine

open Sys2Proof

/-! ### Open units (R211) -/

/-- Unit pages of record `i` that a command has reserved and whose programs have not ended, at either half. -/
def Half.pagesDue (x : Half) (i : Nat) : List Nat :=
  (x.que.ctxs.map (fun e => if e.2.dstIdx = i then
    (e.2.pages.filter (fun p => decide (p.st ≠ .passed) && decide (p.st ≠ .failed))).map UPage.page else [])).flatten

/-- Unit pages of record `i` that programs of no command still write: parity, and what recovery pads. -/
def Block.ownDue (b : Block) (i : Nat) : List Nat :=
  let e := b.dieOf (recCh i) (recDie i)
  ((e.op.toList ++ e.under.toList ++ e.ops).filter (fun o => decide (o.recIdx = i) && (decide (o.kind = .parity) || (decide (o.kind = .program) && decide (o.seq = noSeq))))).flatMap DieOp.pages ++
    (b.ha.fly.padDue ++ b.hb.fly.padDue).flatMap (fun r => if r.1 = i then (List.range r.2.2).map (fun k => r.2.1 + k) else [])

/-- Unit pages of record `i` whose programs have not ended. -/
def Block.pagesDue (b : Block) (i : Nat) : List Nat := b.ha.pagesDue i ++ b.hb.pagesDue i ++ b.ownDue i

/-- A unit that the open-unit count takes in (R211). -/
def Block.countsOpen (b : Block) (i : Nat) (r : Rec) : Bool :=
  decide (r.state = .opened) || (decide (r.state = .full) && !(b.pagesDue i).isEmpty)

/-- The half's open units, region units included (R211). -/
def Block.openUnits (b : Block) (h : HalfId) : List (Nat × Rec) :=
  List.filter (fun e => b.countsOpen e.1 e.2) (b.half h).store.recs

/-- DONE_WP: the first unit page whose program has not ended with a status (R566). -/
def Block.doneWp (b : Block) (i wp : Nat) : Nat := (b.pagesDue i).foldl Nat.min wp

/-! ### The budget of a commit (R565) -/

/-- EST_US: 3,350 + 425 × (2 + ⌈E / 512⌉), E being the entries of both journals. -/
def Half.estUs (x : Half) : Nat := 3350 + 425 * (2 + (x.fly.journal.length + x.fly.mirror.length + 511) / 512)

/-! ### Brown-out (R171, R550, R565) -/

/-- A RESET LUN that an erase is ended with. -/
def resetOp (seq : Nat) : DieOp :=
  { kind := .reset, seq := seq, cls := 3, recIdx := 0, pages := [], slc := false, entry := 0, phase := .issue,
    gapDone := false, pol := none, begun := [], block := 0, prof := none }

/-- What becomes of a LUN's operation at a latched brown-out, and the bus task it asks for (R171). R171 names no program whose SUSPEND has gone out and which is not yet ready: RESUME is
issued to it too, without waiting for ready (DESIGN CHOICE, log entry 89). -/
def brownOp (o : DieOp) : Option DieOp × Option TaskKind :=
  match o.kind with
  | .program | .parity =>
    match o.phase with
    | .busy | .unsuspendable => (some o, none)
    | .suspending | .suspended | .resuming => (some { o with phase := .resuming }, some .resume)
    | _ => (none, none)
  | .erase =>
    match o.phase with
    | .queued | .issue => (none, none)
    | _ => (some (resetOp noSeq), some .reset)
  | _ => if o.phase = .busy || o.phase = .dataOut then (some o, none) else (none, none)

/-- A LUN at a latched brown-out. -/
def brownDie (e : Die) : Die × Option TaskKind :=
  match e.op with
  | none => ({ e with under := none, ops := [] }, none)
  | some o => ({ e with op := (brownOp o).1, under := none, ops := [], eraseActive := e.eraseActive && decide (o.kind ≠ .erase) }, (brownOp o).2)

/-- A channel at a latched brown-out: only the tasks of R171 wait for its bus. -/
def Chan.brown (k : Chan) : Chan :=
  { k with
    dies := k.dies.foldl (fun (m : Tab Die) e => Tab.set Die.absent m e.1 (brownDie e.2).1) k.dies
    tasks := k.dies.filterMap (fun e => (brownDie e.2).2.map (fun t => { kind := t, die := e.1 }))
    trainReq := 0, trainRun := [], burst := none, mustPoll := [] }

/-- A line fill's read whose codeword has crossed the pins: it needs no die operation any more. -/
def Half.fillArrived (x : Half) (key : Nat) : Bool :=
  (x.que.jobs.find? key).any (fun c => c.cws.all (fun k => decide (k.st ≠ .sensing) && decide (k.st ≠ .arriving)))

/-- The code window at the latch: no line fill issues any more, so that those without their codeword end and the stalled fetches receive error responses (R222). -/
def Half.brownWin (x : Half) (h : HalfId) : Half :=
  let keep := fun (f : Nat × Nat) => x.fillArrived (fillKey h f.1 f.2 false) || x.fillArrived (fillKey h f.1 f.2 true)
  let y := if x.win.stalled.isEmpty then x else { x with port := Resp.error }
  { y with win := { y.win with stalled := [], fills := y.win.fills.filter keep } }.onQue (fun m => { m with jobs := m.jobs.filter (fun e => x.fillArrived e.1) })

/-- One half at the latch: nothing further admitted, its checkpoint abandoned, PHASE drain (R550, R565). -/
def Half.brown (x : Half) (h : HalfId) (holdup : Nat) : Half :=
  if x.pwr.state = 4 then x
  else
    let y := (x.onDriven Chan.brown).brownWin h
    y.onFly (fun f => { f with
      phase := if f.phase = 4 then 4 else 1, ckptFrom := none, ckptNew := none, clean := false, copies := 0
      shortHold := decide (holdup * 1000 < x.estUs) })

/-- A brown-out latched from the first run phase on, the freeze ended: the sleeping halves wake, both halves drain (R544, R550). -/
def Block.brownAll (b : Block) (holdup : Nat) : Block :=
  let wakeUp := fun (a : Block) (h : HalfId) => if (a.half h).pwr.state = 4 then a else a.wakeOne h 6
  let b1 := wakeUp (wakeUp b .a) .b
  (b1.onHalf .a (fun x => x.brown .a holdup)).onHalf .b (fun x => x.brown .b holdup)

/-! ### The commit (R562, R563, R566) -/

/-- Every LUN the half drives reads ready, with status read (R562). -/
def Half.lunsReady (x : Half) : Bool :=
  x.twn.drives.all (fun c => (x.chan c).tasks.isEmpty && (x.chan c).mustPoll.isEmpty && List.all (x.chan c).dies (fun e => !e.2.busy && e.2.op.all (fun o => decide (o.phase ≠ .resuming))))

/-- The commit mark of a group is in a half's journal (R558). -/
def Half.marked (x : Half) (gseq : Nat) : Bool :=
  x.fly.journal.any (fun e => decide (e.kind = .close false) && decide (e.gseq = gseq % 2 ^ 48))

/-- The header of a half's flysheet record (R566). -/
def Block.flyHeader (b : Block) (h : HalfId) (tHdr : BitVec 32) : FlyHeader :=
  let x := b.half h
  { half := h, seq := x.fly.ckptSeq
    flags := bitOf x.fly.shortHold + 2 * bitOf (b.half h.twin).boot.failed + 4 * bitOf x.fly.oneSite
    holdup := b.pair.holdupMs, ownN := x.fly.journal.length, mirrorN := x.fly.mirror.length, tHdr := tHdr
    openTab := (b.openUnits h).map (fun e => (e.1, e.2.wp.toNat, b.doneWp e.1 e.2.wp.toNat))
    erasing := (List.filter (fun e => decide (e.2.state = .erasing)) x.store.recs).map (fun e => (e.1, e.2.slc))
    groups := List.map (fun (e : Nat × Group) => (e.1, e.2.gseq, e.2.members.length, e.2.pages, x.marked e.2.gseq)) b.pair.groups
    defects := x.fly.journal.filterMap (fun e => match e.kind with | .defect d => some d | _ => none) }

/-- The pages of a half's flysheet record (R562, R566). -/
def Block.flyRecord (b : Block) (h : HalfId) (tHdr tSeal : BitVec 32) : List (List Payload) :=
  let f := (b.half h).fly
  flyPages (b.flyHeader h tHdr) f.journal f.mirror f.jbase f.mirBase tSeal

/-- Copy `k` of the record is sealed: its unit takes all pages with fewer than four failures, or its spare does (R563). -/
def Half.copySealed (x : Half) (k fails : Nat) : Bool :=
  (x.fly.units.find? k).isSome && (decide (fails < 4) || ((x.fly.units.find? (k + 2)).isSome && decide (fails < 8)))

/-- FLYSHEET_COMMIT (R562, R563, R566, R568): `tHdr` and `tSeal` are the µs from the latch to the header's assembly and to the seal, `fails0` and `fails1` the page programs of each
copy that fail. -/
def execFlysheetCommit (h : HalfId) (tHdr tSeal : BitVec 32) (fails0 fails1 : Nat) (s : State) : Host.Outcome State Fault Refusal :=
  run (fun b =>
    let x := b.half h
    if b.pair.latched && decide (x.fly.phase = 1) && b.coreRuns h && x.lunsReady then
      let s0 := x.copySealed 0 fails0
      let s1 := x.copySealed 1 fails1
      let b1 := b.onHalf h (fun x => x.onFly (fun f => { f with
        phase := if s0 && s1 then 3 else 2, record := b.flyRecord h tHdr tSeal
        sealed := BitVec.ofNat 2 (bitOf s0 + 2 * bitOf s1)
        copyFails := Tab.set 0 (Tab.set 0 f.copyFails 0 fails0) 1 fails1 }))
      let b2 := if 4 ≤ fails0 then b1.raise h 119 else b1
      if 4 ≤ fails1 then b2.raise h 119 else b2
    else b) s

/-! ### Checkpoints (R555, R556, R542, R585) -/

/-- A checkpoint is due: the own journal has reached CKPT_PCT, a change waits for room, a word of it is poisoned
without a twin's copy, a blank half has written none, or 257 defect additions are journalled (R555, R557, R566, R628). -/
def Half.ckptDue (x : Half) : Bool :=
  (decide (x.fly.ckptPct * x.journalCap ≤ 100 * x.fly.journal.length) && decide (0 < x.fly.journal.length)) ||
    !x.fly.waiting.isEmpty || x.fly.jrnlBad || (x.boot.blank && decide (x.fly.ckptSeq = 0)) ||
    decide (257 ≤ (x.fly.journal.filter (fun e => match e.kind with | .defect _ => true | _ => false)).length)

/-- A yielding half whose contexts have all completed strikes its queues, each with its last header, and holds none (R338, R585). -/
def Half.strikeAll (x : Half) : Half :=
  let strike := fun (adopted : Bool) (y : Half) (e : Nat × Queue) =>
    if e.2.size = 0 || (e.1 = 0 && !adopted) then y
    else (y.freeWatch e.2.watch).writeHeader adopted e.1 { e.2 with state := .struck, watch := none }
  let y := x.que.adopted.foldl (strike true) (x.que.queues.foldl (strike false) x)
  y.onQue (fun m => { m with queues := [(0, Queue.admin)], adopted := [] })

/-- A yielding half has drained: its CLEAN checkpoint may start (R585). -/
def Half.yieldDrained (x : Half) : Bool := decide (x.twn.st = .yielding) && x.que.ctxs.isEmpty && x.que.malformed.isEmpty

/-- CHECKPOINT_START (R555, R557, R585): at an admin-ready half with no checkpoint under way. -/
def execCheckpointStart (h : HalfId) (s : State) : Host.Outcome State Fault Refusal :=
  run (fun b =>
    let x := b.half h
    if b.coreRuns h && !b.pair.latched && x.yieldDrained && x.fly.ckptFrom.isNone then
      (b.onHalf h Half.strikeAll).startCkpt h true
    else if b.coreRuns h && !b.pair.latched && x.ready && !x.boot.recovering && x.fly.ckptFrom.isNone && x.ckptDue &&
        (!x.boot.blank || x.boot.formatted) then
      (b.onHalf h (fun x => x.onFly (fun f => { f with jrnlBad := false }))).startCkpt h false
    else b) s

/-- A journal entry of a group still open: carried forward past a checkpoint (R556). -/
def Pair.carries (p : Pair) (e : JEntry) : Bool := decide (e.gseq ≠ 0) && List.any p.groups (fun g => decide (g.2.gseq = e.gseq))

/-- Both copies sealed: SEQ advances, entries before J0 are discarded but those of open groups, which stand directly before J0 now, and waiting changes are taken (R555, R556). -/
def Block.sealCkpt (b : Block) (h : HalfId) (j0 : Nat) : Block :=
  let c := (b.half h).fly.ckptNew.getD (b.ckptNow h false)
  let kept := (((b.half h).fly.journal.take j0).filter b.pair.carries).map (fun e => { e with old := true, count := 1 })
  let b1 := b.onHalf h (fun x => x.onFly (fun f => { f with
    ckptSeq := f.ckptSeq + 1, ckptFrom := none, ckptNew := none, ckptSlots := f.ckptSlots.put c.slot { c with sealed := 2 }, copies := 2, phase := 0
    journal := kept ++ f.journal.drop j0, jbase := f.jbase + j0 - kept.length }))
  let b2 := b1.onHalf h.twin (fun x => x.onFly (fun f =>
    { f with mirror := if b.linked then (b1.half h).fly.journal else f.mirror, mirBase := if b.linked then (b1.half h).fly.jbase else f.mirBase }))
  (b2.drainJrnl h ((b.half h).fly.waiting.length + 1)).raise h 116

/-- Units of a die that are not retired, highest first, as record indices. -/
def Half.freeUnits (x : Half) (c d : Nat) (n : Nat) : List Nat :=
  ((List.range n).reverse.map (fun u => recIndex c d u)).filter (fun i => decide ((x.rec? i).state ≠ .retired))

/-- A die able to hold a site of flysheet units: SLC capacity of at least 512 unit pages, and four units not retired (R552). -/
def Half.eligible (x : Half) (c d : Nat) : Bool :=
  match x.profile? c d with
  | none => false
  | some p => (x.die c d).present && decide (512 ≤ p.capacity true) && decide (4 ≤ (x.freeUnits c d p.units).length)

/-- The eligible dies of a channel. -/
def Half.eligibleDies (x : Half) (c : Nat) : List (Nat × Nat) :=
  ((List.range 8).filter (x.eligible c)).map (fun d => (c, d))

/-- The unit that takes a flysheet role whose unit `old` fails its erase: the next lower one of its die that is not retired, or else the highest of another eligible die, site 0 from
BOOT_CH on, site 1 from the other home channels on (R552). -/
def Half.nextFlyUnit (v : Variant) (h : HalfId) (x : Half) (role old : Nat) : Option Nat :=
  let c := recCh old
  let d := recDie old
  let spare := fun (e : Nat × Nat) => ((x.profile? e.1 e.2).elim [] (fun p => x.freeUnits e.1 e.2 p.units)).filter (fun i => !List.any x.fly.units (fun u => decide (u.2 = i)))
  match ((spare (c, d)).filter (fun i => decide (i < old))).head? with
  | some i => some i
  | none =>
    let boot := 8 * h.code + bootCh x.boot.strap
    let others := (populated v h x.boot.strap).filter (fun k => decide (k ≠ boot))
    let order := if role % 2 = 0 then boot :: others else others ++ [boot]
    (((order.map x.eligibleDies).flatten.filter (fun e => decide (e ≠ (c, d)))).head?).bind (fun e => (spare e).head?)

/-- A flysheet unit whose erase has failed: its record as any failed erase leaves it and no flysheet unit any more, its role another unit's, which the next checkpoint records
(R114, R552). -/
def Block.replaceFly (b : Block) (h : HalfId) (role : Nat) : Block :=
  let x := b.half h
  match x.fly.units.find? role with
  | none => b
  | some old =>
    let limit := (x.profile? (recCh old) (recDie old)).elim 255 Profile.failLimit
    let b1 := b.updRec h none old 0 0 false (fun r => { r.eraseFailed limit with fly := false })
    let r := (b1.half h).rec? old
    let b2 := if r.state = .retired then b1.addDefect h none { index := old, cause := 1, eraseCnt := r.eraseCnt } else b1
    match (b2.half h).nextFlyUnit b.variant h role old with
    | none => b2
    | some i => (b2.updRec h none i 0 0 false (fun r => { r with fly := true })).onHalf h (fun x => x.onFly (fun f => { f with units := f.units.put role i }))

/-- PS4 entered once its checkpoint is sealed (R542): the twin is told, the enables are dropped. -/
def Block.enterPs4 (b : Block) (h : HalfId) : Block :=
  ((b.send h (.sleep 4)).dropAll h).onHalf h (fun x => { x with
    pwr := { x.pwr with state := 4, entering := false, decGated := true }, fly := { x.fly with clean := false } })

/-- A yielding half ends standby, its enables released and no channel driven (R585). -/
def Block.endYield (b : Block) (h : HalfId) : Block :=
  (b.dropAll h).onHalf h (fun x => { x with
    twn := { x.twn with st := .standby, drives := [], remote := [], yieldSeq := some x.fly.ckptSeq }, fly := { x.fly with clean := false } })

/-- CHECKPOINT_SEALED (R552, R556): where the checkpoint was for PS4 or a YIELD, what follows it takes place. `bad` names the roles of the slot whose units failed their erases before
it was written. -/
def execCheckpointSealed (h : HalfId) (bad : List Nat) (s : State) : Host.Outcome State Fault Refusal :=
  run (fun b =>
    let x := b.half h
    match x.fly.ckptFrom with
    | none => b
    | some j0 =>
      if b.coreRuns h && !b.pair.latched then
        let b1 := (b.sealCkpt h j0).each bad (fun a k => a.replaceFly h k)
        if x.pwr.entering then b1.enterPs4 h
        else if decide (x.twn.st = .yielding) && x.fly.clean then b1.endYield h
        else b1
      else b) s

end Sys2Proof.Machine
end

