-- ==== Sys2Proof/Machine/StoreCmds.lean ====
section
/-!
DEFINITION. Meanings of the record access window, the ageing walker, the drive seed and the memories' fill and clear (03, 06, 12).
-/

namespace Sys2Proof.Machine

open Sys2Proof

/-! ### Profiles and records across the pair -/

/-- The profile of a die as the half that drives its channel has it bound. -/
def Block.profileAt (b : Block) (c d : Nat) : Option Profile :=
  match b.driver c with
  | none => none
  | some g => (b.half g).profile? c d

/-- The index names a unit of a populated die (R103, R118). -/
def Block.unitExists (b : Block) (i : Nat) : Bool :=
  match b.profileAt (recCh i) (recDie i) with
  | none => false
  | some p => (b.dieOf (recCh i) (recDie i)).present && decide (recUnit i < p.units)

/-- The half serves record `i` from its own partition: it keeps the channel's units, or the channel is of its home and no half keeps it (R118). -/
def Block.serves (b : Block) (h : HalfId) (i : Nat) : Bool :=
  match b.keeper (recCh i) with
  | some g => decide (g = h)
  | none => decide (Config.homeOf (recCh i) = h)

/-! ### The record access window (R118) -/

/-- The words of record `i`, lower and higher, that a capture finds poisoned: those that no source repairs, and both where the partition's words have not been written since reset
(R118, R465, R466). -/
def Half.capturePoison (x : Half) (own : Bool) (i : Nat) : BitVec 2 :=
  let unwritten := !(x.mem 1).allWritten && !(if own then x.store.written else x.mir.written)
  let bad := fun (high : Bool) => unwritten || x.store.poisoned.contains (i, high)
  BitVec.ofNat 2 (bitOf (bad false) + 2 * bitOf (bad true))

/-- A capture: the record's 16 bytes, from the own partition or the mirror, with poison where no copy can be read; what stands in a poisoned word is free (R118, R467, R651). -/
def Block.capture (b : Block) (h : HalfId) (i : Nat) : Block :=
  let own := b.serves h i
  let x := b.half h
  let absent := !b.unitExists i
  let p : BitVec 2 := if absent then 0 else x.capturePoison own i
  let r := if own then Tab.get Rec.blank x.store.recs i else Tab.get Rec.blank x.mir.recs i
  let free := fun (k : Nat) => (Config.freeValue (b.freeUses + k)).toNat
  let word := fun (k : Nat) => if p.getLsbD k then free (2 * k) + 2 ^ 32 * free (2 * k + 1) else r.bytes.toNat / 2 ^ (64 * k) % 2 ^ 64
  { b with freeUses := if p = 0 then b.freeUses else b.freeUses + 4 }.onHalf h (fun x => x.onStore (fun s =>
    { s with index := i, valid := true, fromMirror := !own, absent := absent, poison := p
             data := if absent then 0 else BitVec.ofNat 128 (word 0 + 2 ^ 64 * word 1) }))

/-- REC_INDEX_WRITE (R118, R651). -/
def execRecIndexWrite (h : HalfId) (value : Word) (s : State) : Host.Outcome State Fault Refusal :=
  portRun h causeRegister (.recIndexWrite h value) (fun b => b.capture h (value.field 0 18)) s

/-- REC_AGE_WRITE (R124): the period stored; how far the period has run is outside the model. -/
def execRecAgeWrite (h : HalfId) (value : Word) (s : State) : Host.Outcome State Fault Refusal :=
  portRun h causeRegister (.recAgeWrite h value) (fun b => b.onHalf h (fun x => x.onStore (fun t => { t with periodMs := value.field 0 16 }))) s

/-- The walker's visit of a record (R124). -/
def aged (r : Rec) : Rec :=
  if r.state = .opened || r.state = .full then
    if r.nru then { r with nru := false, age := 0 } else { r with age := satBits r.age 1 }
  else r

/-- A walk over the half's own records, poisoned ones skipped (R124, R468). The twin's mirror follows; no rule journals the walk (DESIGN CHOICE, log entry 101). -/
def Block.ageWalk (b : Block) (h : HalfId) : Block :=
  let b1 := b.onHalf h (fun x => x.onStore (fun s =>
    { s with recs := s.recs.foldl (fun m e => if x.recLost e.1 then m else Tab.set Rec.blank m e.1 (aged e.2)) s.recs }))
  if b.linked then b1.onHalf h.twin (fun x => { x with mir := { x.mir with recs := (b1.half h).store.recs } }) else b1

/-- AGEING_WALK (R124): PERIOD_MS has passed; CLK_CORE runs and ageing is on. -/
def execAgeingWalk (h : HalfId) (s : State) : Host.Outcome State Fault Refusal :=
  run (fun b => if b.coreRuns h && decide ((b.half h).store.periodMs ≠ 0) then b.ageWalk h else b) s

/-! ### The drive seed (R236) -/

/-- A unit that keeps the drive seed from changing: open or full, neither a region's nor a flysheet unit (R236). -/
def holdsSeed (r : Rec) : Bool := (decide (r.state = .opened) || decide (r.state = .full)) && !r.rgnOwn && !r.fly

/-- DEC_RAND_SEED written (R236): refused while data stands under the old seed; otherwise journalled, and acknowledged by an attached twin. -/
def Block.writeSeed (b : Block) (h : HalfId) (w : Word) : Block :=
  if List.any b.ha.store.recs (fun e => holdsSeed e.2) || List.any b.hb.store.recs (fun e => holdsSeed e.2) then
    let refuse := fun (x : Half) => { x with dec := { x.dec with refused := true } }
    (b.onHalf .a refuse).onHalf .b refuse
  else
    let v := BitVec.ofNat 31 (w.field 0 31)
    let b1 := (b.onPair (fun p => { p with seed := v, seedSince := p.nextSeq.toNat })).journal h none
      [{ kind := .seed v b.pair.nextSeq.toNat, count := 0, vdelta := 0, freed := false, group := 0, gseq := 0, grew := 0, old := false }]
    b1.onHalf h (fun x => { x with dec := { x.dec with seedWait := b.linked || !(b1.half h).fly.waiting.isEmpty } })

/-- DEC_RAND_SEED_WRITE (R236). -/
def execDecRandSeedWrite (h : HalfId) (value : Word) (s : State) : Host.Outcome State Fault Refusal :=
  portRun h causeRegister (.decRandSeedWrite h value) (fun b => b.writeSeed h value) s

/-! ### Memories and the pool (R471, R473, R650) -/

/-- MEM_INIT_FILL (R471): each memory named is filled where it was unwritten. -/
def execMemInitFill (h : HalfId) (mask : BitVec 5) (s : State) : Host.Outcome State Fault Refusal :=
  portRun h causeRegister (.memInitFill h mask) (fun b => b.onHalf h (fun x =>
    ((List.range 5).filter mask.getLsbD).foldl (fun y m => y.onMem m Mem.fill) x)) s

/-- MEM_CLR (R473, R485). -/
def execMemClr (h : HalfId) (m : Nat) (value : Word) (s : State) : Host.Outcome State Fault Refusal :=
  portRun h causeRegister (.memClr h m value) (fun b => b.onHalf h (fun x => x.onMem m (fun y => y.clear (value.bit 0) (value.bit 1)))) s

/-- POOL_MIN_CLR (R650). -/
def execPoolMinClr (h : HalfId) (s : State) : Host.Outcome State Fault Refusal :=
  portRun h causeRegister (.poolMinClr h) (fun b => b.onHalf h (fun x => { x with pool := { x.pool with minFree := b.poolFree h } })) s

/-! ### Accesses outside (R52, R53, R55) -/

/-- TARGET_ACCESS_OUTSIDE (R52, R53, R55): an error response and no effect; a sleeping half still wakes (R57). -/
def execTargetAccessOutside (h : HalfId) (s : State) : Host.Outcome State Fault Refusal :=
  portRun h causeRegister (.targetAccessOutside h) (fun b => b.respond h Resp.error) s

end Sys2Proof.Machine
end

