-- ==== Sys2Proof/Machine/LoopOps.lean ====
section
/-!
DEFINITION. The loop engine: the modelled current, the half budget, zone counts, a slot's sample, its supervision and trace (13).
-/

namespace Sys2Proof

/-- Figure `k` of a profile's current model, in mA (R105). -/
def Profile.current (p : Profile) (k : Nat) : Nat := p.half (64 + 2 * k)

end Sys2Proof

namespace Sys2Proof.Machine

open Sys2Proof

/-- The half with its loop engine changed. -/
def Half.onLoops (x : Half) (f : Loops → Loops) : Half := { x with loops := f x.loops }

/-- Slot `n`. -/
def Loops.slot (l : Loops) (n : Nat) : Loop := Tab.get Loop.reset l.tab n

/-- A slot changed. -/
def Loops.onSlot (l : Loops) (n : Nat) (f : Loop → Loop) : Loops := { l with tab := Tab.modify Loop.reset l.tab n f }

/-- Zone block `z`. -/
def Loops.zone (l : Loops) (z : Nat) : Zone := Tab.get Zone.reset l.zones z

/-! ### The modelled current and the ceiling (R497-R499) -/

/-- The figure of an operation that runs at a die (R497). -/
def opCurrent (p : Profile) (o : DieOp) : Nat :=
  match o.kind with
  | .fill | .read | .raw => if o.slc then p.current 6 else p.current 1
  | .program | .parity => if o.slc then p.current 7 else p.current 2
  | .erase => p.current 3
  | .setup | .reset => p.current 0

/-- A die's figure: its operation's from the confirm to the ready status, I_IDLE otherwise (R497). -/
def dieCurrent (p : Profile) (e : Die) : Nat :=
  match e.current with
  | none => p.current 0
  | some o => if o.phase.running then opCurrent p o else p.current 0

/-- MODEL_MA: the modelled current of a half (R497). -/
def Half.modelMa (x : Half) : Nat :=
  (x.twn.drives.map (fun c =>
    let bound := List.filter (fun e => e.2.present && e.2.slot.isSome) (x.chan c).dies
    let ps := bound.filterMap (fun e => (x.profile? c e.1).map (fun p => (p, e.2)))
    (ps.map (fun q => dieCurrent q.1 q.2)).sum +
      (ps.map (fun q => Nat.max (q.1.current 4) (q.1.current 5))).foldl Nat.max 0)).sum

/-- The half budget in 1/256 mA (R498). -/
def Block.halfBudget (b : Block) (h : HalfId) : Nat := b.pair.budget * 50 * (if b.linked then (b.half h).loops.share else 256)

/-- LIMIT_MA: the half budget in whole mA (R498). -/
def Block.limitMa (b : Block) (h : HalfId) : Nat := b.halfBudget h / 256

/-- The ceiling lets an operation be admitted, or resumed (R76, R499). -/
def Block.underCeiling (b : Block) (h : HalfId) (p : Profile) (o : DieOp) : Bool :=
  decide (b.pair.budget ≠ 0) && decide ((b.half h).modelMa + opCurrent p o ≤ b.limitMa h + p.current 0)

/-- The ceiling lets the suspended operation of a die be resumed; a latched brown-out resumes it in any case (R171, R499). -/
def Block.mayResume (b : Block) (h : HalfId) (c d : Nat) : Bool :=
  b.pair.latched || ((b.half h).die c d).op.all (fun o => ((b.half h).profile? c d).all (fun p => b.underCeiling h p o))

/-- BUDGET lets a new die operation be admitted at all: at zero none is, but for the flysheet commit (R76). -/
def Block.anyBudget (b : Block) : Bool := decide (b.pair.budget ≠ 0) || b.pair.latched

/-- The enabled budget governor, if there is one (R486). -/
def Loops.budgetSlot (l : Loops) : Option Nat := (List.find? (fun e => e.2.en && decide (e.2.kind = 2)) l.tab).map Prod.fst

/-- DEPTH as a float. -/
def Loops.full (l : Loops) : Word := fltNat l.depth

/-- The bucket: held full while no budget governor runs (R500). -/
def Loops.tokens (l : Loops) : Word :=
  match l.budgetSlot with
  | none => l.full
  | some _ => l.bucket

/-- A whole token is at hand (R410, R500). -/
def Loops.hasToken (l : Loops) : Bool := decide (1 ≤ fltFloor l.tokens)

/-- One admission's token taken (R500). -/
def Loops.takeToken (l : Loops) : Loops :=
  match l.budgetSlot with
  | none => l
  | some _ => { l with bucket := fltSub l.bucket (fltNat 1) }

/-! ### Zones (R493, R494) -/

/-- A unit that a zone's free count takes in (R493). -/
def freeUnit (r : Rec) : Bool :=
  (decide (r.state = .free) || decide (r.state = .erased)) && !r.rgnOwn && !r.fly && decide (r.role = .none)

/-- Units of the dies whose records half `h` serves. -/
def Block.unitsServed (b : Block) (h : HalfId) : Nat :=
  ((Config.pairChannels b.variant).map (fun c =>
    if b.serves h (recIndex c 0 0) then
      ((List.range 8).map (fun d => if (b.dieOf c d).present then (b.profileAt c d).elim 0 Profile.units else 0)).sum
    else 0)).sum

/-- The free count of zone `z` (R493): the units listed, and in zone 0 those never touched. -/
def Block.freeCount (b : Block) (h : HalfId) (z : Nat) : Nat :=
  let mine := List.filter (fun e => b.serves h e.1 && b.unitExists e.1) (b.half h).store.recs
  let listed := (mine.filter (fun e => freeUnit e.2 && decide (e.2.zone.toNat = z))).length
  if z = 0 then b.unitsServed h - mine.length + listed else listed

/-- The region of a free count (R494). -/
def Zone.region (z : Zone) (free : Nat) : Nat :=
  if free ≤ z.crit then 3 else if free ≤ z.tight then 2 else if z.comf ≤ free then 0 else 1

/-- The region of the budget governor (R501). -/
def Block.budgetRegion (b : Block) (h : HalfId) : Nat :=
  let l := (b.half h).loops
  if b.pair.budget ≤ l.spinMax then 2 else if l.seekEdges ≤ l.edges.length then 1 else 0

/-- A slot's inputs: region, setpoint and measured value (R494, R501); none of a slot that is off. -/
def Block.loopInputs (b : Block) (h : HalfId) (y : Loop) : Option (Nat × Word × Word) :=
  match y.kind with
  | 1 =>
    let z := (b.half h).loops.zone y.zone
    let free := b.freeCount h y.zone
    some (z.region free, fltNat z.set, fltNat free)
  | 2 => some (b.budgetRegion h, roundFlt false (b.halfBudget h * (b.half h).loops.target) 25600, fltNat (b.half h).modelMa)
  | _ => none

/-! ### A sample (R488) -/

/-- The gains of a region of a slot. -/
def GainBlk.gain (g : GainBlk) (r : Nat) : Gain := Tab.get Gain.reset g.gains r

/-- The PI computation of R488: the integrator and the output after a sample. `i0` is the integrator after the preset, `old` before. -/
def piStep (g : GainBlk) (k : Gain) (i0 e t : Word) : Word × Word :=
  let iTry := fltAdd i0 (fltMul (fltMul k.ki e) t)
  let u0 := fltAdd (fltMul k.kp e) iTry
  let zero : Word := 0
  let r :=
    if fltLt g.umax u0 then (if fltLt e zero then iTry else i0, g.umax)
    else if fltLt u0 g.umin then (if fltLt zero e then iTry else i0, g.umin)
    else (iTry, u0)
  let i1 := if fltLt r.1 g.umin then g.umin else r.1
  let i2 := if fltLt g.umax i1 then g.umax else i1
  if fltFinite r.2 then (i2, r.2) else (if fltFinite i2 then i2 else i0, g.umin)

/-- The slot after the arithmetic of a sample: region, integrator, output, measured value and error. -/
def Loop.compute (y : Loop) (reg : Nat) (r m : Word) : Loop :=
  let g := y.blk
  let k := g.gain reg
  let i0 := if reg ≠ y.region && !fltNan k.preset then k.preset else y.integ
  let e := fltSub r m
  let p := piStep g k i0 e (fltNat y.periodUs)
  { y with region := reg, integ := if fltFinite p.1 then p.1 else if fltFinite i0 then i0 else y.integ, out := p.2, meas := m, err := e }

/-- The following error (R503). -/
def Loop.following (y : Loop) : Word := if y.kind = 2 then fltNeg y.err else y.err

/-- A timer that starts at 0 and grows by the period while its condition holds (R503). -/
def tickTimer (t : Option Nat) (period : Nat) (on : Bool) : Option Nat :=
  if on then some (t.elim 0 (fun n => n + period)) else none

/-- A timer has reached its limit at this sample. -/
def reached (old new : Option Nat) (limit : Nat) : Bool :=
  match new with
  | none => false
  | some n => decide (limit ≤ n) && old.all (fun m => decide (m < limit))

/-- A sample recorded in the trace (R505). -/
def Loop.record (y : Loop) : Loop :=
  if y.trcMode = 0 || y.trcMode = 3 || y.trcStop then y
  else
    let t := y.trace ++ [(y.meas, y.err, y.integ, y.out)]
    let z := { y with trace := t.drop (t.length - 1024) }
    match y.postLeft with
    | none => z
    | some n => if n ≤ 1 then { z with postLeft := some 0, trcStop := true } else { z with postLeft := some (n - 1) }

/-- An alarm starts the count of trace samples after it (R505). -/
def Loop.alarmed (y : Loop) : Loop :=
  if y.trcMode = 2 && y.postLeft.isNone then { y with postLeft := some y.post, trcStop := decide (y.post = 0) } else y

/-- The supervision of a sample (R503): timers, alarm, fallback and its lifting. -/
def Loops.supervise (l : Loops) (n : Nat) : Loops :=
  let y := l.slot n
  let bad := fltLt y.blk.elim (y.following)
  let stands := l.fallback.contains n
  let f := tickTimer y.follow y.periodUs bad
  let rv := if stands then tickTimer y.recover y.periodUs (!bad) else none
  let alarm := reached y.follow f y.tmrUs
  let lift := stands && reached y.recover rv y.tmrUs
  let y1 := { y with follow := f, recover := if alarm || lift then none else rv }
  let l1 := l.onSlot n (fun _ => if alarm then y1.alarmed else y1)
  { l1 with
    alarm := if alarm && !l.alarm.contains n then l.alarm ++ [n] else l.alarm
    fallback := if alarm then (if stands then l.fallback else l.fallback ++ [n])
                else if lift then l.fallback.filter (fun k => decide (k ≠ n)) else l.fallback }

/-- The budget governor's tokens of a sample (R500, R504), and the ageing of the window's edges (R501). -/
def Loops.refill (l : Loops) (n : Nat) : Loops :=
  let y := l.slot n
  if y.kind = 2 then
    let more := fltDivNat (fltMul y.out (fltNat y.periodUs)) 1000
    let sum := fltAdd l.bucket more
    let top := if fltLt l.full sum then l.full else sum
    let low := if fltLt top 0 then (0 : Word) else top
    { l with
      bucket := if l.fallback.contains n then 0 else low
      edges := (l.edges.map (fun a => a + y.periodUs)).filter (fun a => decide (a ≤ l.seekWin * 1000)) }
  else l

/-- One sample of slot `n` of a half (R487, R488, R491, R503-R505). -/
def Block.sampleOne (b : Block) (h : HalfId) (n : Nat) : Block :=
  let y := (b.half h).loops.slot n
  let y1 := match y.pend with
    | none => y
    | some g => { y with blk := g, pend := none }
  match b.loopInputs h y1 with
  | none => b.onHalf h (fun x => x.onLoops (fun l => l.onSlot n (fun _ => y1)))
  | some (reg, r, m) =>
    b.onHalf h (fun x => x.onLoops (fun l =>
      ((((l.onSlot n (fun _ => (y1.compute reg r m).record))).supervise n).refill n)))

/-- A sample falls due: none is taken in an exit from PS4 (bring-up stage 5), before the slots have started again (R492). -/
def Block.sample (b : Block) (h : HalfId) (n : Nat) : Block := if (b.half h).boot.stage = 5 then b else b.sampleOne h n

/-! ### Starting, stopping, weights (R486, R489, R495) -/

/-- Starting the slot would break a limit of R486. -/
def Loops.conflicts (l : Loops) (n : Nat) : Bool :=
  let y := l.slot n
  List.any l.tab (fun e => decide (e.1 ≠ n) && e.2.en && decide (e.2.kind = y.kind) &&
    (decide (y.kind = 2) || (decide (y.kind = 1) && decide (e.2.zone = y.zone))))

/-- A slot started: timers cleared, the integrator at the preset of the current region, or 0 (R489). -/
def Block.startLoop (b : Block) (h : HalfId) (n : Nat) : Block :=
  let y := (b.half h).loops.slot n
  let reg := (b.loopInputs h y).elim 0 Prod.fst
  let p := (y.blk.gain reg).preset
  b.onHalf h (fun x => x.onLoops (fun l =>
    let l1 := l.onSlot n (fun y => { y with en := true, region := reg, follow := none, recover := none,
                                            integ := if fltNan p then 0 else p })
    if y.kind = 2 then { l1 with bucket := l.tokens } else l1))

/-- A slot stopped, its output and fallback withdrawn (R489). -/
def Loops.stop (l : Loops) (n : Nat) : Loops :=
  let l1 := l.onSlot n (fun y => { y with en := false, out := 0, follow := none, recover := none,
                                          blk := y.pend.getD y.blk, pend := none })
  { l1 with fallback := l.fallback.filter (fun k => decide (k ≠ n)) }

/-- A write of EN (R486, R489); EN = 1 to a slot that runs changes nothing. -/
def Block.writeEn (b : Block) (h : HalfId) (n : Nat) (on : Bool) : Block :=
  let l := (b.half h).loops
  if on then
    if (l.slot n).en then b
    else if l.conflicts n then b.onHalf h (fun x => x.onLoops (fun l => { l with conflict := true }))
    else b.startLoop h n
  else if (l.slot n).en then b.onHalf h (fun x => x.onLoops (fun l => l.stop n)) else b

/-- W_RECLAIM_EFF (R495, R504). -/
def Half.reclaimWeight (x : Half) : Nat :=
  let runs := List.filter (fun e => e.2.en && decide (e.2.kind = 1)) x.loops.tab
  if runs.isEmpty then x.gen.wReclaim
  else (runs.map (fun e => if x.loops.fallback.contains e.1 then 15 else fltWeight e.2.out)).foldl Nat.max 0

/-- A reclaim governor's fallback stands (R504). -/
def Loops.reclaimFallback (l : Loops) : Bool := l.fallback.any (fun n => decide ((l.slot n).kind = 1))

/-- LOOP_COMMIT.GO: every slot's shadows pend for its next sample; a slot that is stopped takes them at once (R491, R645). -/
def Loops.commit (l : Loops) (slots : Nat) : Loops :=
  (List.range slots).foldl (fun m n => m.onSlot n (fun y =>
    if y.en then { y with pend := some y.shadow } else { y with blk := y.shadow, pend := none })) l

/-- TRC_MODE written: recording restarts (R505). -/
def Loop.setTrace (y : Loop) (mode : Nat) : Loop := { y with trcMode := mode, trcStop := false, trace := [], postLeft := none }

/-- LOOP_TRC_SEL written: one trace sample captured (R505). -/
def Loops.select (l : Loops) (slot index : Nat) : Loops :=
  let t := (l.slot slot).trace.getD index (0, 0, 0, 0)
  { l with trcSlot := slot, trcIndex := index, trcData := [t.1, t.2.1, t.2.2.1, t.2.2.2] }

end Sys2Proof.Machine
end

