-- ==== Sys2Proof/Machine/WindowCmds.lean ====
section
/-!
DEFINITION. The code window: its mapping and the mapping's commit, the line buffer, and where a region's lines lie (R56, R126-R131).
-/

namespace Sys2Proof.Machine

open Sys2Proof

/-- The half with its code window changed. -/
def Half.onWin (x : Half) (f : Window → Window) : Half := { x with win := f x.win }

/-- Descriptor of region `n`. -/
def Window.region (w : Window) (n : Nat) : RgnDesc := Tab.get RgnDesc.none w.desc n

/-- Region `n` as a half holds it: its own, or, of a twin whose queue it has adopted, the twin's (R126, R404). -/
def Half.regionOf (x : Half) (own : Bool) (n : Nat) : RgnDesc := if own then x.win.region n else Tab.get RgnDesc.none x.mir.regions n

/-- The half with that descriptor replaced. -/
def Half.setRegion (x : Half) (own : Bool) (n : Nat) (d : RgnDesc) : Half :=
  if own then x.onWin (fun w => { w with desc := w.desc.put n d }) else { x with mir := { x.mir with regions := x.mir.regions.put n d } }

/-- The half-wide close sequence number that the next close takes: past the highest that a descriptor shows, which a REGION_OPEN leaves standing (R127, R138). -/
def nextClose (t : Tab RgnDesc) : BitVec 32 := (t.map (fun e => e.2.commitSeq)).foldl (fun a s => if a < s then s else a) 0 + 1

/-- The mapped region that covers a window offset below RGN_WIN_LIMIT, with the number of its line (R128). -/
def Window.find (w : Window) (offset : Nat) : Option (Nat × Nat) :=
  if w.limit * 65536 ≤ offset then none
  else
    (List.find? (fun e => e.2.en && decide (e.2.base * 65536 ≤ offset) &&
      decide (offset < (e.2.base + (w.region e.1).size) * 65536)) w.map).map
      (fun e => (e.1, (offset - e.2.base * 65536) / 4096))

/-- The line in the buffer, if it is held. -/
def Window.line? (w : Window) (r n : Nat) : Option FLine :=
  w.lines.find? (fun l => decide (l.region = r) && decide (l.line = n))

/-- The line made the most recently used (R131). -/
def Window.touch (w : Window) (l : FLine) : Window := { w with lines := l :: w.lines.filter (fun k => decide (k ≠ l)) }

/-- The bytes of a burst within its line, as a response (R56, R131). -/
def FLine.answer (l : FLine) (offset beats : Nat) : Resp :=
  { ok := true, data := l.data.toNat / 2 ^ (8 * (offset % 4096)) % 2 ^ (512 * beats), poison := l.poison }

/-- The units of a region's copy: the non-retired units at or after its first record index, on its die (R126). -/
def Block.copyUnits (b : Block) (h : HalfId) (first need : Nat) : List Nat :=
  match b.profileAt (recCh first) (recDie first) with
  | none => []
  | some p =>
    (((List.range p.units).filter (fun u => decide (recUnit first ≤ u))).map (fun u => recIndex (recCh first) (recDie first) u)).filter
      (fun i => decide (((b.half h).rec? i).state ≠ .retired)) |>.take need

/-- Units a copy of `size` × 64 KiB takes on the die of record `first` (R126). -/
def Block.unitsFor (b : Block) (first size : Nat) : Nat :=
  match b.profileAt (recCh first) (recDie first) with
  | none => 0
  | some p => if p.capacity true = 0 then 0 else (4 * size + p.capacity true - 1) / p.capacity true

/-- Record, unit page and slot of line `n` of a copy (R110, R126). -/
def Block.linePlace (b : Block) (h : HalfId) (first size n : Nat) : Option (Nat × Nat × Nat) :=
  match b.profileAt (recCh first) (recDie first) with
  | none => none
  | some p =>
    let c := p.capacity true
    ((b.copyUnits h first (b.unitsFor first size))[n / 4 / c]?).map (fun i => (i, n / 4 % c, n % 4))

/-! ### The mapping (R129, R130, R645) -/

/-- Two mapped regions overlap in the window. -/
def Window.overlaps (w : Window) (p q : Nat × WinMap) : Bool :=
  decide (p.1 < q.1) && p.2.en && q.2.en && decide (p.2.base < q.2.base + (w.region q.1).size) &&
    decide (q.2.base < p.2.base + (w.region p.1).size)

/-- The cause for which a new mapping is refused, if any: R130's conditions in its order. -/
def Window.mapFault (w : Window) (m : Tab WinMap) : Option Nat :=
  if m.any (fun e => e.2.en && !(decide ((w.region e.1).kind = .code) && decide ((w.region e.1).state = .closed))) then some 1
  else if m.any (fun p => m.any (fun q => w.overlaps p q)) then some 0
  else if m.any (fun e => e.2.en && decide (w.limit < e.2.base + (w.region e.1).size)) then some 2
  else none

/-- The pending mapping applied or refused (R129, R130). -/
def Window.applyMap (w : Window) (m : Tab WinMap) : Window :=
  match w.mapFault m with
  | some c => { w with pend := none, shadow := w.map, refused := true, cause := c }
  | none =>
    { w with pend := none, map := m, refused := false
             lines := w.lines.filter (fun l => decide (Tab.get WinMap.off w.map l.region = Tab.get WinMap.off m l.region)) }

/-- A fetch line boundary: no fetch burst and no line fill in progress. What waits for it takes place (R129, R131). -/
def Window.boundary (w : Window) : Window :=
  if w.fills.isEmpty && w.stalled.isEmpty then
    let w1 := match w.pend with
      | none => w
      | some m => w.applyMap m
    if w1.flushDue then { w1 with lines := [], flushDue := false } else w1
  else w

/-- RGN_COMMIT_GO (R129, R130, R645). -/
def execRgnCommitGo (h : HalfId) (s : State) : Host.Outcome State Fault Refusal :=
  portRun h causeRegister (.rgnCommitGo h) (fun b => b.onHalf h (fun x => x.onWin (fun w => { w with pend := some w.shadow }.boundary))) s

/-- RGN_LINE_FLUSH (R131). -/
def execRgnLineFlush (h : HalfId) (s : State) : Host.Outcome State Fault Refusal :=
  portRun h causeRegister (.rgnLineFlush h) (fun b => b.onHalf h (fun x => x.onWin (fun w => { w with flushDue := true }.boundary))) s

end Sys2Proof.Machine
end

