-- ==== Sys2Proof/Machine/Flags.lean ====
section
/-!
DEFINITION. The conditions a running command gathers, the status they give, and the RESULT of reads and programs (R263-R266, R355,
R366, R371, R372).
-/

namespace Sys2Proof.Machine

open Sys2Proof

/-- The first status of R355 that applies, or the success status. -/
def Flags.status (f : Flags) (good : Status) : Status :=
  if f.aborted then .aborted
  else if f.xferError then .xferError
  else if f.sourcePoison then .sourcePoison
  else if f.dataPoison then .dataPoison
  else if f.unc then .uncorrectable
  else if f.fail then .fail
  else if f.verifyFail then .verifyFail
  else if f.compareMiss then .compareMiss
  else good

end Sys2Proof.Machine

namespace Sys2Proof

/-- A value at byte `i` of a reply entry as a part of RESULT, whose first byte is byte 49 (R314). -/
def atByte (i v n : Nat) : Nat := at' v (8 * (i - 49)) n

/-! ### Codewords (R264-R266) -/

/-- The codeword is uncorrectable. -/
def Cw.unc (k : Cw) : Bool := decide (k.fin = some .unc)

/-- The codeword finished at step 3, 4 or 5. -/
def Cw.retried (k : Cw) : Bool := decide (3 ≤ k.step) && !k.unc

/-- OUTCOME (R264). -/
def outcomeOf (l : List Cw) : Nat := if l.any Cw.unc then 2 else if l.any Cw.retried then 1 else 0

/-- The lowest PADDR of the uncorrectable codewords, 0 where there is none (R264, R366). -/
def uncFirst (l : List Cw) : Nat :=
  match (l.filter Cw.unc).map (fun k => k.paddr.toNat) with
  | [] => 0
  | a :: r => r.foldl Nat.min a

/-- MAX_BITS (R265, R266). -/
def maxBitsOf (l : List Cw) : Nat := (l.map Cw.bits).foldl Nat.max 0

/-- MAX_STEP (R265): step 6 for an uncorrectable codeword. -/
def maxStepOf (l : List Cw) : Nat := (l.map (fun k => if k.unc then 6 else k.step)).foldl Nat.max 0

/-- The codewords of a command's own data, its read-backs, samples and members apart. -/
def Machine.Ctx.mains (c : Machine.Ctx) : List Cw := c.cws.filter (fun k => decide (k.role = .main))

/-- RESULT of a READ or a PATROL (R366); `watch` is the threshold of a WATCH queue, `cmp` the first difference under CMP. -/
def readResult (l : List Cw) (watch : Option Nat) (cmp : Option Nat) : Nat :=
  let basic := atByte 49 (outcomeOf l) 2 + at' (bitOf (l.any (fun k => decide (k.fin = some .erased)))) 2 1 +
    atByte 50 (l.filter Cw.unc).length 16 + atByte 52 (uncFirst l) 40 + atByte 59 (cmp.getD 0) 32
  match watch with
  | none => basic
  | some t => basic + at' (bitOf (decide (t ≤ maxBitsOf l))) 3 1 + at' (maxStepOf l) 4 3 + at' 1 7 1 + atByte 57 (maxBitsOf l) 16

/-- RESULT of a program (R371). -/
def programResult (fail : Bool) (hold : Option Nat) (failN paddr failPaddr maxBits : Nat) : Nat :=
  at' (bitOf fail) 0 1 + at' (bitOf hold.isSome) 1 1 + at' (hold.getD 0) 2 6 + atByte 50 failN 8 + atByte 51 paddr 40 +
    atByte 56 failPaddr 40 + atByte 61 maxBits 16

/-! ### Samples of BLANK_CHECK (R375, R376) -/

/-- The unit page of the first sample for which `f` holds, 0xFFFF where none does. -/
def firstPage (l : List (Nat × Sample)) (f : Sample → Bool) : Nat :=
  match l.find? (fun e => f e.2) with
  | none => 0xFFFF
  | some e => e.1

/-- RESULT of a BLANK_CHECK (R376). -/
def blankResult (l : List (Nat × Sample)) : Nat :=
  atByte 49 (classOf (l.map Prod.snd)) 2 + atByte 50 l.length 16 +
    atByte 52 (firstPage l (fun s => decide (s = .erased))) 16 +
    atByte 54 (l.filter (fun e => decide (e.2 = .odd))).length 16 +
    atByte 56 (firstPage l.reverse (fun s => decide (s = .programmed))) 16

/-! ### Erases and invalidations -/

/-- RESULT of an ERASE (R372). -/
def eraseResult (r : Rec) : Nat := atByte 49 r.eraseCnt.toNat 24 + atByte 52 r.state.code 3

/-- RESULT of an INVALIDATE (R373). -/
def invalidateResult (r : Rec) (underflow : Bool) : Nat :=
  atByte 49 r.valid.toNat 16 + atByte 51 r.state.code 3 + at' (bitOf underflow) (8 * 2 + 3) 1

end Sys2Proof
end

