-- ==== Sys2Proof/Machine/Reset.lean ====
section
/-!
DEFINITION. Meanings of the resets, the peg phase, the PLLs and the chip signals that hold bring-up (02, 15, 19).
-/

namespace Sys2Proof.Machine

open Sys2Proof

/-- Accesses stand at the half's target port, held by freeze or stalled (R58, R131, R479). -/
def Block.portBusy (b : Block) (h : HalfId) : Bool :=
  b.pair.held.any (fun e => decide (e.1 = h) && e.2.1) || !(b.half h).win.stalled.isEmpty || List.any (b.half h).gut.tab (fun e => decide (e.2.stalled ≠ 0))

/-- The target port as a reset leaves it: every access that stood there has ended with an error response (R58). -/
def Block.portEnded (b : Block) (h : HalfId) : Resp := if b.portBusy h then Resp.error else Resp.reset

/-- A half as PORST_n low leaves it: the level of its HRST pin stands. -/
def Block.coldHalf (b : Block) (h : HalfId) : Half :=
  let r := Half.reset b.variant
  { r with boot := { r.boot with hrst := (b.half h).boot.hrst }, port := b.portEnded h }

/-- The pair right after PORST_n low or a loss of supply: every state at reset, every channel parked with WP_n low, the levels of the input pins kept (R60-R62, R620,
R673). -/
def Block.cold (b : Block) (powered : Bool) : Block :=
  let r := Block.reset b.variant
  { r with freeUses := b.freeUses, ha := b.coldHalf .a, hb := b.coldHalf .b
           pair := { r.pair with powered := powered, brownout := b.pair.brownout, budgetIn := b.pair.budgetIn, budgetTgl := b.pair.budgetTgl
                                 updateEn := b.pair.updateEn
                                 pads := b.pair.pads.foldl (fun (t : Tab PadRing) e => Tab.set PadRing.reset t e.1 { e.2.select none with wp := false }) [] } }

/-- PORST_N_LOW (R620): the cold reset; the supply stands while PORST_n is driven (R80). -/
def execPorstNLow (s : State) : Host.Outcome State Fault Refusal := run (fun b => b.cold true) s

/-- What the twin of a half that is lost or reset knew of its dies and holds by its bindings and replies: the channels it drove, kept for a takeover (R581, R586). -/
def Block.keepLost (b : Block) (h : HalfId) : Block :=
  let x := b.half h
  b.onHalf h.twin (fun y => { y with mir := { y.mir with
    chans := List.filter (fun e => x.drivesCh e.1) x.chans, holds := x.pool.holds.map Prod.fst } })

/-- What freeze held at the ports of one half is gone. -/
def Block.dropHeld (b : Block) (h : HalfId) : Block := b.onPair (fun p => { p with held := p.held.filter (fun e => decide (e.1 ≠ h)) })

/-- One half without VDD_AON: its state is lost, its pads lose their enables, and it is silent until a cold reset finds it supplied (R606, R636, R675). -/
def Block.unpower (b : Block) (h : HalfId) : Block :=
  let b1 := ((if b.linked then b.keepLost h else b).dropAll h).dropHeld h
  let r := Half.reset b.variant
  b1.onHalf h (fun y => { r with boot := { r.boot with aon := false, hrst := y.boot.hrst }, port := y.port })

/-- SUPPLY_LOSS (R673): all on-chip state is lost, or that of one half whose VDD_AON is gone (R675); what flash holds is outside the block. -/
def execSupplyLoss (half : Option HalfId) (s : State) : Host.Outcome State Fault Refusal :=
  run (fun b => match half with
    | none => b.cold false
    | some h => b.unpower h) s

/-- PEG_PHASE_START (R82, R88). -/
def execPegPhaseStart (s : State) : Host.Outcome State Fault Refusal :=
  run (fun b => if b.pair.powered && decide (b.pair.phase = .reset) then
      b.onPair (fun p => { p with phase := .peg }) else b) s

/-- PEG_CYCLE_END (R88): one of the three samples of every strap line. -/
def execPegCycleEnd (h : HalfId) (lines : BitVec 16) (s : State) : Host.Outcome State Fault Refusal :=
  run (fun b =>
    if decide (b.pair.phase ≠ .reset) && b.alive h && !(b.half h).boot.latched && decide ((b.half h).boot.samples.length < 3) then
      b.onHalf h (fun x => { x with boot := { x.boot with samples := x.boot.samples ++ [lines] } })
    else b) s

/-- Bit by bit majority of three samples (R88). -/
def majority (a b c : BitVec 16) : BitVec 16 := (a &&& b) ||| (a &&& c) ||| (b &&& c)

/-- Bits whose three samples were not unanimous (R93). -/
def splitBits (a b c : BitVec 16) : BitVec 16 := (a ||| b ||| c) &&& ~~~(a &&& b &&& c)

/-- Strap bits the configuration reads: in BRX-4T POP_MASK[7:2] read zero (R93). -/
def strapMask (v : Variant) : BitVec 16 := match v with | .brx16T => 0xFFFF | .brx4T => 0xFF03

/-- A half halted in bring-up (R636): it serves its register window, drives no pad and reaches standby; a strap fault of R90 likewise. -/
def Block.halt (b : Block) (h : HalfId) (cause : Nat) : Block :=
  (b.dropAll h).onHalf h (fun x => { x with
    boot := { x.boot with stage := 15, haltCause := cause }
    twn := { x.twn with st := if cause = 7 then x.twn.st else .standby, drives := [] } })

/-- A half takes channels to drive. -/
def Half.drive (x : Half) (l : List Nat) : Half := { x with twn := { x.twn with drives := l } }

/-- A half that starts detached (R91): it waits for ATTACH. -/
def Half.detached (x : Half) : Half :=
  { x with boot := { x.boot with startedDetached := true }, twn := { x.twn with st := .standby, drives := [] } }

/-- CONFLICT set (R91). -/
def Half.conflicted (x : Half) : Half := { x with boot := { x.boot with conflict := true } }

/-- Half `h` takes its absent twin's channels too, as populated (R91, R92). -/
def Block.takeAbsent (b : Block) (h : HalfId) : Block :=
  b.onHalf h (fun x => { x.drive (populated b.variant h x.boot.strap ++ Config.homeChannels b.variant h.twin) with
    boot := { x.boot with twinAbsent := true } })

/-- The straps of both halves told to each other, and resolved (R91). -/
def Block.resolveStraps (b0 : Block) : Block :=
  let heard := fun (x : Half) => { x with boot := { x.boot with answered := true } }
  let b := (b0.onHalf .a heard).onHalf .b heard
  let v := b.variant
  let wa := b.ha.boot.strap
  let wb := b.hb.boot.strap
  let pa := populated v .a wa
  let pb := populated v .b wb
  match b.ha.boot.strapErr, b.hb.boot.strapErr with
  | true, true => b
  | true, false => b.takeAbsent .b
  | false, true => b.takeAbsent .a
  | false, false =>
    match soleSide wa, soleSide wb with
    | false, false => (b.onHalf .a (fun x => x.drive pa)).onHalf .b (fun x => x.drive pb)
    | false, true =>
      (b.onHalf .b (fun x => (x.drive (pa ++ pb)).conflicted)).onHalf .a (fun x => x.detached.conflicted)
    | _, _ =>
      (b.onHalf .a (fun x => (x.drive (pa ++ pb)).conflicted)).onHalf .b (fun x => x.detached.conflicted)

/-- A half whose peg phase ends once its twin has taken it as absent: the twin drives its channels, and it starts detached. R91 does not say what such a half does (DESIGN CHOICE, log
entry 98). -/
def Block.tooLate (b : Block) (h : HalfId) : Block := b.onHalf h Half.detached

/-- PEG_PHASE_END (R88-R92, R98): straps latched and exchanged, where the guy link carries the answer (`link`), the pins parked, and a freeze that waited begins. -/
def execPegPhaseEnd (h : HalfId) (link : Bool) (s : State) : Host.Outcome State Fault Refusal :=
  run (fun b =>
    match (b.half h).boot.samples, (b.half h).boot.latched with
    | [x, y, z], false =>
      let v := b.variant
      let w := majority x y z &&& strapMask v
      let err := strapFault v w
      let b1 := (b.onHalf h (fun q => { q with
        boot := { q.boot with strap := w, split := splitBits x y z, latched := true, strapErr := err,
                              stage := if err then 15 else q.boot.stage, haltCause := if err then 7 else 0 } })).onPair
        (fun p => { p with phase := .parked })
      let t := (b1.half h.twin).boot
      let b2 := if t.twinAbsent && !err then b1.tooLate h else if t.latched && link then b1.resolveStraps else b1
      if b2.pair.frzPend then b2.askFreeze 1 else b2
    | _, _ => b) s

/-- A half that has taken its twin as absent keeps the channels whose enable the interlock gives it; refused on every channel of the twin, it takes the guy link for
failed, keeps its own channels and raises the alarm (R36, R91). -/
def Block.keepTaken (b : Block) (h : HalfId) : Block :=
  if (b.half h).boot.twinAbsent then
    let b1 := b.onHalf h (fun x => x.drive (x.twn.drives.filter (fun c => b.enabled h c)))
    if (b1.half h).twn.drives.any (fun c => decide (Config.homeOf c ≠ h)) then b1
    else (b1.onHalf h (fun x => { x with boot := { x.boot with twinAbsent := false }, twn := { x.twn with st := .linkFault, linkAlarm := true } })).raise h 105
  else b

/-- The pad sets of a half enabled, with WP_n low: bring-up reaches discovery (R626 step 4). -/
def Block.enterDiscovery (b : Block) (h : HalfId) : Block :=
  (((b.takeAll h).driveWp h false).keepTaken h).onHalf h (fun x => { x with boot := { x.boot with stage := 2 } })

/-- The half has nothing to do before its first pad enable: CLK_CORE runs, its twin has answered or is taken as absent, and the fill has ended where straps ask for it (R91,
R626). -/
def Half.fillDone (x : Half) : Bool :=
  decide (x.boot.stage = 1) && x.boot.coreLock && !x.boot.heldReset && !x.boot.hrst && (x.boot.answered || x.boot.twinAbsent) &&
    (x.boot.filled || !groundsheet x.boot.strap)

/-- A brown-out latched before the pair's first run phase stands in the way of its first pad enable (R79, R549). -/
def Block.earlyLatch (b : Block) : Bool := b.pair.latched && !b.pair.ranPhase

/-- Halves that wait for their first pad enable go on to it, unless an early brown-out stands in the way. -/
def Block.goDiscover (b : Block) (h : HalfId) : Block :=
  if (b.half h).fillDone && !b.earlyLatch && !b.pair.frozen then b.enterDiscovery h else b

/-- TWIN_ANSWER_TIMEOUT (R91): no answer from the twin within 1 ms of the peg end; subject to the interlock (R36). -/
def execTwinAnswerTimeout (h : HalfId) (s : State) : Host.Outcome State Fault Refusal :=
  run (fun b =>
    let x := b.half h
    if x.boot.latched && !x.boot.strapErr && !x.boot.answered && !x.boot.twinAbsent && !x.boot.startedDetached && !b.pair.frozen then
      (b.takeAbsent h).goDiscover h
    else b) s

/-- Bring-up goes on with CLK_CORE: latched events are counted, UPDATE_EN is taken, and the fill step is entered (R73, R510, R626); freeze holds it at its step (R635). -/
def Block.resumeBring (b : Block) (h : HalfId) : Block :=
  let x := b.half h
  if b.pair.frozen || !x.boot.coreLock || x.boot.heldReset || x.boot.hrst || !x.boot.latched then b
  else if x.boot.stage = 0 || x.boot.stage = 1 then
    (b.onHalf h (fun x => { x with boot := { x.boot with stage := 1 }, win := { x.win with updateEn := b.pair.updateEn } }.countLatched)).goDiscover h
  else b

/-- The latch of an early brown-out discarded, and bring-up gone on (R549). -/
def Block.discardEarly (b : Block) : Block :=
  let clear := fun (x : Half) => x.onFly (fun f => { f with phase := 0, shortHold := false })
  ((((b.onPair (fun p => { p with latched := false, bringHold := false })).onHalf .a clear).onHalf .b clear).goDiscover
    .a).goDiscover .b

/-- EARLY_BROWNOUT_DISCARD (R549): at the pair's first pad enable. -/
def execEarlyBrownoutDiscard (s : State) : Host.Outcome State Fault Refusal :=
  run (fun b =>
    if b.earlyLatch && (b.ha.fillDone || b.hb.fillDone) then
      if b.pair.brownout then b.onPair (fun p => { p with bringHold := true }) else b.discardEarly
    else b) s

/-- BROWNOUT_FALL (R548, R549): a latched brown-out stays latched, but for one that holds bring-up. -/
def execBrownoutFall (s : State) : Host.Outcome State Fault Refusal :=
  run (fun b =>
    let b1 := b.onPair (fun p => { p with brownout := false })
    if b.pair.bringHold then b1.discardEarly else b1) s

/-- PLL_LOCK (R530, R626 step 2, R620): the clocks of a PLL become available. With CLK_CORE, BUDGET is captured afresh (R73), a half held in reset
by a PLL loss restarts bring-up, and bring-up enters the fill step. A PLL locks under freeze too; the half goes on at the thaw (R606, R635). -/
def execPllLock (h : HalfId) (pll : Pll) (s : State) : Host.Outcome State Fault Refusal :=
  run (fun b =>
    let x := b.half h
    if !x.boot.latched || !b.alive h || x.boot.failed then b
    else
      match pll with
      | .dec => b.onHalf h (fun x => { x with boot := { x.boot with decLock := true } })
      | .phy c => b.onHalf h (fun x => { x with boot := { x.boot with
          phyLock := if x.boot.phyLock.contains c then x.boot.phyLock else x.boot.phyLock ++ [c] } })
      | .core =>
        if x.boot.coreLock then b
        else if x.boot.heldReset && b.pair.latched && !b.earlyLatch then b
        else
          ((b.onHalf h (fun x => { x with boot := { x.boot with coreLock := true, heldReset := false } })).onPair (fun p =>
            if p.frozen then p else { p with budget := p.budgetIn })).resumeBring h) s

/-- The number by which a PLL's failed starts are kept. -/
def pllKey : Pll → Nat
  | .core => 0
  | .dec => 1
  | .phy c => 2 + c

/-- PLL_LOCK_TIMEOUT (R530): started once more with source 115 raised; a second failure is a fault of the whole half. -/
def execPllLockTimeout (h : HalfId) (pll : Pll) (s : State) : Host.Outcome State Fault Refusal :=
  run (fun b =>
    let x := b.half h
    if b.pair.frozen || x.boot.failed || !x.boot.latched || !b.alive h then b
    else if Tab.get 0 x.boot.pllTries (pllKey pll) = 0 then
      (b.onHalf h (fun x => { x with boot := { x.boot with pllTries := Tab.set 0 x.boot.pllTries (pllKey pll) 1 } })).raise h 115
    else b.halfFault h) s

/-- GROUNDSHEET_FILL (R470): at the fill step of bring-up, and after an exit from PS4, where the straps ask for it. -/
def execGroundsheetFill (h : HalfId) (s : State) : Host.Outcome State Fault Refusal :=
  run (fun b =>
    let x := b.half h
    if groundsheet x.boot.strap && !x.boot.filled && b.coreRuns h && (decide (x.boot.stage = 1) || decide (x.boot.stage = 5))
    then (b.onHalf h (fun x => { x.fillAll with boot := { x.boot with filled := true } })).goDiscover h
    else b) s

/-- A half after a half reset (R620, R621, R647): every register at its reset value but those held on AON; straps kept. -/
def Half.halfReset (v : Variant) (x : Half) (drives : List Nat) (standby : Bool) (lock : Bool) (port : Resp) : Half :=
  let r := Half.reset v
  { r with
    boot := { r.boot with samples := x.boot.samples, strap := x.boot.strap, split := x.boot.split, latched := x.boot.latched,
                          conflict := x.boot.conflict, strapErr := x.boot.strapErr, answered := x.boot.answered, aon := x.boot.aon, hrst := x.boot.hrst,
                          startedDetached := x.boot.startedDetached, twinAbsent := x.boot.twinAbsent, coreLock := lock,
                          heldReset := !lock,
                          stage := if x.boot.strapErr then 15 else if lock && x.boot.latched then 1 else 0,
                          haltCause := if x.boot.strapErr then 7 else 0 }
    twn := { r.twn with st := if standby then .standby else .solo, drives := drives }
    port := port }

/-- The reset of one half (R58, R620-R622, R625): what stood at its ports ends; while a brown-out is latched, but for an early one (R79), it is held in reset until the next
cold reset; a half whose twin is attached, or that was standby, comes up standby; another restarts bring-up from the fill step. An ATTACH under way leaves its twin standby, or alone (R600). A freeze goes on, and the ownership of
the half's channels with it until the thaw (R69, R620). -/
def Block.resetHalf (b : Block) (h : HalfId) (lock : Bool) : Block :=
  let x := b.half h
  let v := b.variant
  let stop := b.pair.latched && !b.earlyLatch
  let twin := b.linked
  let b1 := ((if twin then b.keepLost h else b).dropAll h).dropHeld h
  let standby := twin || x.aside
  let b2 := b1.onHalf h (fun y =>
    let z := y.halfReset v (if standby then [] else y.twn.drives) standby (lock && !stop) (b.portEnded h)
    { z with store := { z.store with defects := if twin then y.store.defects else [] } })
  let b2 := if x.twn.st = .syncing then b2.onHalf h.twin (fun y => y.onTwn (fun t => { t with st := if y.aside then .standby else .solo })) else b2
  if stop then b2.onHalf h (fun y => { y with boot := { y.boot with heldReset := true } }) else b2.resumeBring h

/-- HALF_RESET (R620, R621, R622): HRST_x_n low resets the half and holds it (R675); as it rises bring-up goes on, or the half is standby (R625). -/
def execHalfReset (h : HalfId) (low : Bool) (s : State) : Host.Outcome State Fault Refusal :=
  run (fun b =>
    let b1 := b.onHalf h (fun x => { x with boot := { x.boot with hrst := low } })
    if !b.alive h || decide (b.pair.phase = .reset) then b1
    else if low then b1.resetHalf h (b.half h).boot.coreLock
    else b1.resumeBring h) s

/-- PLL_LOCK_LOSS (R620): a running CLK_CORE PLL loses lock; the half is reset, and held until the PLL locks again (R675). -/
def execPllLockLoss (h : HalfId) (s : State) : Host.Outcome State Fault Refusal :=
  run (fun b => if (b.half h).boot.coreLock && decide ((b.half h).pwr.state ≤ 2) then b.resetHalf h false else b) s

/-- An edge of BUDGET_TGL counted by the loop engine: the last 255 are enough for any SEEK_EDGES (R501, R506). -/
def Half.countEdge (x : Half) : Half :=
  { x with loops := { x.loops with edges := (x.loops.edges ++ [0]).drop (x.loops.edges.length + 1 - 255) } }

/-- BUDGET_TGL (R73, R498): the new value is captured; the ceiling follows at once, and the loop engine counts the edge. -/
def execBudgetTgl (value : Nat) (s : State) : Host.Outcome State Fault Refusal :=
  run (fun b =>
    let edge := fun (x : Half) => x.countEdge
    let b1 := b.onPair (fun p => { p with budgetIn := value % 256, budgetTgl := !p.budgetTgl })
    if b.pair.frozen then b1
    else ((b1.onPair (fun p => { p with budget := value % 256 })).onHalf .a edge).onHalf .b edge) s

end Sys2Proof.Machine
end

