-- ==== Sys2Proof/Machine/CmdOps.lean ====
section
/-!
DEFINITION. The data path's shared operations: where a PADDR leads, the checks of the commands, reservations, the codewords of a
read and the unit pages of a program, holds, and the end of a command (03, 05, 06, 07, 09).
-/

namespace Sys2Proof.Machine

open Sys2Proof

/-! ### Where a PADDR leads (R99-R103, R110, R359) -/

/-- A unit page as the pair serves it: the half that keeps its record, the half that drives its channel, record index, unit page, profile
and mode. -/
structure Place where
  keep : HalfId
  drv  : HalfId
  idx  : Nat
  page : Nat
  prof : Profile
  slc  : Bool
  deriving DecidableEq, Repr

/-- The place of unit page `n` of record `i`. -/
def Block.placeOf (b : Block) (i n : Nat) : Option Place :=
  match b.keeper (recCh i), b.driver (recCh i) with
  | some k, some g => ((b.half g).profile? (recCh i) (recDie i)).map (fun p =>
      { keep := k, drv := g, idx := i, page := n, prof := p, slc := (b.half k).slcOf i })
  | _, _ => none

/-- A codeword's die has 352-byte parity (R228). -/
def Block.cwShort (b : Block) (k : Cw) : Bool := (b.placeOf k.idx k.page).any (fun t => t.prof.parity352)

/-- Where a PADDR leads, if R102 lets it name a codeword. -/
def Block.locate (b : Block) (p : Paddr) : Option Place :=
  let c := (addrOf p).channel
  match b.keeper c, b.driver c with
  | some k, some g =>
    ((b.half g).resolve (strapDies (b.half g).boot.strap) p (b.half k).slcOf).bind (fun e => b.placeOf e.1 e.2)
  | _, _ => none

/-- Where a unit PADDR leads (R359). -/
def Block.locateUnit (b : Block) (p : Paddr) : Option Place :=
  let a := addrOf p
  (b.locate p).bind (fun t =>
    if a.slot = 0 && a.page = 0 && a.plane = 0 && a.block % t.prof.g = 0 then some { t with page := 0 } else none)

/-- Where the PADDR of a first unit page leads: slot zero (R359). -/
def Block.locatePage (b : Block) (p : Paddr) : Option Place := if (addrOf p).slot = 0 then b.locate p else none

/-- The record of a place. -/
def Block.recAt (b : Block) (t : Place) : Rec := (b.half t.keep).rec? t.idx

/-- The drive term of a unit's seeds: zero for region and flysheet units (R234). -/
def Block.driveOf (b : Block) (t : Place) : BitVec 31 :=
  let r := b.recAt t
  if r.rgnOwn || r.fly then 0 else b.pair.seed

/-- The record of unit `i` is poisoned at half `k`, with no source left to repair it from (R468). -/
def Block.lostRec (b : Block) (k : HalfId) (i : Nat) : Bool := (b.half k).recLost i

/-- C of a place (R110). -/
def Place.cap (t : Place) : Nat := t.prof.capacity t.slc

/-- The PADDR of a slot of a unit page, as a number of 40 bits (R357). -/
def Place.paddr (t : Place) (page slot : Nat) : Nat := (pageAddr t.prof t.slc t.idx page slot).word.toNat % 2 ^ 40

/-! ### Contexts -/

/-- The half that holds the context of command `seq`, with it. -/
def Block.ctxOf (b : Block) (seq : Nat) : Option (HalfId × Ctx) :=
  match b.ha.ctx? seq, b.hb.ctx? seq with
  | some c, _ => some (.a, c)
  | none, some c => some (.b, c)
  | none, none => none

/-- A command runs. -/
def Block.running (b : Block) (seq : Nat) : Block := b.onCtx seq (fun c => { c with phase := .running })

/-- A command refused with a status (R355): it moves nothing. -/
def Block.refuse (b : Block) (h : HalfId) (seq : Nat) (st : Status) : Block := b.finish h seq st 0

/-- The group's tag and GSEQ that a command's journal entries carry (R553). -/
def Block.groupOf (b : Block) (c : Ctx) : Nat × Nat :=
  let tag := c.entry.group
  if tag = 0 then (0, 0) else (tag, (b.pair.groups.find? tag).elim 0 Group.gseq)

/-- A context whose command has left the range-lock table and makes its checks now. -/
def Half.leftCtx (x : Half) (seq : Nat) (o : Opcode) : Option Ctx :=
  match x.ctx? seq with
  | none => none
  | some c => if c.phase = .left && c.opcode = o then some c else none

/-! ### Checks of reads (R115, R134, R362) -/

/-- The unit is retired, or its die or channel (R258). -/
def Block.goneUnit (b : Block) (t : Place) : Bool := decide ((b.recAt t).state = .retired) || b.dieRetired t.idx

/-- The status that refuses a read of `n` codewords from slot `slot` of a place, if any. -/
def Block.readFault (b : Block) (t : Place) (slot n : Nat) : Option Status :=
  let r := b.recAt t
  if b.lostRec t.keep t.idx then some .dataPoison
  else if 4 * t.cap < 4 * t.page + slot + n then some .addressRange
  else if r.rgnOwn then some .regionHidden
  else if r.fly then some .unitState
  else
    match r.state with
    | .free => none
    | .full => none
    | .opened => if (4 * t.page + slot + n + 3) / 4 ≤ r.wp.toNat then none else some .unitState
    | .retired => if r.role = .none then some .unitState else none
    | _ => some .unitState

/-! ### Codewords (R249-R262) -/

/-- The steps 3, 4 and 5 a codeword may climb: bits 0 to 2 (R258, R262). A read of the command's own data climbs all that its unit allows; a member's and a
line fill's stop at step 4; a read-back and a sample climb none. -/
def stepsOf (stepEn : BitVec 3) (unit : Role) (what : CwFor) (fill : Bool) : BitVec 3 :=
  match what with
  | .main => if unit = .none || fill then stepEn &&& 3 else stepEn
  | .member _ _ => stepEn &&& 3
  | _ => 0

end Sys2Proof.Machine

namespace Sys2Proof

open Machine

/-- A codeword that ends uncorrectable: zeros, poisoned (R259, R266). -/
def Cw.fail (k : Cw) : Cw :=
  { k with st := .done, step := 6, fin := some .unc, bits := 0xFFFF, data := zeroPayload, poison := true }

/-- A codeword goes to step 5, or past it. -/
def Cw.toRecon (k : Cw) : Cw := if k.steps.getLsbD 2 then { k with st := .recon, step := 5 } else k.fail

/-- A codeword goes to step 4, or past it; step 4 needs a soft core in service (R247). -/
def Cw.toSoft (k : Cw) (soft : Bool) : Cw :=
  if k.steps.getLsbD 1 && soft then { k with st := .sensing, step := 4, entry := 16 + k.best, senses := 0 } else k.toRecon

/-- The image a hard core decodes: the TRY set's in step 3, else the RAW set's (R240, R249). -/
def Cw.input (k : Cw) : BitVec 36864 := if k.step = 3 then k.again else k.raw

/-- A hard decode failed, leaving `unsat` checks: the best image kept in the RAW set, the next re-read or step taken (R250, R253). -/
def Cw.hardFailed (k : Cw) (unsat : Nat) (soft : Bool) : Cw :=
  let better := k.unsat.all (fun u => decide (unsat < u))
  let j := if better then { k with best := k.entry, unsat := some unsat, raw := k.input } else k
  if k.step = 3 then
    if k.tries + 1 < 15 then { j with st := .sensing, tries := k.tries + 1, entry := (k.entry + 1) % 16 }
    else { j with tries := 15 }.toSoft soft
  else if k.steps.getLsbD 0 then { j with st := .sensing, step := 3, tries := 0, entry := (k.start + 1) % 16 }
  else j.toSoft soft

end Sys2Proof

namespace Sys2Proof.Machine

open Sys2Proof

/-- A codeword of a read that starts at the ladder's foot, or at step 5 where its unit cannot be read (R250, R258). `named` is the place the
command names, `t` the one that serves it (R298). -/
def Block.freshCw (b : Block) (named t : Place) (page slot entry : Nat) (what : CwFor) (fill : Bool) : Cw :=
  let r := b.recAt t
  let k : Cw :=
    { paddr := BitVec.ofNat 64 (named.paddr page slot), idx := t.idx, page := page, slot := slot, st := .sensing, step := 1
      steps := stepsOf (b.half t.drv).dec.stepEn r.role what fill, start := entry, entry := entry, tries := 0, best := entry, unsat := none
      senses := 0, bits := 0, fin := none, data := zeroPayload, raw := 0, again := 0, low := 0, high := 0, poison := false, role := what
      sets := .none }
  if b.goneUnit t then k.toRecon else k

/-- Unit pages in the groups in which they are sensed or programmed: `n` at a time where a multiple of `n` starts `n` consecutive pages
(R155). -/
def groupPages (n first cnt fuel : Nat) : List (List Nat) :=
  match fuel with
  | 0 => []
  | m + 1 =>
    if cnt = 0 then []
    else if 1 < n && first % n = 0 && n ≤ cnt then
      (List.range n).map (fun i => first + i) :: groupPages n (first + n) (cnt - n) m
    else [first] :: groupPages n (first + 1) (cnt - 1) m

/-- A die operation that waits for the scheduler. -/
def mkOp (kind : OpKind) (seq cls idx : Nat) (pages : List Nat) (slc : Bool) (entry : Nat) : DieOp :=
  { kind := kind, seq := seq, cls := cls, recIdx := idx, pages := pages, slc := slc, entry := entry, phase := .queued,
    gapDone := false, pol := none, begun := [], block := 0, prof := none }

/-- Operations put behind those that wait at the die of record `i`. -/
def Block.pushOps (b : Block) (i : Nat) (l : List DieOp) : Block :=
  match b.driver (recCh i) with
  | none => b
  | some g => b.onHalf g (fun x => x.onDie (recCh i) (recDie i) (fun e => { e with ops := e.ops ++ l }))

/-- Every operation a die holds: running, under a suspension, and waiting. -/
def Die.allOps (e : Die) : List DieOp := e.op.toList ++ e.under.toList ++ e.ops

/-- A sense of a unit page at an entry for command `seq` waits or runs. -/
def Block.senseOut (b : Block) (seq : Nat) (k : Cw) : Bool :=
  (b.dieOf (recCh k.idx) (recDie k.idx)).allOps.any (fun o =>
    (decide (o.kind = .read) || decide (o.kind = .raw) || decide (o.kind = .fill)) && decide (o.seq = seq) && decide (o.recIdx = k.idx) &&
      o.pages.contains k.page && decide (o.entry = k.entry))

/-- The senses of a command's kind: READ_RAW's and BLANK_CHECK's go past the ladder, a line fill's ahead of queue work (R131, R269, R375, R410). -/
def Ctx.senseKind (c : Ctx) : OpKind := if c.fill then .fill else if c.opcode = .readRaw || c.opcode = .blankCheck then .raw else .read

/-- A codeword climbs with sets it holds, or needs none (R240, R241). -/
def hasSets (k : Cw) : Bool := decide (k.step < 3) || decide (k.sets ≠ .none)

/-- A codeword's sense may be asked for: in step 3, only once no codeword of its page is still in the re-read before (R252). -/
def senseDue (l : List Cw) (k : Cw) : Bool :=
  decide (k.st = .sensing) && !(decide (k.step = 3) && l.any (fun j =>
    decide (j.idx = k.idx) && decide (j.page = k.page) && decide (j.role.kin = k.role.kin) && decide (j.step ≤ 3) &&
      (decide (j.st = .arriving) || decide (j.st = .decode))))

/-- The sets a codeword of channel `c` may take as it enters step 3 or 4: the channel's ladder reserve, shared cells, or none yet (R241). -/
def Block.freeSets (b : Block) (c : Nat) : CwSets :=
  if !(b.ha.que.readers ++ b.hb.que.readers).any (fun e => e.2.cws.any (fun k => decide (recCh k.idx = c) && decide (k.sets = .ladder))) then .ladder
  else if (b.driver c).any (fun g => decide (27 ≤ b.poolFree g)) then .shared
  else .none

/-- A sense asked for, for codeword `i` of command `seq`, with the sets it needs; without them it waits (R241). -/
def Block.askOne (b : Block) (seq i : Nat) (kind : OpKind) (cls : Nat) (sampleSlc : Bool) (k : Cw) : Block :=
  let j := if hasSets k then k else { k with sets := b.freeSets (recCh k.idx) }
  if hasSets j then
    let a := if j = k then b else (b.onCtx seq (fun c => { c with cws := c.cws.set i j })).notePool ((b.driver (recCh k.idx)).getD .a)
    if a.senseOut seq k then a
    else
      match a.placeOf k.idx k.page with
      | none => a
      | some t => a.pushOps k.idx [mkOp kind seq cls k.idx [k.page] (if k.role = .sample then sampleSlc else t.slc) k.entry]
  else b

/-- Senses asked for wherever a codeword of command `seq` waits for one that is not yet asked (R249, R252). -/
def Block.askSense (b : Block) (seq : Nat) : Block :=
  match b.ctxOf seq with
  | none => b
  | some (_, c) =>
    b.each (List.range c.cws.length) (fun a i =>
      match c.cws[i]? with
      | none => a
      | some k => if senseDue c.cws k then a.askOne seq i c.senseKind c.cls (c.entry.flag 0) k else a)

/-! ### Members of a row (R258, R289, R291) -/

/-- Ring positions whose reads step 5 makes for a codeword, with their records: every present member but the target, and in a row whose parity is not
programmed those that have folded (R289, R291); a page that never folded takes none (R288). -/
def Block.memberPlaces (b : Block) (g : HalfId) (k : Cw) : List (Nat × Nat) :=
  let x := b.half g
  let ring := x.ring k.idx
  let here := (List.range ring.length).filter (fun p => decide (p ≠ posOf ring k.idx) && !b.memberAbsent g (ring.getD p 0))
  let read := match x.openStripe k.idx with
    | none => here
    | some (slot, s) =>
      if s.parityRow ≤ k.page then here.filter (fun p => decide (p < s.dataCount) && (x.row slot k.page s).folded.contains p) else here
  read.map (fun p => (p, ring.getD p 0))

/-- The member codewords of the row of codeword `i`, each at its unit's tension index, for steps 1 to 4 (R250, R262, R289). -/
def Block.memberCws (b : Block) (i : Nat) (k : Cw) : List Cw :=
  match b.keeper (recCh k.idx) with
  | none => []
  | some g => (b.memberPlaces g k).filterMap (fun e =>
      (b.placeOf e.2 k.page).map (fun t => b.freshCw t t k.page k.slot (b.recAt t).tension.toNat (.member i e.1) false))

end Sys2Proof.Machine

namespace Sys2Proof

open Machine

/-- The codeword is a member read for the command's codeword `i`. -/
def Cw.memberOf (k : Cw) (i : Nat) : Bool :=
  match k.role with
  | .member t _ => decide (t = i)
  | _ => false

/-- The ring position and payload that a member read gives, unless it is unavailable: uncorrectable, or read as erased (R289). -/
def Cw.memberData (k : Cw) (i : Nat) : Option (Nat × Payload) :=
  match k.role with
  | .member t p => if t = i && k.fin ≠ some .unc && k.fin ≠ some .erased then some (p, k.data) else none
  | _ => none

/-- The member reads of codeword `i` have all ended. -/
def Machine.Ctx.membersDone (c : Ctx) (i : Nat) : Bool := (c.cws.filter (fun k => k.memberOf i)).all (fun k => decide (k.st = .done))

/-- The members of codeword `i`'s row let go of: the row is rebuilt. -/
def Machine.Ctx.spend (c : Ctx) (i : Nat) : Ctx := { c with cws := c.cws.map (fun k => if k.memberOf i then { k with role := .spent } else k) }

end Sys2Proof

namespace Sys2Proof.Machine

open Sys2Proof

/-- Member reads started for every codeword of command `seq` that has come to step 5 without them (R258, R289). -/
def Block.askMembers (b : Block) (seq : Nat) : Block :=
  match b.ctxOf seq with
  | none => b
  | some (_, c) =>
    b.each (List.range c.cws.length) (fun a i =>
      match c.cws[i]? with
      | none => a
      | some k =>
        if k.st = .recon && !c.cws.any (fun j => j.memberOf i) then
          a.onCtx seq (fun d => { d with cws := d.cws ++ b.memberCws i k })
        else a)

/-- The commands with a codeword that waits for the sets of step 3 or 4. -/
def Half.waitingSets (x : Half) : List Nat :=
  (List.filter (fun e => e.2.cws.any (fun k => decide (k.st = .sensing) && !hasSets k)) x.que.readers).map Prod.fst

/-- Senses asked for, for every codeword that waited for sets (R241). -/
def Block.askWaiting (b : Block) : Block := (b.each b.ha.waitingSets Block.askSense).each b.hb.waitingSets Block.askSense

end Sys2Proof.Machine

namespace Sys2Proof

open Machine

/-- The counter of how a codeword ended: DEC_CNT_CLEAN, HARD, RETRY, SOFT, RECON, UNC, ERASED (R273). -/
def CwEnd.slot : CwEnd → Nat
  | .clean => 0 | .hard => 1 | .retry => 2 | .soft => 3 | .recon => 4 | .unc => 5 | .erased => 6

end Sys2Proof

namespace Sys2Proof.Machine

open Sys2Proof

/-- A finished codeword counted in the half that drives its channel (R273). -/
def Half.countCw (x : Half) (e : CwEnd) : Half :=
  { x with dec := { x.dec with cnt := Tab.modify 0 x.dec.cnt e.slot (fun n => n + 1) } }

/-- TENSION written where step 3 or 4 succeeded (R254). -/
def Block.writeTension (b : Block) (seq : Nat) (k : Cw) : Block :=
  let e := if k.step = 4 then k.best else k.entry
  match b.keeper (recCh k.idx) with
  | none => b
  | some g =>
    if ((b.half g).rec? k.idx).tension.toNat = e then b
    else b.updRec g (some seq) k.idx 0 0 false (fun r => { r with tension := BitVec.ofNat 4 e })

/-- Codeword `i` of command `seq` takes the value `k`; a codeword that ends is counted, and writes TENSION where R254 says;
one that leaves steps 3 and 4 gives its sets back (R242). -/
def Block.putCw (b : Block) (seq i : Nat) (k : Cw) : Block :=
  let b1 := b.onCtx seq (fun c => { c with cws := c.cws.set i { k with sets := if k.st = .done || k.st = .recon then .none else k.sets } })
  match k.fin with
  | none => b1
  | some e =>
    let b2 := match b.driver (recCh k.idx) with
      | none => b1
      | some g => b1.onHalf g (fun x => x.countCw e)
    if (k.step = 3 || k.step = 4) && e ≠ .unc && decide (k.role ≠ .verify) then b2.writeTension seq k else b2

/-- The codewords of `n` slots from slot `slot` of a place. -/
def Block.cwsOf (b : Block) (named t : Place) (slot n entry : Nat) (what : CwFor) : List Cw :=
  (List.range n).map (fun k => b.freshCw named t (t.page + (slot + k) / 4) ((slot + k) % 4) entry what false)

/-- The codewords given to a command, and the senses of step 1 asked for: multi-plane where R155 lets them be. `entry` is the retry entry. -/
def Block.startCws (b : Block) (seq : Nat) (named t : Place) (slot n entry : Nat) (kind : OpKind) (what : CwFor) : Block :=
  let l := b.cwsOf named t slot n entry what
  match b.ctxOf seq with
  | none => b
  | some (_, c) =>
    let base := c.cws.length
    let b1 := b.onCtx seq (fun c => { c with cws := c.cws ++ l })
    let b2 := b1.each (List.range l.length) (fun a i =>
      match l[i]? with
      | none => a
      | some k => if k.fin.isSome then a.putCw seq (base + i) k else a)
    let b3 := if b.goneUnit t then b2 else
      let groups := groupPages t.prof.planes t.page ((slot + n + 3) / 4) ((slot + n + 3) / 4)
      b2.pushOps t.idx (groups.map (fun g => mkOp kind seq c.cls t.idx g t.slc entry))
    (b3.notePool .a).notePool .b

/-! ### Checks of programs (R135, R188, R284) -/

/-- The region that owns a unit: of the half whose home its channel is, a region lying on home channels only (R126). -/
def Block.owningRegion (b : Block) (k : HalfId) (i : Nat) : RgnDesc :=
  (b.half k).regionOf (decide (Config.homeOf (recCh i) = k)) ((b.half k).rec? i).region.toNat

/-- The region that owns a unit is open for update (R135). -/
def Block.updatable (b : Block) (t : Place) : Bool :=
  (b.half t.keep).win.updateEn && decide ((b.owningRegion t.keep t.idx).state = .opened)

/-- A program to a data member of an open stripe reaches past the window (R284). -/
def Block.pastWindow (b : Block) (t : Place) (n : Nat) : Bool :=
  match (b.half t.keep).openStripe t.idx with
  | none => false
  | some (_, s) =>
    decide (posOf s.ring t.idx < s.dataCount) &&
      decide ((b.half t.keep).lowRowOf s + s.window ≤ (b.recAt t).wp.toNat + n - 1)

/-- A blank half that firmware has not formatted: it refuses every program and erase (R634). -/
def Half.unformatted (x : Half) : Bool := x.boot.blank && !x.boot.formatted

/-- The status that refuses a program of `n` unit pages, if any: checks 2 to 7 of R188 and R284. `at?` is PROGRAM_AT's unit page, `own` tells
that R135 lets the opcode reach a region's unit. -/
def Block.programFault (b : Block) (t : Place) (n : Nat) (at? : Option Nat) (own : Bool) : Option Status :=
  let r := b.recAt t
  let x := b.half t.keep
  if b.lostRec t.keep t.idx then some .dataPoison
  else if r.fly || x.unformatted then some .unitState
  else if r.rgnOwn && !(own && b.updatable t) then some .regionLocked
  else if !(decide (r.state = .erased) || decide (r.state = .opened)) || b.dieRetired t.idx || decide (r.role = .p) ||
      decide (r.role = .q) then some .unitState
  else if at?.any (fun p => decide (p ≠ r.wp.toNat)) then some .programOrder
  else if t.cap < r.wp.toNat + n then some .unitSpace
  else if decide (r.state = .erased) && decide (x.gen.openMax ≤ (b.openUnits t.keep).length) then some .openLimit
  else if b.pastWindow t n then some .stripeWindow
  else none

end Sys2Proof.Machine

namespace Sys2Proof

open Machine

/-- What a reservation of `n` unit pages makes of a record (R114, R122, R123, R189). `touch` is that the command sets NRU, `stream` the hint. -/
def Rec.reserve (r : Rec) (cap n : Nat) (touch stream : Bool) : Rec :=
  { r with
    wp := BitVec.ofNat 16 (r.wp.toNat + n)
    state := if r.wp.toNat + n < cap then .opened else .full
    nru := if touch && !stream then true else r.nru
    age := if touch && stream && decide (r.state = .erased) then 7 else r.age }

/-- A page that waits for its data. -/
def UPage.fresh (n : Nat) : UPage := { page := n, slots := [], st := .waiting, pad := false, affected := false, held := false, begun := false }

end Sys2Proof

namespace Sys2Proof.Machine

open Sys2Proof

/-- Unit pages WP to WP + n − 1 reserved in one step for command `seq` (R189). `data` gives the pages' payloads where they are at hand. -/
def Block.reserve (b : Block) (seq : Nat) (t : Place) (n : Nat) (touch stream : Bool) (data : Option (List (List Payload))) :
    Block :=
  match b.ctxOf seq with
  | none => b
  | some (_, c) =>
    let wp := (b.recAt t).wp.toNat
    let g := b.groupOf c
    let pages := (List.range n).map (fun k =>
      match data with
      | none => UPage.fresh (wp + k)
      | some d => { UPage.fresh (wp + k) with slots := d.getD k padSlots, st := .ready, held := true })
    let b1 := b.onCtx seq (fun c => { c with
      dstIdx := t.idx, pages := pages
      progress := { c.progress with ranges := c.progress.ranges ++ [(t.idx, wp, n, g.1, 0)] } })
    let b2 := b1.updRec t.keep (some seq) t.idx g.1 g.2 false
      (fun r => r.reserve t.cap n touch stream)
    ((b2.onHalf t.keep Half.lowRows).notePool .a).notePool .b

/-! ### Unit pages on their way to the die (R192) -/

/-- A reserved unit page with the command it belongs to. -/
structure OwnedPage where
  seq  : Nat
  cls  : Nat
  page : UPage
  deriving DecidableEq, Repr

/-- The unit pages of record `i` that commands of a half have reserved. -/
def Half.ownedPages (x : Half) (i : Nat) : List OwnedPage :=
  (x.que.ctxs.map (fun e => if e.2.dstIdx = i then e.2.pages.map (fun p => { seq := e.1, cls := e.2.cls, page := p }) else [])).flatten

/-- The unit pages of record `i` still to be handed to the die, in ascending order, up to the first whose data is missing (R192). -/
def Block.readyPages (b : Block) (i : Nat) : List OwnedPage :=
  ((sortOn (fun p => p.page.page) (b.ha.ownedPages i ++ b.hb.ownedPages i)).filter (fun p =>
    decide (p.page.st = .waiting) || decide (p.page.st = .ready))).takeWhile (fun p => decide (p.page.st = .ready))

/-- Ready pages in the groups they are programmed in: multi-plane where one command covers `n` consecutive pages from a multiple of `n`
(R155). -/
def groupOwned (n : Nat) (l : List OwnedPage) (fuel : Nat) : List (List OwnedPage) :=
  match fuel with
  | 0 => []
  | m + 1 =>
    match l with
    | [] => []
    | p :: r =>
      let run := (p :: r).take n
      if 1 < n && p.page.page % n = 0 && run.length = n && run.all (fun q => decide (q.seq = p.seq)) then
        run :: groupOwned n ((p :: r).drop n) m
      else [p] :: groupOwned n r m

/-- A command's unit pages changed where `f` picks them. -/
def Ctx.onPages (c : Ctx) (pick : UPage → Bool) (f : UPage → UPage) : Ctx :=
  { c with pages := c.pages.map (fun p => if pick p then f p else p) }

/-- Ready pages of record `i` handed to the die's scheduler in ascending order. -/
def Block.pump (b : Block) (i : Nat) : Block :=
  match b.placeOf i 0 with
  | none => b
  | some t =>
    let l := b.readyPages i
    b.each (groupOwned t.prof.planes l l.length) (fun a g =>
      match g with
      | [] => a
      | p :: _ =>
        let ns := g.map (fun q => q.page.page)
        (a.onCtx p.seq (fun c => c.onPages (fun u => ns.contains u.page) (fun u => { u with st := .issued }))).pushOps i
          [mkOp .program p.seq p.cls i ns t.slc 0])

/-- Pages whose data will not come take the pad pattern (R194). -/
def Ctx.padWaiting (c : Ctx) : Ctx :=
  c.onPages (fun p => decide (p.st = .waiting)) (fun p => { p with st := .ready, pad := true, slots := padSlots })

/-! ### Holds (R200-R203) -/

/-- The lowest free hold tag. -/
def Pool.freeTag (p : Pool) : Option Nat := (List.range 64).find? (fun t => (p.holds.find? t).isNone)

/-- A failing page's data held: in the hold of its command, or in a new one where the half may keep one more; a command whose first failing page finds
HOLD_MAX holds keeps none (R200, R202). -/
def Block.holdPage (b : Block) (h : HalfId) (seq : Nat) (slots : List Payload) : Block :=
  let x := b.half h
  match (x.ctx? seq).bind Ctx.holdTag with
  | some t => b.onHalf h (fun x => { x with pool := { x.pool with
      holds := x.pool.holds.change t (fun e => { e with pages := e.pages ++ [slots] }) } })
  | none =>
    match (if !(x.ctx? seq).any Ctx.heldOff && decide (x.pool.holds.length < x.gen.holdMax) then x.pool.freeTag else none) with
    | none => b.onCtx seq (fun c => { c with heldOff := true })
    | some t =>
      ((b.onHalf h (fun x => { x with pool := { x.pool with holds := x.pool.holds.put t { pages := [slots], poison := [] } } })).onCtx
        seq (fun c => { c with holdTag := some t })).notePool h

/-! ### Verification (R205, R206) -/

/-- The read-backs of the unit pages that a command programmed with its data; a pad page is the engine's own (DEDUCED from R194: log entry 105). -/
def Block.startVerify (b : Block) (seq : Nat) (c : Ctx) : Block :=
  b.each (c.pages.filter (fun p => !p.pad)) (fun a p =>
    match a.placeOf c.dstIdx p.page with
    | none => a
    | some t => a.startCws seq t t 0 4 (a.recAt t).tension.toNat .read .verify)

/-- The unit pages whose read-back failed hard decode or lies above the ceiling (R206). -/
def Ctx.offending (c : Ctx) (ceiling : Nat) : List UPage :=
  c.pages.filter (fun p => c.cws.any (fun k => decide (k.role = .verify) && decide (k.page = p.page) && decide (ceiling < k.bits)))

/-! ### The end of a command (R206, R263-R268, R355, R371) -/

/-- The WATCH slot and threshold of a command's queue (R265, R268). -/
def Half.watchOf (x : Half) (c : Ctx) : Option (Nat × Nat) :=
  match (x.que.queue? c.adopted c.queue).bind Queue.watch with
  | none => none
  | some n => if (Tab.get Watch.free x.dec.watch n).active then some (n, (Tab.get Watch.free x.dec.watch n).thresh) else none

/-- Corrected bits that a WATCH slot adds: 0xFFFE and 0xFFFF count as zero (R268). -/
def watchBits (l : List Cw) : Nat := (l.map (fun k => if 0xFFFE ≤ k.bits then 0 else k.bits)).sum

/-- A read counted in its queue's WATCH slot (R268, R273). -/
def Half.countWatch (x : Half) (c : Ctx) : Half :=
  match x.watchOf c with
  | none => x
  | some (n, t) => { x with dec := { x.dec with watch := Tab.modify Watch.free x.dec.watch n (fun w =>
      { w with reads := satAdd 0xFFFFFFFF w.reads 1, bits := satAdd 0xFFFFFFFF w.bits (watchBits c.mains)
               warns := satAdd 0xFFFFFFFF w.warns (bitOf (decide (t ≤ maxBitsOf c.mains))) }) } }

/-- A command's data has all crossed the DMA, or it moves none. -/
def Ctx.moved (c : Ctx) : Bool := decide (c.xfer = .none) || decide (c.xfer = .complete)

/-- A finished READ or PATROL: its counts, STATUS and RESULT (R263-R268, R366). -/
def Block.endRead (b : Block) (h : HalfId) (seq : Nat) (c : Ctx) : Block :=
  let cmp := if c.opcode = .read && c.entry.flag 0 then some (c.cmpFirst.getD 0xFFFFFFFF) else none
  let f := { c.flags with unc := c.flags.unc || c.mains.any Cw.unc }
  (b.onHalf h (fun x => x.countWatch c)).finish h seq (f.status .doneOk)
    (readResult c.mains (((b.half h).watchOf c).map Prod.snd) cmp)

/-- A finished READ_RAW (R269, R366). -/
def Block.endRaw (b : Block) (h : HalfId) (seq : Nat) (c : Ctx) : Block :=
  let f := { c.flags with unc := c.cws.any Cw.unc }
  b.finish h seq (f.status .doneOk) (if f.unc then atByte 50 1 16 + atByte 52 (uncFirst c.cws) 40 else 0)

/-- The PADDR of slot 0 of a unit page of a command's unit. -/
def Block.pagePaddr (b : Block) (i n : Nat) : Nat := (b.placeOf i n).elim 0 (fun t => t.paddr n 0)

/-- A finished program: STATUS and RESULT (R199, R206, R355, R371). -/
def Block.endProgramCmd (b : Block) (h : HalfId) (seq : Nat) (c : Ctx) : Block :=
  let back := c.cws.filter (fun k => decide (k.role = .verify))
  let bad := c.offending (b.half h).gen.ceiling
  let vf := !bad.isEmpty
  let b1 := if vf && !c.flags.fail then
      b.each bad (fun a p => a.holdPage h seq p.slots)
    else b
  let f : Flags := { c.flags with verifyFail := vf }
  let st : Status := c.final.getD (f.status c.opcode.success)
  let fails := decide (st = .fail)
  let failN := if st = .verifyFail then bad.length else c.failN
  let first := if st = .verifyFail then bad.head?.map UPage.page else c.firstFail
  let hold := ((b1.half h).ctx? seq).bind Ctx.holdTag
  b1.finish h seq st (programResult (fails || c.flags.fail) hold failN (c.pages.head?.elim 0 (fun p => b.pagePaddr c.dstIdx p.page))
    (first.elim 0 (fun n => b.pagePaddr c.dstIdx n)) (if back.isEmpty then 0 else maxBitsOf back))

/-- A COPY whose source has an uncorrectable codeword (R370, R371). -/
def Block.endCopyRead (b : Block) (h : HalfId) (seq : Nat) (c : Ctx) : Block :=
  let f := { c.flags with unc := c.mains.any Cw.unc }
  let bad := c.mains.filter Cw.unc
  b.finish h seq (f.status .doneOk) (programResult false none bad.length 0 (bad.head?.elim 0 (fun k => k.paddr.toNat)) 0)

/-- The payloads of a COPY's source unit pages. -/
def Ctx.copied (c : Ctx) : List (List Payload) :=
  (List.range (c.entry.byte 44)).map (fun k => (List.range 4).map (fun s => (c.cws[4 * k + s]?).elim padPayload Cw.data))

/-- A COPY's destination leg, its source decoded: the checks of R188 and R284, and the reservation (R370). -/
def Block.copyWrite (b : Block) (h : HalfId) (seq : Nat) (c : Ctx) : Block :=
  match b.locateUnit (BitVec.ofNat 64 c.entry.desc) with
  | none => b.refuse h seq .addressRange
  | some t =>
    match b.programFault t (c.entry.byte 44) none false with
    | some st => b.refuse h seq st
    | none =>
      ((b.reserve seq t (c.entry.byte 44) false false (some c.copied)).onCtx seq (fun c =>
        { c with readLeft := false, cws := [] })).pump t.idx

/-- The unit a program appends to, as its entry names it (R190). -/
def Block.programUnit (b : Block) (c : Ctx) : Option Nat :=
  match c.opcode with
  | .program | .offer => (b.locateUnit c.entry.paddr).map Place.idx
  | .programAt => (b.locatePage c.entry.paddr).map Place.idx
  | .copy => (b.locateUnit (BitVec.ofNat 64 c.entry.desc)).map Place.idx
  | _ => none

/-- A program that has neither reserved nor been refused (R190). -/
def Ctx.unreserved (c : Ctx) : Bool :=
  decide (c.phase = .stalled) || decide (c.phase = .left) || (decide (c.phase = .running) && c.readLeft)

/-- An earlier program of the same queue that names unit `i` has neither reserved nor been refused (R190). -/
def Block.queueHeld (b : Block) (h : HalfId) (seq : Nat) (c : Ctx) (i : Nat) : Bool :=
  List.any (b.half h).que.ctxs (fun e =>
    decide (e.1 < seq) && decide (e.2.queue = c.queue) && decide (e.2.adopted = c.adopted) && e.2.unreserved &&
      decide (b.programUnit e.2 = some i))

/-- A program of another queue that left a range-lock table earlier, and that none of its own queue holds back, has still to reserve in unit `i` (R190). One that an earlier program of its own
queue holds back is passed over: waiting for it could wait for ever (DESIGN CHOICE, log entry 106). -/
def Block.passedBy (b : Block) (h : HalfId) (c : Ctx) (i : Nat) : Bool :=
  [HalfId.a, HalfId.b].any (fun g => List.any (b.half g).que.ctxs (fun e =>
    !(decide (g = h) && decide (e.2.queue = c.queue) && decide (e.2.adopted = c.adopted)) && decide (e.2.order ≠ 0) && decide (e.2.order < c.order) &&
      e.2.unreserved && decide (b.programUnit e.2 = some i) && !b.queueHeld g e.1 e.2 i))

/-- A program may not reserve in unit `i` yet (R190). -/
def Block.orderHeld (b : Block) (h : HalfId) (seq : Nat) (c : Ctx) (i : Nat) : Bool := b.queueHeld h seq c i || b.passedBy h c i

/-- A COPY's source is decoded: its destination leg, once R190 lets it reserve and the destination's channel has room for its data (R29, R370). -/
def Block.copyStep (b : Block) (h : HalfId) (seq : Nat) (c : Ctx) : Block :=
  if c.flags.aborted || c.mains.any Cw.unc then b.endCopyRead h seq c
  else if (b.programUnit c).any (fun i => b.orderHeld h seq c i || !b.roomFor (recCh i) 0 (33 * c.entry.byte 44)) then b
  else b.copyWrite h seq c

/-- A program's pages have all ended: read back where VERIFY asks for it and the die programs all passed, whatever else befell the command short of ABORTED, else completed (R205, R206). -/
def Block.programStep (b : Block) (h : HalfId) (seq : Nat) (c : Ctx) : Block :=
  if c.entry.flag 0 && c.pages.all (fun p => decide (p.st = .passed)) && c.pages.any (fun p => !p.pad) && !c.cws.any (fun k => decide (k.role = .verify)) &&
      !c.flags.aborted && c.final.isNone then b.startVerify seq c
  else b.endProgramCmd h seq c

/-! ### PROFILE_LOAD (R106, R107, R386) -/

/-- A die bound to profile slot `n`: its channel and index. -/
def Half.slotDies (x : Half) (n : Nat) : List (Nat × Nat) :=
  (x.chans.map (fun k => (List.filter (fun e => decide (e.2.slot = some n)) k.2.dies).map (fun e => (k.1, e.1)))).flatten

/-- A profile written into a slot; a change of its pulse limit or feature is brought to the dies bound to it (R197). -/
def Half.loadProfile (x : Half) (n : Nat) (p : Profile) : Half :=
  let old : Profile := Tab.get 0 x.store.profiles n
  let y := x.onStore (fun s => { s with profiles := Tab.set 0 s.profiles n p })
  if old.byte 18 = p.byte 18 && old.byte 19 = p.byte 19 then y
  else (x.slotDies n).foldl (fun z e => z.onDie e.1 e.2 (fun d => { d with pulseDue := true })) y

/-- A PROFILE_LOAD whose 512 bytes have come (R106, R107, R386). -/
def Block.endProfileLoad (b : Block) (h : HalfId) (seq : Nat) (c : Ctx) : Block :=
  let x := b.half h
  let n := c.entry.byte 20 % 16
  let p : Profile := BitVec.ofNat 4096 c.buf
  let old : Profile := Tab.get 0 x.store.profiles n
  if c.flags.status .doneOk ≠ .doneOk then b.finish h seq (c.flags.status .doneOk) 0
  else if p.invalid then b.refuse h seq .profileInvalid
  else if !(x.slotDies n).isEmpty && !old.sameGeometry p then b.refuse h seq .profileBound
  else ((b.onHalf h (fun y => y.loadProfile n p)).send h (.profile n p)).finish h seq .doneOk 0

/-! ### REBUILD (R297, R299) -/

/-- The REBUILD of command `seq`, with its number. -/
def Half.rebuildOf (x : Half) (seq : Nat) : Option (Nat × Rebuild) := List.find? (fun e => decide (e.2.seq = seq)) x.par.rebuilds

/-- A REBUILD's progress changed. -/
def Half.onRebuild (x : Half) (n : Nat) (f : Rebuild → Rebuild) : Half :=
  x.onPar (fun p => { p with rebuilds := p.rebuilds.change n f })

/-- Rows a REBUILD rebuilds: those below the source's write pointer, or below the parity row of a parity source (R297). -/
def Half.rebuildRows (x : Half) (r : Rebuild) (cap : Nat) : Nat :=
  if (x.rec? r.src).role = .data then (x.rec? r.src).wp.toNat
  else match x.openStripe r.src with
    | none => cap
    | some (_, s) => s.parityRow

/-- The codewords of one row, rebuilt by step 5 (R290, R297). -/
def Block.rebuildCws (b : Block) (seq : Nat) (r : Rebuild) : Block :=
  match b.placeOf r.src r.row with
  | none => b
  | some t => b.onCtx seq (fun c => { c with
      cws := (List.range 4).map (fun s => { b.freshCw t t r.row s 0 .main false with st := .recon, step := 5, fin := none, poison := false }) })

/-- The row a REBUILD has come to started. -/
def Block.rebuildRow (b : Block) (seq : Nat) (r : Rebuild) : Block := (b.rebuildCws seq r).onCtx seq (fun c => { c with pages := [] })

/-- Pages of the target reserved and handed to its die, each with a payload, or a pad page (R189, R297). -/
def Block.rebuildWrite (b : Block) (seq : Nat) (t : Place) (n : Nat) (data : Option (List Payload)) : Block :=
  let b1 := b.reserve seq t n false false (some [data.getD padSlots])
  (b1.onCtx seq (fun c => { (c.onPages (fun _ => true) (fun p => { p with pad := data.isNone })) with cws := [] })).pump t.idx

/-- RESULT of a REBUILD (R377). -/
def rebuildResult (dst unc first : Nat) : Nat := atByte 49 dst 24 + atByte 52 unc 16 + atByte 54 first 40

/-- A REBUILD ended without a swap: its target a plain unit with VALID 0 (R299). -/
def Block.rebuildEnds (b : Block) (h : HalfId) (seq n : Nat) (r : Rebuild) (st : Status) (c : Ctx) : Block :=
  let b1 := (b.updRec h (some seq) r.dst 0 0 false (fun q => { q with valid := 0 })).onHalf h (fun x =>
    x.onPar (fun p => { p with rebuilds := p.rebuilds.drop n }))
  b1.finish h seq st (if st = .uncorrectable then rebuildResult r.dst c.failN (c.firstFail.getD 0) else 0)

/-- A REBUILD goes on while a background engine is on it: a row rebuilt is written, the next row is started, and past the last row the target is filled with pad pages; a row left
uncorrectable is counted and its place takes a pad page (R25, R297, R299). -/
def Block.rebuildStep (b : Block) (h : HalfId) (seq : Nat) (c : Ctx) : Block :=
  match (b.half h).rebuildOf seq with
  | none => b
  | some (n, r) =>
    match b.placeOf r.dst r.row with
    | none => b
    | some t =>
      if !c.pages.all (fun p => decide (p.st = .passed) || decide (p.st = .failed)) || !(b.half h).onJob b.variant seq ||
          decide (((b.half h).rec? r.dst).state = .erasing) then b
      else if c.flags.aborted then b.rebuildEnds h seq n r .aborted c
      else if !c.cws.isEmpty then
       if !b.roomFor (recCh t.idx) 0 33 then b else
        let bad := c.mains.filter Cw.unc
        let b1 := b.onHalf h (fun x => x.onRebuild n (fun q => { q with unc := satAdd 65535 q.unc (bitOf !bad.isEmpty) }))
        let b2 := b1.onCtx seq (fun c => { c with
          failN := c.failN + bad.length, firstFail := if bad.isEmpty then c.firstFail else some (c.firstFail.getD (uncFirst c.mains)) })
        b2.rebuildWrite seq t 1 (if bad.isEmpty then some (c.mains.map Cw.data) else none)
      else
        let row := r.row + c.pages.length
        let q : Rebuild := { r with row := row }
        let b1 := (b.onHalf h (fun x => x.onRebuild n (fun _ => q))).onCtx seq (fun c => { c with pages := [] })
        if row < (b1.half h).rebuildRows q t.cap then ((b1.rebuildRow seq q).askMembers seq).askSense seq
        else if decide (((b.half h).rec? r.src).role = .data) && decide (row < t.cap) then b1.rebuildWrite seq t (t.cap - row) none
        else if q.unc = 0 then b1
        else b1.rebuildEnds h seq n q .uncorrectable c

/-- A journal entry without a change of VALID or a group. -/
def plainEntry (k : JKind) : JEntry := { kind := k, count := 0, vdelta := 0, freed := false, group := 0, gseq := 0, grew := 0, old := false }

/-- Records of half `h` replaced, in one journal record with further entries (R117, R553). -/
def Block.updRecs (b : Block) (h : HalfId) (who : Option Nat) (l : List (Nat × Rec)) (more : List JEntry) : Block :=
  let x := b.half h
  let es := l.map (fun e => recEntry (x.rec? e.1) e.2 e.1 0 0 false)
  (b.onHalf h (fun y => l.foldl (fun (w : Half) e => w.setRec e.1 e.2) y)).journal h who (es ++ more)

/-! ### REGION_CLOSE (R138) -/

/-- Units of both copies of a region. -/
def Block.regionUnits (b : Block) (h : HalfId) (d : RgnDesc) : List Nat :=
  b.copyUnits h d.copy0 (b.unitsFor d.copy0 d.size) ++ b.copyUnits h d.copy1 (b.unitsFor d.copy1 d.size)

/-- A copy's units hold SIZE × 64 KiB, in unit-page order: each is being programmed or programmed so far (R138). -/
def Block.copyHolds (b : Block) (h : HalfId) (first size : Nat) : Bool :=
  let us := b.copyUnits h first (b.unitsFor first size)
  let c := (b.profileAt (recCh first) (recDie first)).elim 0 (fun p => p.capacity true)
  (List.range us.length).all (fun k =>
    let r := (b.half h).rec? (us.getD k 0)
    (decide (r.state = .opened) || decide (r.state = .full) || decide (r.state = .region)) && decide (Nat.min c (4 * size - c * k) ≤ r.wp.toNat))

/-- A region closed, in one journal record (R138). -/
def Block.closeRegion (b : Block) (h : HalfId) (own : Bool) (seq n : Nat) (crc : BitVec 32) : Block :=
  let x := b.half h
  let d := x.regionOf own n
  let next := nextClose (if own then x.win.desc else x.mir.regions)
  let new : RgnDesc := { d with state := .closed, imageCrc := crc, commitSeq := next }
  let recs := (b.regionUnits h d).map (fun i => (i, { x.rec? i with state := .region }))
  let b1 := b.updRecs h (some seq) recs [plainEntry (.region n new)]
  (b1.onHalf h (fun y => y.setRegion own n new)).finish h seq .doneOk (atByte 49 next.toNat 32)

/-- Lines of a region's copy: 4 KiB each (R126, R131). -/
def regionLines (d : RgnDesc) : Nat := 16 * d.size

/-- The read of a REGION_CLOSE's next line through the ladder: copy 0's lines, then copy 1's; a line that lies nowhere has no image. -/
def Block.closeRead (b : Block) (h : HalfId) (seq : Nat) (c : Ctx) : Block :=
  let d := (b.half h).regionOf (!c.adopted) (c.entry.byte 20 % 16)
  let first := if c.bufLen < regionLines d then d.copy0 else d.copy1
  let a := b.onCtx seq (fun c => { c with cws := [] })
  match (b.linePlace h first d.size (c.bufLen % regionLines d)).bind (fun p => (b.placeOf p.1 p.2.1).map (fun t => (t, p.2.2))) with
  | none => a.onCtx seq (fun c => { c with flags := { c.flags with unc := true } })
  | some (t, slot) => (a.startCws seq t t slot 1 (b.recAt t).tension.toNat .read .main).askSense seq

/-- A REGION_CLOSE's reads started: the running CRCs of both copies in its buffer, the lines read counted. -/
def Block.closeStart (b : Block) (h : HalfId) (seq : Nat) : Block :=
  let b1 := b.onCtx seq (fun c => { c with phase := .running, buf := 2 ^ 64 - 1, bufLen := 0, cws := [] })
  match b1.ctxOf seq with
  | none => b1
  | some (_, c) => b1.closeRead h seq c

/-- A CRC register after the bytes of a line. -/
def crcLine (crc : Nat) (d : Payload) : Nat :=
  ((List.range 4096).foldl (fun a i => crcByte a (d.user.toNat / 2 ^ (8 * i))) (BitVec.ofNat 32 crc)).toNat

/-- A line of a REGION_CLOSE read: it enters its copy's CRC; past the last line the region closes, or the command ends with REGION_CHECK (R138). -/
def Block.closeStep (b : Block) (h : HalfId) (seq : Nat) (c : Ctx) : Block :=
  let n := c.entry.byte 20 % 16
  let want := BitVec.ofNat 32 (c.entry.bytes 24 4)
  let lines := regionLines ((b.half h).regionOf (!c.adopted) n)
  if c.flags.aborted then b.finish h seq .aborted 0
  else if c.flags.unc || c.mains.any Cw.unc then b.refuse h seq .regionCheck
  else
    let d := (c.mains.head?).elim zeroPayload Cw.data
    let buf := if c.bufLen < lines then crcLine (c.buf % 2 ^ 32) d + c.buf / 2 ^ 32 * 2 ^ 32
      else c.buf % 2 ^ 32 + crcLine (c.buf / 2 ^ 32) d * 2 ^ 32
    if c.bufLen + 1 < 2 * lines then
      let b1 := b.onCtx seq (fun c => { c with buf := buf, bufLen := c.bufLen + 1 })
      b1.closeRead h seq { c with bufLen := c.bufLen + 1 }
    else if ~~~ (BitVec.ofNat 32 buf) = want && ~~~ (BitVec.ofNat 32 (buf / 2 ^ 32)) = want then b.closeRegion h (!c.adopted) seq n want
    else b.refuse h seq .regionCheck

/-! ### BLANK_CHECK (R375, R376) -/

/-- The samples of a BLANK_CHECK: slot 0 of its unit pages, each sensed at entry 0 in the mode the command names, without a decode (R375). -/
def Block.sampleStart (b : Block) (seq : Nat) (c : Ctx) (t : Place) : Block :=
  let u := { t with slc := c.entry.flag 0 }
  let l := (samplePages (t.prof.capacity u.slc) (c.entry.bytes 28 2)).map (fun n =>
    { b.freshCw u u n 0 0 .sample false with st := .sensing, step := 1, bits := 0, fin := none, poison := false })
  ((b.onCtx seq (fun c => { c with phase := .running, cws := l })).pushOps t.idx
    (l.map (fun k => mkOp .raw seq c.cls t.idx [k.page] u.slc 0)))

/-- A BLANK_CHECK whose samples have all come: their classes by their zero counts (R375, R376). -/
def Block.endBlank (b : Block) (h : HalfId) (seq : Nat) (c : Ctx) : Block :=
  let l := c.cws.map (fun k =>
    let dec := (b.driver (recCh k.idx)).elim 24 (fun g => (b.half g).dec.erasedMax)
    (k.page, sampleOf dec (b.cwShort k) k.bits))
  b.finish h seq (c.flags.status .doneOk) (blankResult l)

/-- The source unit page of a page that a COPY or a REBUILD writes. -/
def Block.sourcePage (b : Block) (c : Ctx) (p : UPage) : Nat :=
  if c.opcode = .copy then (b.locatePage c.entry.paddr).elim 0 Place.page + (p.page - (c.pages.head?).elim 0 UPage.page) else p.page

/-- Pages that wait for codewords read a second time take their payloads (R42). -/
def Block.refill (b : Block) (seq : Nat) (c : Ctx) : Block :=
  (b.onCtx seq (fun c => { c with
    pages := c.pages.map (fun p =>
      let l := c.mains.filter (fun k => decide (k.page = b.sourcePage c p))
      if p.st = .waiting && decide (l.length = 4) then { p with st := .ready, slots := l.map Cw.data, held := true } else p)
    cws := [] })).pump c.dstIdx

/-- A COPY or REBUILD reads source pages a second time for pages that wait (R42). -/
def Ctx.rereads (c : Ctx) : Bool :=
  (decide (c.opcode = .copy) || decide (c.opcode = .rebuild)) && !c.readLeft && !c.cws.isEmpty && c.pages.any (fun p => decide (p.st = .waiting))

/-- A running command whose parts have all ended completes, or goes on to its next leg (R205, R263, R355, R370). -/
def Block.finishOne (b : Block) (seq : Nat) : Block :=
  match b.ctxOf seq with
  | none => b
  | some (h, c) =>
    if c.fill || c.phase ≠ .running || !c.cws.all (fun k => decide (k.st = .done)) then b
    else if c.rereads then b.refill seq c
    else
      match c.opcode with
      | .read | .patrol => if c.moved then b.endRead h seq c else b
      | .readRaw => if c.moved then b.endRaw h seq c else b
      | .copy | .program | .programAt | .offer =>
        if c.readLeft then b.copyStep h seq c
        else if c.moved && c.pages.all (fun p => decide (p.st = .passed) || decide (p.st = .failed)) then b.programStep h seq c
        else b
      | .victim | .identify | .logGet =>
        if c.moved then b.finish h seq (c.flags.status .doneOk) c.result.toNat else b
      | .rebuild => b.rebuildStep h seq c
      | .profileLoad => if c.moved then b.endProfileLoad h seq c else b
      | .blankCheck => b.endBlank h seq c
      | .regionClose => b.closeStep h seq c
      | _ => b

/-- The COPYs of a half whose source is decoded and that wait to reserve, and its REBUILDs with a row to write (R29, R190). -/
def Half.waitingCopies (x : Half) : List Nat :=
  (List.filter (fun e => decide (e.2.phase = .running) &&
    ((decide (e.2.opcode = .copy) && e.2.readLeft) || (decide (e.2.opcode = .rebuild) && !e.2.cws.isEmpty))) x.que.ctxs).map Prod.fst

/-- A command ended where it may, and the COPYs and REBUILDs that waited for its reservation or its cells go on in the order of their numbers. -/
def Block.tryFinish (b : Block) (seq : Nat) : Block :=
  let b1 := b.finishOne seq
  (b1.each b1.ha.waitingCopies Block.finishOne).each b1.hb.waitingCopies Block.finishOne

/-- After a codeword of command `seq` has moved on: members of its row and further senses asked for, the command ended where it may. -/
def Block.settle (b : Block) (seq : Nat) : Block := (((b.askMembers seq).askSense seq).tryFinish seq).askWaiting

/-! ### Records after programs and erases (R114, R199, R204, R209) -/

/-- The pad notice of a unit page (R196). -/
def Block.padNoticeAt (b : Block) (h : HalfId) (i n : Nat) : Block := b.event h 0x10 0 (b.pagePaddr i n)

/-! ### Recovery's erases and pad pages (R567 steps 6 and 7) -/

/-- Unit page `n` of record `i` is still to be padded. -/
def Half.padOwed (x : Half) (i n : Nat) : Bool := x.fly.padDue.any (fun r => decide (r.1 = i) && decide (r.2.1 ≤ n) && decide (n < r.2.1 + r.2.2))

/-- The ranges still to be padded, without page `n` of record `i`, the lowest of its unit. -/
def padsLeft (l : List (Nat × Nat × Nat)) (i n : Nat) : List (Nat × Nat × Nat) :=
  (l.map (fun r => if r.1 = i && r.2.1 ≤ n then (i, n + 1, r.2.1 + r.2.2 - (n + 1)) else r)).filter (fun r => decide (0 < r.2.2))

/-- The stripe-degraded notice of a row of the stripe of record `i` (R302, R484). -/
def Block.degradedRow (b : Block) (h : HalfId) (i row : Nat) : Block :=
  let ring := (b.half h).ring i
  b.event h 0x14 (((b.half h).openStripe i).elim 0 Prod.fst) (at' (ring.getD ((b.half h).dataCount ring) 0) 0 24 + at' row 32 16)

/-- A page that recovery programs has ended: a pad page, or in a parity member a blank page (R196, R302). -/
def Block.endPad (b : Block) (g : HalfId) (o : DieOp) (n : Nat) (ok : Bool) : Block :=
  if (b.half g).padOwed o.recIdx n then
    let b1 := if ok then b else
      (b.updRec g none o.recIdx 0 0 false (fun r => { r with grownBad := true, failCnt := satBits r.failCnt 1 })).event g (if o.kind = .parity then 0x13 else 0x12)
        (if o.kind = .parity then 0 else 1) (if o.kind = .parity then b.pagePaddr o.recIdx n else
          at' o.recIdx 0 24 + at' (satBits ((b.half g).rec? o.recIdx).failCnt 1).toNat 24 8)
    (if o.kind = .parity then b1.degradedRow g o.recIdx n else b1.padNoticeAt g o.recIdx n).onHalf g (fun x =>
      x.onFly (fun f => { f with padDue := padsLeft f.padDue o.recIdx n, summary := { f.summary with pads := f.summary.pads + 1 } }))
  else b

/-- The operations that pad one range: pad pages under R196, or in a parity member blank pages, which carry no stripe's slot (R302, R567 step 7). -/
def padOps (t : Place) (parity : Bool) (first n : Nat) : List DieOp :=
  if parity then (List.range n).map (fun k => { mkOp .parity noSeq 3 t.idx [first + k] t.slc 0 with block := 64 })
  else (groupPages t.prof.planes first n n).map (fun g => mkOp .program noSeq 3 t.idx g t.slc 0)

/-- Step 7 begun: every page still to be padded handed to its die; a unit whose die is gone has none (R567). -/
def Block.startPads (b : Block) (h : HalfId) : Block :=
  let here := fun (r : Nat × Nat × Nat) => (b.placeOf r.1 0).isSome
  let role := fun (i : Nat) => ((b.half h).rec? i).role
  (b.onHalf h (fun x => x.onFly (fun f => { f with padDue := f.padDue.filter here }))).each ((b.half h).fly.padDue.filter here) (fun a r =>
    match a.placeOf r.1 0 with
    | none => a
    | some t => a.pushOps r.1 (padOps t (decide (role r.1 = .p) || decide (role r.1 = .q)) r.2.1 r.2.2))

/-- Step 6 begun: the units of the erasing table erased again in their recorded modes; step 7 follows the last of them (R567). -/
def Block.startRecovery (b : Block) (h : HalfId) : Block :=
  let here := fun (e : Nat × Bool) => (b.placeOf e.1 0).isSome
  let l := (b.half h).fly.reErase.filter here
  let b1 := (b.onHalf h (fun x => x.onFly (fun f => { f with reErase := l }))).each l (fun a e =>
    (a.onHalf h (fun x => x.setRec e.1 { x.rec? e.1 with slc := e.2 })).pushOps e.1 [mkOp .erase noSeq 3 e.1 [] e.2 0])
  if l.isEmpty then b1.startPads h else b1

/-- A unit of the erasing table has ended its erase. -/
def Block.reErased (b : Block) (h : HalfId) (i : Nat) : Block :=
  let f := (b.half h).fly
  if f.reErase.any (fun e => decide (e.1 = i)) then
    let l := f.reErase.filter (fun e => decide (e.1 ≠ i))
    let b1 := b.onHalf h (fun x => x.onFly (fun f => { f with reErase := l, summary := { f.summary with reerased := f.summary.reerased + 1 } }))
    if l.isEmpty then b1.startPads h else b1
  else b

/-- A program pass counted on the reserved range it lies in (R580). -/
def Ctx.countPass (c : Ctx) (i n : Nat) : Ctx :=
  { c with progress := { c.progress with ranges := c.progress.ranges.map (fun r =>
      if r.1 = i && r.2.1 ≤ n && n < r.2.1 + r.2.2.1 then (r.1, r.2.1, r.2.2.1, r.2.2.2.1, r.2.2.2.2 + 1) else r) } }

/-- A unit page's program has ended (R114, R196, R199, R200): VALID or FAIL_CNT, the page's state, a hold for failed data. -/
def Block.endPage (b : Block) (o : DieOp) (n : Nat) (ok : Bool) : Block :=
  match b.keeper (recCh o.recIdx), b.ctxOf o.seq with
  | some g, some (h, c) =>
    let p := (c.pages.find? (fun p => decide (p.page = n))).getD (UPage.fresh n)
    let tag := b.groupOf c
    let who := some o.seq
    let b1 :=
      if ok then
        if p.pad then b
        else (b.onCtx o.seq (fun c => c.countPass o.recIdx n)).updRec g who o.recIdx tag.1 tag.2 false (fun r => { r with valid := BitVec.ofNat 16 (r.valid.toNat + 1) })
      else
        (b.updRec g who o.recIdx 0 0 false (fun r => { r with grownBad := true, failCnt := satBits r.failCnt 1 }))
    let b2 := if ok then b1 else b1.event g 0x12 1 (at' o.recIdx 0 24 + at' ((b1.half g).rec? o.recIdx).failCnt.toNat 24 8)
    let b3 := if p.pad then b2.padNoticeAt g o.recIdx n else b2
    let b4 := if !ok && !p.pad && decide (c.opcode ≠ .rebuild) then b3.holdPage h o.seq p.slots else b3
    (b4.onCtx o.seq (fun c =>
      { (c.onPages (fun u => decide (u.page = n)) (fun u => { u with st := if ok then .passed else .failed })) with
        failN := if ok then c.failN else c.failN + 1
        firstFail := if ok then c.firstFail else some ((c.firstFail.getD n).min n)
        flags := if ok then c.flags else { c.flags with fail := true } })).onHalf g (fun x =>
          x.pageEnded o.recIdx n o.seq o.cls)
  | some g, none => if o.seq = noSeq then b.endPad g o n ok else b
  | none, _ => b

/-- A program of its unit pages has ended (R198). -/
def Block.endProgramOp (b : Block) (o : DieOp) (ok : Bool) : Block :=
  ((b.each o.pages (fun a n => a.endPage o n ok)).pump o.recIdx).tryFinish o.seq

/-- A parity program of its row has ended (R281, R282): `o.block` is the stripe's slot. -/
def Block.endParity (b : Block) (o : DieOp) (ok : Bool) : Block :=
  match b.keeper (recCh o.recIdx) with
  | none => b
  | some g =>
    if o.seq = noSeq then b.each o.pages (fun a n => a.endPad g o n ok) else
    let row := o.pages.headD 0
    let b1 := if ok then b else
      (b.updRec g none o.recIdx 0 0 false (fun r => { r with grownBad := true, failCnt := satBits r.failCnt 1 })).event g 0x13 o.block
        (b.pagePaddr o.recIdx row)
    b1.onHalf g (fun x =>
      match x.par.stripes.find? o.block with
      | none => x
      | some s => (x.onRow o.block row s (fun r => { r with done := r.done ++ [posOf s.ring o.recIdx] })).advanceParity o.block
          ((x.rowsHeld o.block) + 1))

/-- The target of a re-executed REBUILD is erased: it starts from row 0 (R300); where the erase fails, it ends with FAIL. -/
def Block.rebuildErased (b : Block) (h : HalfId) (seq : Nat) (c : Ctx) (ok : Bool) : Block :=
  if ok then b.finishOne seq
  else
    match (b.half h).rebuildOf seq with
    | none => b
    | some (n, r) => b.rebuildEnds h seq n r .fail c

/-- An ERASE has ended (R114, R120, R209, R372). -/
def Block.endErase (b : Block) (o : DieOp) (ok : Bool) : Block :=
  match b.keeper (recCh o.recIdx) with
  | none => b
  | some g =>
    let limit := (o.prof.or ((b.placeOf o.recIdx 0).map Place.prof)).elim 255 Profile.failLimit
    let who := some o.seq
    let b1 := b.updRec g who o.recIdx 0 0 false (fun r => if ok then r.erasedOk else r.eraseFailed limit)
    let r := (b1.half g).rec? o.recIdx
    let b2 := if ok then b1 else b1.event g 0x12 2 (at' o.recIdx 0 24 + at' r.failCnt.toNat 24 8)
    let b3 := if r.state = .retired then
        (b2.addDefect g who { index := o.recIdx, cause := 1, eraseCnt := r.eraseCnt }).allAbsent (fun j => decide (j = o.recIdx))
      else b2
    match b3.ctxOf o.seq with
    | none => b3.reErased g o.recIdx
    | some (h, c) =>
      if c.opcode = .rebuild then b3.rebuildErased h o.seq c ok
      else
        let f := { c.flags with fail := !ok }
        b3.finish h o.seq (f.status .doneOk) (eraseResult r)

/-- A block of an erase has ended: a pass goes on to the unit's next block (R209). -/
def Block.endEraseOp (b : Block) (o : DieOp) (ok : Bool) : Block :=
  let g := (b.placeOf o.recIdx 0).elim 1 (fun t => t.prof.g)
  if ok && o.block + 1 < g then
    match b.driver (recCh o.recIdx) with
    | none => b
    | some d => b.onHalf d (fun x => x.onDie (recCh o.recIdx) (recDie o.recIdx) (fun e =>
        { e with ops := { o with block := o.block + 1, phase := .queued, gapDone := false, pol := none, begun := [] } :: e.ops }))
  else
    let b1 := match b.driver (recCh o.recIdx) with
      | none => b
      | some d => b.onHalf d (fun x => x.onDie (recCh o.recIdx) (recDie o.recIdx) (fun e => { e with eraseActive := false }))
    b1.endErase o ok

/-- The codewords that a sense of command `seq` serves: those waiting for its pages at its entry, and those whose bits are on their way. -/
def servedBySense (o : DieOp) (k : Cw) : Bool :=
  ((decide (k.st = .sensing) && hasSets k) || decide (k.st = .arriving)) && decide (k.idx = o.recIdx) && o.pages.contains k.page &&
    decide (k.entry = o.entry)

/-- Page and slot of every codeword that a sense serves (R154). -/
def Block.servedPlaces (b : Block) (o : DieOp) : List (Nat × Nat) :=
  (b.ctxOf o.seq).elim [] (fun c => (c.2.cws.filter (servedBySense o)).map (fun k => (k.page, k.slot)))

/-- Some of the codewords a sense serves changed, and the command settled. -/
def Block.onServedAt (b : Block) (o : DieOp) (pick : Cw → Bool) (f : Cw → Cw) : Block :=
  match b.ctxOf o.seq with
  | none => b
  | some (_, c) =>
    (b.each (List.range c.cws.length) (fun a i =>
      match c.cws[i]? with
      | none => a
      | some k => if servedBySense o k && pick k then a.putCw o.seq i (f k) else a)).settle o.seq

/-- The codewords a sense serves changed, and the command settled. -/
def Block.onServed (b : Block) (o : DieOp) (f : Cw → Cw) : Block := b.onServedAt o (fun _ => true) f

/-- A die operation that ends without a result of its own: by a timeout, or because its die is gone (R158, R269). A program or erase fails, a read
goes to step 5. -/
def Block.endOp (b : Block) (o : DieOp) : Block :=
  match o.kind with
  | .program => b.endProgramOp o false
  | .parity => b.endParity o false
  | .erase => b.endEraseOp o false
  | .read => b.onServed o Cw.toRecon
  | .raw => b.onServed o Cw.fail
  | .fill => b.onServed o Cw.toRecon
  | .setup | .reset =>
    match b.ctxOf o.seq with
    | none => b
    | some (h, c) => if c.opcode = .dieReset then b.finish h o.seq .doneOk 0 else b

end Sys2Proof.Machine
end

