-- ==== Sys2Proof/Machine/Repair.lean ====
section
/-!
DEFINITION. Units that fail in service: engines, channels, dies, cores and pool banks, and the move of a channel to the twin's pad set
(R22-R30, R39-R42, R294, R594-R596, R601).
-/

namespace Sys2Proof.Machine

open Sys2Proof

/-! ### Requests for decode cores (R246, R415, R417, R529) -/

/-- A request raised at the arbiter's decode class; CLK_DEC runs for it. -/
def Half.askCore (x : Half) (id : Nat) : Half :=
  { x with
    arb := { x.arb with dec := { x.arb.dec with reqs := if x.arb.dec.reqs.contains id then x.arb.dec.reqs else x.arb.dec.reqs ++ [id] } }
    pwr := { x.pwr with decGated := false } }

/-- A request raised at the arbiter's pool class (R416). -/
def Half.askPool (x : Half) (id : Nat) : Half :=
  { x with arb := { x.arb with pool := { x.arb.pool with
      reqs := if x.arb.pool.reqs.contains id then x.arb.pool.reqs else x.arb.pool.reqs ++ [id] } } }

/-- The engine bound to a channel asks for a pool port (R416). -/
def Half.askPoolFor (x : Half) (v : Variant) (c : Nat) : Half := (x.engineOf v c).elim x x.askPool

/-- A codeword's channel asks for a core: hard, or soft. -/
def Block.askDecode (b : Block) (idx : Nat) (soft : Bool) : Block :=
  match b.driver (recCh idx) with
  | none => b
  | some g => b.onHalf g (fun x => x.askCore (recCh idx + if soft then 16 else 0))

/-! ### Engines (R21-R26) -/

/-- A die operation of the job of an engine is under way (R23). -/
def Half.midOp (x : Half) (e : Nat) : Bool :=
  (x.engine e).job.any (fun q => List.any x.chans (fun k => k.2.runsFor q))

/-- Background engines that no channel waits for. -/
def Half.freeBgs (v : Variant) (x : Half) : List Nat := (x.inRole v .background).filter (fun e => decide ((x.engine e).next = none))

/-- The background engine given up for a channel: one between die operations where there is one (R23). -/
def Half.bgFor (v : Variant) (x : Half) : Option Nat := ((x.freeBgs v).find? (fun e => !x.midOp e)).or ((x.freeBgs v).head?)

/-- The engine a half binds to a channel: its lowest spare, else a background engine (R23). `keep` tells that it does so of its own choice: it then leaves the spare minimum and
gives up a background engine (R22). -/
def Half.candidate (v : Variant) (x : Half) (keep : Bool) : Option Nat :=
  match x.inRole v .spare, x.bgFor v with
  | [], bg => bg
  | e :: _, none => some e
  | e :: r, some g => if keep && decide (r.length < Config.spareMin v) then some g else some e

/-- The half's banks hold the reserves whole of `n` channels (R29, R30). -/
def Half.reservesHold (x : Half) (n : Nat) : Bool := decide (Config.reserveCells * n ≤ x.poolCells)

/-- The half can bind an engine to a further channel and keep the spare minimum (R22, R23), and its banks hold at least the floor of one more reserve (R30). -/
def Half.canTake (v : Variant) (x : Half) : Bool :=
  let spares := (x.inRole v .spare).length
  (decide (Config.spareMin v < spares) || (decide (Config.spareMin v ≤ spares) && !(x.freeBgs v).isEmpty)) &&
    decide (Config.reserveFloor * ((x.served v).length + 1) ≤ x.poolCells)

/-- A change of roles that is due (R22, R26, R27): a background engine without a job becomes a spare in single-half operation, while spares lie below the minimum,
and while more engines than BG_MAX have background roles; where `grow`, a spare above the minimum becomes a background engine while fewer have. The spare minimum is
refilled while another background engine is left after the change, the words of R22 leaving open whether one must remain before or after it (DESIGN CHOICE, log entry 92); when fewer
engines are in service than the channels and the spare minimum need, the last one is given up too. -/
def Half.refillSpares (v : Variant) (grow : Bool) (x : Half) : Half :=
  let bgs := x.inRole v .background
  let spares := x.inRole v .spare
  let few := decide ((x.liveEngines v).length < (x.served v).length + Config.spareMin v)
  let short := decide (spares.length < Config.spareMin v) && (decide (2 ≤ bgs.length) || few)
  match (x.freeBgs v).find? (fun e => decide ((x.engine e).job = none)), spares with
  | some e, l =>
    if x.alone || short || decide (x.gen.bgMax < bgs.length) then x.onEngine e (fun _ => Engine.idle .spare)
    else match (if grow && decide (bgs.length < x.gen.bgMax) && decide (Config.spareMin v < l.length) then l else []) with
      | [] => x
      | s :: _ => x.onEngine s (fun _ => Engine.idle .background)
  | none, s :: r =>
    if grow && !x.alone && decide (bgs.length < x.gen.bgMax) && decide (Config.spareMin v ≤ r.length) then x.onEngine s (fun _ => Engine.idle .background) else x
  | none, [] => x

/-- Every change of roles that is due made. -/
def Half.fitRoles (v : Variant) (grow : Bool) (x : Half) : Half :=
  (List.range (Config.engines v)).foldl (fun (y : Half) _ => y.refillSpares v grow) x

/-- Background work of a half that no engine is on: its relocation copies, rebuilds and patrol reads, lowest number first (01, *Binding*). -/
def Half.jobsWaiting (v : Variant) (x : Half) : List Nat :=
  let on := (List.range (Config.engines v)).filterMap (fun e => (x.engine e).job)
  sortOn (fun q => q) ((List.filter (fun e =>
    decide (e.2.phase = .running) && (decide (e.2.opcode = .copy) || decide (e.2.opcode = .rebuild) || decide (e.2.opcode = .patrol)) &&
      !on.contains e.1) x.que.ctxs).map Prod.fst)

/-- Background engines without a job given the work that waits (R25). -/
def Half.placeJobs (v : Variant) (x : Half) : Half :=
  (x.jobsWaiting v).foldl (fun (y : Half) q =>
    match (y.freeBgs v).find? (fun e => decide ((y.engine e).job = none)) with
    | none => y
    | some e => y.onEngine e (fun g => { g with job := some q })) x

/-- Engine `e` bound to channel `c`; it first polls every die of the channel and reissues what was not confirmed (R23, R24). -/
def Half.bindEngine (v : Variant) (x : Half) (e c : Nat) : Half :=
  ((x.onEngine e (fun _ => Engine.on c)).onChan c Chan.reissue).fitRoles v false

/-- Engine `e` takes channel `c`: at once, or a background engine in the middle of a die operation at its end (R23). -/
def Half.engage (v : Variant) (x : Half) (e c : Nat) : Half :=
  if x.midOp e then x.onEngine e (fun g => { g with next := some c }) else x.bindEngine v e c

/-- Background engines whose die operation has ended bound to the channels that wait for them (R23). -/
def Half.bindDue (v : Variant) (x : Half) : Half :=
  (List.range (Config.engines v)).foldl (fun (y : Half) e =>
    match (y.engine e).next with
    | none => y
    | some c => if y.midOp e then y else y.bindEngine v e c) x

/-- DEGRADED as it now stands (R637). -/
def Block.noteDegraded (b : Block) (h : HalfId) : Block :=
  b.onHalf h (fun x => { x with boot := { x.boot with degraded := x.degradedNow b.variant (!b.linked) } })

/-- Background work placed on the engines free for it; a REBUILD that waited for one goes on (R25, R26). -/
def Block.placeJobs (b : Block) (h : HalfId) : Block :=
  let q := (b.half h).jobsWaiting b.variant
  (b.onHalf h (fun x => x.placeJobs b.variant)).each q (fun a s => if ((a.half h).rebuildOf s).isSome then a.finishOne s else a)

/-- The engines of a half as the end of a die operation leaves them (R23). -/
def Block.bindDue (b : Block) (h : HalfId) : Block :=
  if (List.range (Config.engines b.variant)).any (fun e => ((b.half h).engine e).next.isSome) then
    ((b.onHalf h (fun x => x.bindDue b.variant)).placeJobs h).noteDegraded h
  else b

/-! ### Channels (R294, R594-R596) -/

/-- Every operation the dies of a channel hold. -/
def Chan.allOps (k : Chan) : List DieOp := (k.dies.map (fun e => e.2.allOps)).flatten

/-- A die without operations. -/
def Die.emptied (e : Die) : Die := { e with op := none, under := none, ops := [] }

/-- A channel without operations or bus tasks. -/
def Chan.emptied (k : Chan) : Chan :=
  { k with dies := k.dies.foldl (fun (m : Tab Die) e => Tab.set Die.absent m e.1 e.2.emptied) k.dies, tasks := [], burst := none, mustPoll := [],
           trainReq := 0, trainRun := [] }

/-- Running DIE_RESETs that name channel `c` and wait for its training, at a half. -/
def Half.heldResets (x : Half) (c : Nat) : List Nat :=
  (List.filter (fun e => decide (e.2.opcode = .dieReset) && decide (e.2.phase = .running) && decide (e.2.entry.byte 20 = c) &&
    decide (e.2.entry.byte 22 = 2)) x.que.ctxs).map Prod.fst

/-- Those DIE_RESETs ended, but for the ones whose own reset is still out. -/
def Block.endHeldResets (b : Block) (c : Nat) (out : List DieOp) : Block :=
  let seqs := fun (x : Half) => (x.heldResets c).filter (fun q => !out.any (fun o => decide (o.seq = q)))
  (b.each (seqs b.ha) (fun a q => a.finish .a q .doneOk 0)).each (seqs b.hb) (fun a q => a.finish .b q .doneOk 0)

/-- A channel retired (R39, R294): its enables released, its operations ended, its members absent, noticed with the cause. -/
def Block.retireChannel (b : Block) (h : HalfId) (c cause : Nat) : Block :=
  let ops := ((b.half h).chan c).allOps
  let b1 := (b.dropEnable h c).onHalf h (fun x => x.onChan c (fun k => { k.emptied with retired := true }))
  let b2 := ((b1.allAbsent (fun j => decide (recCh j = c))).each ops (fun a o => a.endOp o)).endHeldResets c []
  (b2.retireNotice h 6 c cause false 0 0).noteDegraded h

/-- The slot by which the taking half knows a die's profile: its own slots, and from 16 on those of its twin. -/
def movedSlot (s : Nat) : Nat := if s < 16 then s + 16 else s - 16

/-- A die as the taking half receives it: credits 0, untrained, a suspended operation to be resumed at once (R411, R595). RATE_OK is carried over, though each half
reports its own pad set: R182 does not say what a taken die shows before its training (DESIGN CHOICE, log entry 90). -/
def Die.moved (e : Die) : Die :=
  { e with slot := e.slot.map movedSlot, credit := [], lanes := [], eye := 0
           op := e.op.map (fun o => if o.phase = .suspended then { o with phase := .resuming } else o) }

/-- A channel as the taking half receives it: its own registers and pad set, the dies with their operations, RESUME for every suspended LUN, and a full
training due (R183, R595). -/
def Chan.received (old k : Chan) : Chan :=
  let dies := k.dies.foldl (fun (m : Tab Die) e => Tab.set Die.absent m e.1 e.2.moved) []
  let susp := (List.filter (fun e => e.2.op.any (fun o => decide (o.phase = .suspended))) k.dies).map Prod.fst
  let start : Chan := { old with dies := dies, tasks := k.tasks.filter (fun t => decide (t.kind ≠ .train)), burst := none, rate := 0, ext := false
                                 trained := false, retired := k.retired, trainRun := [] }
  let r : Chan := start.reissue
  let resumes : List BusTask := susp.map (fun d => { kind := .resume, die := d })
  Chan.askRetrain { r with tasks := resumes ++ r.tasks } true

/-- The notice and source of a moved channel, at one half (R595, R602). -/
def Block.movedNotice (b : Block) (h : HalfId) (c dir cause : Nat) : Block :=
  (b.event h 0x23 c (dir + 256 * cause)).raise h 106

/-- Reserves of a half as large as its banks hold them for the channels it serves: whole, or all alike by steps of 64 cells less (R29, R30). -/
def Block.shrinkReserves (b : Block) (h : HalfId) : Block :=
  b.onHalf h (fun y => { y with pool := { y.pool with reserve := fitReserve y.poolCells (y.served b.variant).length } })

/-- Codewords on channels of a half without a soft core leave step 4 for stripe reconstruction (R39, R247). -/
def Block.noSoft (b : Block) (h : HalfId) : Block :=
  if (b.half h).dec.soft.isEmpty then
    let due := fun (k : Cw) => decide (k.step = 4) && decide (b.driver (recCh k.idx) = some h) &&
      (decide (k.st = .sensing) || decide (k.st = .arriving) || decide (k.st = .soft))
    let seqs := (List.filter (fun e => e.2.cws.any due) (b.ha.que.readers ++ b.hb.que.readers)).map Prod.fst
    b.each seqs (fun a q =>
      match a.ctxOf q with
      | none => a
      | some (_, c) => (a.each (List.range c.cws.length) (fun w i =>
          match c.cws[i]? with
          | none => w
          | some k => if due k then w.putCw q i k.toRecon else w)).settle q)
  else b

/-- Channel `c` moves from the half that drives it to its twin (R595, R596). -/
def Block.moveChan (b : Block) (giver : HalfId) (c cause : Nat) : Block :=
  let v := b.variant
  let x := b.half giver
  let taker := giver.twin
  let back := (b.half taker).twn.remote.contains c
  let b1 := (b.send giver (.handover c)).dropEnable giver c
  let b2 := b1.onHalf giver (fun y =>
    let z := (y.engineOf v c).elim y (fun e => y.onEngine e (fun _ => Engine.idle .spare))
    (z.onChan c Chan.emptied).onTwn (fun t => { t with
      drives := t.drives.filter (fun k => decide (k ≠ c))
      remote := if back then t.remote else t.remote ++ [c] }))
  let b3 := b2.onHalf taker (fun y =>
    let z := (y.onChan c (fun old => old.received (x.chan c))).onTwn (fun t => { t with
      drives := t.drives ++ [c], remote := t.remote.filter (fun k => decide (k ≠ c)) })
    z.onStore (fun s => { s with adoptedProfiles := x.store.profiles }))
  let b4 := b3.takeEnable taker c
  let b5 := match (b4.half taker).candidate v (!(b4.half taker).alone) with
    | none => b4
    | some e => (b4.onHalf taker (fun y => y.engage v e c)).placeJobs taker
  let b6 := ((b5.shrinkReserves giver).shrinkReserves taker).noSoft taker
  (((b6.movedNotice giver c 1 cause).movedNotice taker c 2 cause).notePool giver).notePool taker

/-- A channel left without an engine (R23): a spare or background engine is bound, else the twin takes it, else it is retired. Which cause byte
the notice of such a move carries is open: it takes a free value. -/
def Block.serveChannel (b : Block) (h : HalfId) (c cause : Nat) : Block :=
  match (b.half h).candidate b.variant false with
  | some e => ((b.onHalf h (fun x => x.engage b.variant e c)).placeJobs h).noteDegraded h
  | none =>
    if b.linked && (b.half h.twin).canTake b.variant then
      ({ b with freeUses := b.freeUses + 1 }.moveChan h c ((Config.freeValue b.freeUses).toNat % 256)).noteDegraded h
    else b.retireChannel h c cause

/-- A channel that no engine is bound to waits for one that is to take it. -/
def Half.promised (v : Variant) (x : Half) (c : Nat) : Bool := (List.range (Config.engines v)).any (fun e => decide ((x.engine e).next = some c))

/-- Channels that a binding left without an engine, at bring-up or after the half has taken its twin's: an engine where one is left, handed to an attached twin that can bind one, and
else retired (R23, R44, R637). -/
def Block.serveUnbound (b : Block) (h : HalfId) : Block :=
  b.each ((b.half h).unbound b.variant) (fun a c =>
    if ((a.half h).chan c).retired || (a.half h).promised a.variant c then a else a.serveChannel h c 4)

/-- An engine taken out of service, and noticed (R39, R385). -/
def Block.dropEngine (b : Block) (h : HalfId) (e cause word : Nat) : Block :=
  (b.onHalf h (fun x => x.onEngine e (fun _ => Engine.idle .retired))).retireNotice h 0 e cause false
    (if cause = 3 then word else 0) 0

/-- An engine fails or is retired (R22, R23, R25, R601). The job of a background engine goes on at another, or waits for one; a channel that was to have the engine is
served otherwise. -/
def Block.retireEngine (b : Block) (h : HalfId) (e cause word : Nat) : Block :=
  let g := (b.half h).engine e
  let gone := b.dropEngine h e cause word
  let fit := fun (a : Block) => ((a.onHalf h (fun x => x.fitRoles b.variant false)).placeJobs h).noteDegraded h
  match g.role, g.next with
  | .retired, _ => b
  | .unloaded, _ => b
  | .bound, _ => gone.serveChannel h g.chan cause
  | _, some c => (fit gone).serveChannel h c cause
  | _, none => fit gone

/-! ### Dies, cores and banks -/

/-- A die retired (R158, R294): its members absent. -/
def Block.retireDie (b : Block) (h : HalfId) (c d cause : Nat) : Block :=
  if ((b.half h).die c d).retired then b
  else
    let b1 := (b.onHalf h (fun x => x.onDie c d (fun e => { e with retired := true }))).allAbsent
      (fun j => decide (recCh j = c) && decide (recDie j = d))
    b1.retireNotice h 5 c cause false 0 d

/-- The pool-port number of a core (R416). -/
def coreId (soft : Bool) (k : Nat) : Nat := if soft then 28 + k else 18 + k

/-- A core out of service: its codeword asks for another, and the last hard core is a fault of the whole half; without a soft core the
ladder passes to stripe reconstruction (R39, R245, R247). -/
def Block.retireCore (b : Block) (h : HalfId) (soft : Bool) (k cause : Nat) : Block :=
  let work := (b.half h).dec.busy.filter (fun e => decide (e.id = coreId soft k))
  let b1 := b.onHalf h (fun x => { x with
    dec := { x.dec with
      hard := if soft then x.dec.hard else x.dec.hard.filter (fun j => decide (j ≠ k))
      soft := if soft then x.dec.soft.filter (fun j => decide (j ≠ k)) else x.dec.soft
      busy := x.dec.busy.filter (fun e => decide (e.id ≠ coreId soft k)) }
    arb := { x.arb with dec := { x.arb.dec with held := x.arb.dec.held.filter (fun i => decide (i ≠ coreId soft k)) } } })
  let b2 := b1.each work (fun a e =>
    match a.ctxOf e.seq with
    | none => a
    | some (_, c) => match c.cws[e.place]? with
      | none => a
      | some w => a.askDecode w.idx soft)
  let b3 := ((b2.retireNotice h (if soft then 2 else 1) k cause false 0 0).noteDegraded h).noSoft h
  if (b3.half h).dec.hard.isEmpty then b3.halfFault h else b3

/-- Cells of the half's live banks hold the reserves of the channels it serves, whole (R30). -/
def Half.reservesFit (v : Variant) (x : Half) : Bool := x.reservesHold (x.served v).length

/-- The half's reserves made to fit: its highest channels handed one at a time to a twin that can take them and whose banks hold one more reserve whole, and else shrunk alike (R29,
R30). A twin that cannot take a channel is as none, R30 naming no other case (DESIGN CHOICE, log entry 93). `n` bounds the moves by the channels driven. -/
def Block.fitReserves (b : Block) (h : HalfId) (n : Nat) : Block :=
  let x := b.half h
  let t := b.half h.twin
  match n with
  | 0 => b.shrinkReserves h
  | m + 1 =>
    if x.reservesFit b.variant then b.shrinkReserves h
    else if b.linked && t.canTake b.variant && t.reservesHold ((t.served b.variant).length + 1) then
      match (x.served b.variant).getLast? with
      | none => b
      | some c => Block.fitReserves (b.moveChan h c 2) h m
    else b.shrinkReserves h

/-- A hold lost: its tag freed and noticed, `why` 1 with its bank, 2 at a takeover (R203). A command still running keeps it no longer: its next failing page takes a new hold. -/
def Block.loseHold (b : Block) (h : HalfId) (why tag : Nat) : Block :=
  if ((b.half h).pool.holds.find? tag).isSome then
    (b.onHalf h (fun x => { x with
      pool := { x.pool with holds := x.pool.holds.drop tag }
      que := { x.que with ctxs := x.que.ctxs.map (fun e =>
        (e.1, if e.2.phase = .running && e.2.holdTag = some tag then { e.2 with holdTag := none } else e.2)) } })).event h 0x11 tag why
  else b

/-! ### What a lost pool bank held (R42, R301) -/

/-- A codeword whose cells were lost is read again from flash, from the foot of the ladder: it has not been sent, and its unit can be read. -/
def Block.rereadCw (b : Block) (seq i : Nat) : Block :=
  match b.ctxOf seq with
  | none => b
  | some (g, c) =>
    match c.cws[i]? with
    | none => b
    | some k =>
      if k.role = .spent || (k.st = .done && !c.keepsCw ((b.half g).sentCws c) i k) || k.st = .sensing || k.st = .recon then b
      else
        let j : Cw := { k with st := .sensing, step := 1, entry := k.start, tries := 0, best := k.start, unsat := none, senses := 0, bits := 0, fin := none
                               poison := false, sets := .none }
        let on := ((b.half .a).dec.busy ++ (b.half .b).dec.busy).filter (fun w => decide (w.seq = seq) && decide (w.place = i))
        let free := fun (x : Half) => { x with
          dec := { x.dec with busy := x.dec.busy.filter (fun w => !on.contains w) }
          arb := { x.arb with dec := { x.arb.dec with held := x.arb.dec.held.filter (fun id => !(x.dec.busy.any (fun w => decide (w.id = id) && on.contains w))) } } }
        ((b.onHalf .a free).onHalf .b free).onCtx seq (fun c => { c with cws := c.cws.set i j })

/-- The data-in of a unit page is under way at the die, or over. -/
def Block.atDie (b : Block) (seq i page : Nat) : Bool :=
  let e := b.dieOf (recCh i) (recDie i)
  (e.op.toList ++ e.under.toList).any (fun o => decide (o.seq = seq) && o.pages.contains page && decide (o.phase ≠ .issue))

/-- Operations of command `seq` that carry unit page `n` of record `i`, not yet begun, taken back from the die. -/
def Block.unissue (b : Block) (seq i n : Nat) : Block :=
  match b.driver (recCh i) with
  | none => b
  | some g =>
    let mine := fun (o : DieOp) => decide (o.seq = seq) && decide (o.recIdx = i) && o.pages.contains n
    b.onHalf g (fun x => x.onChan (recCh i) (fun k =>
      let e := k.die (recDie i)
      if e.op.any (fun o => mine o && decide (o.phase = .issue)) then
        (k.dropTasks (recDie i)).onDie (recDie i) (fun e => { e with op := none, ops := e.ops.filter (fun o => !mine o) })
      else k.onDie (recDie i) (fun e => { e with ops := e.ops.filter (fun o => !mine o) })))

/-- The source codewords of a COPY's or REBUILD's page read again; nothing is read again for a pad page. -/
def Block.rereadSource (b : Block) (seq : Nat) (c : Ctx) (p : UPage) : Block :=
  if c.opcode = .copy then
    match b.locatePage c.entry.paddr, c.pages.head? with
    | some t, some p0 => b.startCws seq t { t with page := t.page + (p.page - p0.page) } 0 4 (b.recAt t).tension.toNat .read .main
    | _, _ => b
  else
    match c.opcode, (b.half .a).rebuildOf seq, (b.half .b).rebuildOf seq with
    | .rebuild, some (_, r), _ => (b.rebuildCws seq r).settle seq
    | .rebuild, none, some (_, r) => (b.rebuildCws seq r).settle seq
    | _, _, _ => b

/-- A unit page whose cells were lost waits for its data again: the command's source is fetched, or its codewords are read, a second time (R42). A page whose data-in has begun needs
them no more but for a hold, and what it held is the same. -/
def Block.refetchPage (b : Block) (seq n : Nat) : Block :=
  match b.ctxOf seq with
  | none => b
  | some (_, c) =>
    match c.pages.find? (fun p => decide (p.page = n)) with
    | none => b
    | some p =>
      if p.pad || p.st = .waiting || p.st = .passed || p.st = .failed || b.atDie seq c.dstIdx n then b
      else
        let host := decide (c.opcode = .program) || decide (c.opcode = .programAt) || decide (c.opcode = .offer)
        let b1 := (b.unissue seq c.dstIdx n).onCtx seq (fun c =>
          { (c.onPages (fun u => decide (u.page = n)) (fun u => { u with st := .waiting, held := false })) with
            again := c.again || host })
        if host then b1 else b1.rereadSource seq c p

/-- A stream of a command whose source is fetched again: one still active is cut short and starts anew (R42). -/
def Half.refetch (x : Half) (seq : Nat) : Half :=
  match x.ctx? seq with
  | none => x
  | some c =>
    if c.again && c.xfer ≠ .wanted then
      let y := match c.xfer with
        | .active n => { x with dma := { x.dma.keepReads (fun r => decide (r.slot ≠ some n)) with
            streams := Tab.modify Stream.reset x.dma.streams n (fun t => { t with active := false })
            visits := x.dma.visits.filter (fun v => !decide (v.slot = n)) } }
        | _ => x
      y.onCtx seq (fun c => { c with xfer := .wanted, buf := 0 })
    else x

/-- A row's accumulators recomputed from the pages that have folded into it: those still in the pool, and those on flash; a page that cannot be read leaves the row
without, and its parity blank (R42, R301, R302). -/
def Block.redoRow (b : Block) (h : HalfId) (slot row : Nat) (flash : List FlashPage) : Block :=
  let x := b.half h
  match x.par.stripes.find? slot with
  | none => b
  | some s =>
    let r := x.row slot row s
    let inPool := fun (i : Nat) => ((b.ha.ownedPages i ++ b.hb.ownedPages i).find? (fun p => decide (p.page.page = row))).map (fun p => p.page.slots)
    let data := fun (k : Nat) =>
      if s.absent.contains k then some padSlots
      else (inPool (s.ring.getD k 0)).or (x.foldedSlots s row k flash)
    if r.folded.isEmpty || (r.p.isEmpty && r.q.isEmpty) then b
    else if r.folded.all (fun k => (data k).isSome) then
      let f := r.folded.foldl (fun (a : Row) k => a.fold k ((data k).getD padSlots)) Row.fresh
      b.onHalf h (fun y => y.onRow slot row s (fun q => { q with p := f.p, q := f.q }))
    else
      (b.onHalf h (fun y => y.onRow slot row s (fun q => { q with p := [], q := [] }))).event h 0x14 slot
        (at' (s.ring.getD s.dataCount 0) 0 24 + at' row 32 16)

/-- Everything a lost bank held rebuilt from its sources, the holds lost: none of it comes from the bank (R39, R42, R203, R301, R557). -/
def Block.rebuildBank (b : Block) (h : HalfId) (l : BankLoss) : Block :=
  let b1 := b.each l.holds (fun a t => a.loseHold h 1 t)
  let b2 := b1.each l.cws (fun a e => a.rereadCw e.1 e.2)
  let b3 := b2.each l.pages (fun a e => a.refetchPage e.1 e.2)
  let seqs := (l.pages.map Prod.fst).eraseDups
  let b4 := b3.each seqs (fun a q => (a.onHalf .a (fun x => x.refetch q)).onHalf .b (fun x => x.refetch q))
  let b5 := b4.each l.rows (fun a e => a.redoRow h e.1 e.2 l.flash)
  let b6 := if l.journal && !b5.linked then b5.onHalf h (fun x => x.onFly (fun f => { f with jrnlBad := true })) else b5
  b6.each (l.cws.map Prod.fst).eraseDups (fun a q => a.askSense q)

/-- A pool bank out of service: what it held rebuilt, the reserves made to fit; a half without a
bank has failed (R30, R39, R41, R42, R203). -/
def Block.retireBank (b : Block) (h : HalfId) (bank cause : Nat) (lost : BankLoss) : Block :=
  if (b.half h).pool.live.contains bank then
    let b1 := b.onHalf h (fun x => { x with pool := { x.pool with live := x.pool.live.filter (fun k => decide (k ≠ bank)) } })
    let b2 := (b1.retireNotice h 3 bank cause false 0 0).rebuildBank h lost
    let b3 := ((b2.fitReserves h (b2.half h).twn.drives.length).notePool h).noteDegraded h
    if (b3.half h).pool.live.isEmpty then b3.halfFault h else b3
  else b

/-! ### Meanings -/

/-- ENGINE_FAILURE (R23, R24). -/
def execEngineFailure (h : HalfId) (engine cause word : Nat) (s : State) : Host.Outcome State Fault Refusal :=
  run (fun b => if b.coreRuns h then b.retireEngine h engine cause word else b) s

/-- BACKGROUND_ENGINE_FAILURE (R25). -/
def execBackgroundEngineFailure (h : HalfId) (engine cause word : Nat) (s : State) : Host.Outcome State Fault Refusal :=
  run (fun b =>
    if b.coreRuns h && decide (((b.half h).engine engine).role = .background) then b.retireEngine h engine cause word else b) s

/-- The job of an engine has ended: no command runs for it any more. -/
def Half.jobOver (x : Half) (e : Nat) : Bool := (x.engine e).job.all (fun q => (x.ctx? q).all (fun c => decide (c.phase ≠ .running)))

/-- A background job ended: the roles made to fit, then the work that waits placed (R21, R22, R27). -/
def Block.jobEnded (b : Block) (h : HalfId) (e : Nat) : Block :=
  let b1 := b.onHalf h (fun x => (x.onEngine e (fun g => { g with job := none })).bindDue b.variant)
  ((b1.onHalf h (fun x => x.fitRoles b.variant true)).placeJobs h).noteDegraded h

/-- BACKGROUND_JOB_END (R22, R27). -/
def execBackgroundJobEnd (h : HalfId) (engine : Nat) (s : State) : Host.Outcome State Fault Refusal :=
  run (fun b =>
    if b.coreRuns h && decide (((b.half h).engine engine).role = .background) && (b.half h).jobOver engine then b.jobEnded h engine
    else b) s

/-- POOL_BANK_RETIRE (R30, R42, R203): `lost` names what the bank held. -/
def execPoolBankRetire (h : HalfId) (bank cause : Nat) (lost : BankLoss) (s : State) : Host.Outcome State Fault Refusal :=
  run (fun b => if b.coreRuns h then b.retireBank h bank cause lost else b) s

/-- The reason a move is commanded for holds (R30, R39, R595, R601): the driving pad set has failed, its reserves do not fit, or the channel goes back to
a home half that can drive it again. -/
def Block.moveDue (b : Block) (h : HalfId) (c cause : Nat) : Bool :=
  let k := (b.half h).chan c
  let t := b.half h.twin
  let home := t.twn.remote.contains c && !(t.chan c).padRetired && !(t.chan c).padFail
  match cause with
  | 1 => k.padFail || k.padRetired
  | 2 => !(b.half h).reservesFit b.variant || (home && t.reservesHold ((t.served b.variant).length + 1))
  | 5 => home
  | _ => false

/-- CHANNEL_MOVE (R595): where the twin is attached and can bind an engine to the channel. -/
def execChannelMove (h : HalfId) (ch : Nat) (cause : Nat) (s : State) : Host.Outcome State Fault Refusal :=
  run (fun b =>
    if b.coreRuns h && b.linked && (b.half h).drivesCh ch && !((b.half h).chan ch).retired && (b.half h.twin).canTake b.variant &&
        b.moveDue h ch cause then b.moveChan h ch cause
    else b) s

end Sys2Proof.Machine
end

