-- ==== Sys2Proof/Machine/DataCmds.lean ====
section
/-!
DEFINITION. Meanings of the range-lock leave and of the data commands from READ to INVALIDATE (05, *Programming*, *Erasing*; 09, *Reads*,
*Programs*, *ERASE and INVALIDATE*).
-/

namespace Sys2Proof.Machine

open Sys2Proof

/-! ### Leaving the range-lock table (R407) -/

/-- The hold that a RELEASE, or a program with HOLD_SRC, names (R368, R378). -/
def Ctx.namedHold (c : Ctx) : Option Nat :=
  match c.opcode with
  | .release => some (c.entry.byte 20 % 64)
  | .program | .programAt => if c.entry.flag 2 then some (c.entry.byte 45 % 64) else none
  | _ => none

/-- The hold a command names is there to be taken as it leaves the range-lock table: no command that left before it has it (R368, R378). -/
def Half.takesHold (x : Half) (c : Ctx) : Bool :=
  c.namedHold.any (fun t => (x.pool.holds.find? t).isSome &&
    !(List.any x.que.ctxs (fun e => decide (e.2.phase = .left) && e.2.took && decide (e.2.namedHold = some t))))

/-- RANGE_LOCK_LEAVE (R116, R407): no lower-numbered conflicting entry remains, and the fetch is acknowledged by an attached twin (R401). -/
def execRangeLockLeave (h : HalfId) (seq : Nat) (s : State) : Host.Outcome State Fault Refusal :=
  run (fun b =>
    match (b.half h).ctx? seq with
    | none => b
    | some c =>
      if b.coreRuns h && decide (c.phase = .stalled) && (b.half h).que.mayLeave seq && c.waitAck.isEmpty then
        (b.onPair (fun p => { p with leaves := p.leaves + 1 })).onHalf h (fun x => x.onCtx seq (fun c => { c with phase := .left, order := b.pair.leaves + 1, took := x.takesHold c }))
      else b) s

/-- The journal takes changes: not from the assembly of the flysheet record's header on (R381, R550). -/
def Block.journalOpen (b : Block) (h : HalfId) : Bool :=
  !(b.pair.latched && (decide ((b.half h).fly.phase = 2) || decide ((b.half h).fly.phase = 3)))

/-- A command of opcode `o` that has left the range-lock table makes its checks and starts: `f` is its effect (R116). -/
def onLeft (h : HalfId) (seq : Nat) (o : Opcode) (f : Block → Ctx → Block) (s : State) : Host.Outcome State Fault Refusal :=
  run (fun b =>
    match (b.half h).leftCtx seq o with
    | none => b
    | some c => if b.coreRuns h && b.journalOpen h then f b c else b) s

/-! ### Reads (R115, R122, R258, R262, R269, R298, R362-R366) -/

/-- The unit page that serves a read of a place: the target's, where the unit is forwarded (R298). -/
def Block.servedPlace (b : Block) (t : Place) : Place :=
  (b.placeOf ((b.half t.keep).servedBy t.idx 8) t.page).getD t

/-- NRU set in a unit's record by a read (R122). -/
def Block.touchNru (b : Block) (seq : Nat) (t : Place) : Block :=
  if (b.recAt t).nru then b
  else b.updRec t.keep (some seq) t.idx 0 0 false (fun r => { r with nru := true })

/-- The ladder started for `n` codewords from a place, the command's stream wanted or not. -/
def Block.readFrom (b : Block) (seq : Nat) (t : Place) (slot n : Nat) (nru stream : Bool) : Block :=
  let u := b.servedPlace t
  let b1 := if nru then b.touchNru seq u else b
  ((b1.onCtx seq (fun c => { c with phase := .running, xfer := if stream then .wanted else .none })).startCws seq t u slot n
    (b.recAt u).tension.toNat .read .main).settle seq

/-- A READ or PATROL checked and started (R115, R134, R362). -/
def Block.readCmd (b : Block) (h : HalfId) (seq : Nat) (c : Ctx) (nru stream : Bool) : Block :=
  let n := c.entry.bytes 44 2
  match b.locate c.entry.paddr with
  | none => b.refuse h seq .addressRange
  | some t =>
    let slot := (addrOf c.entry.paddr).slot
    match b.readFault t slot n with
    | some st => b.refuse h seq st
    | none => b.readFrom seq t slot n nru stream

/-- READ (R122, R362, R363). -/
def execRead (h : HalfId) (seq : Nat) (s : State) : Host.Outcome State Fault Refusal :=
  onLeft h seq .read (fun b c => b.readCmd h seq c true true) s

/-- PATROL (R122, R262, R365). -/
def execPatrol (h : HalfId) (seq : Nat) (s : State) : Host.Outcome State Fault Refusal :=
  onLeft h seq .patrol (fun b c => (b.readCmd h seq c false false).placeJobs h) s

/-- A READ_RAW checked and started (R115, R134, R269, R364). -/
def Block.rawCmd (b : Block) (h : HalfId) (seq : Nat) (c : Ctx) : Block :=
  match b.locate c.entry.paddr with
  | none => b.refuse h seq .addressRange
  | some t =>
    let slot := (addrOf c.entry.paddr).slot
    match b.readFault t slot 1 with
    | some st => b.refuse h seq st
    | none =>
      if b.goneUnit t then b.refuse h seq .unitState
      else
        let u := b.servedPlace t
        let entry := if c.entry.flag 0 then c.entry.byte 46 % 16 else (b.recAt u).tension.toNat
        (b.onCtx seq (fun c => { c with phase := .running, xfer := .wanted })).startCws seq t u slot 1 entry .raw .main

/-- READ_RAW (R269, R364). -/
def execReadRaw (h : HalfId) (seq : Nat) (s : State) : Host.Outcome State Fault Refusal :=
  onLeft h seq .readRaw (fun b c => b.rawCmd h seq c) s

/-! ### Programs (R187-R206, R284, R367-R371) -/

/-- The status that refuses a program's hold, if any (R368). -/
def Half.holdFault (x : Half) (c : Ctx) : Option Status :=
  match (if c.took then x.pool.holds.find? (c.entry.byte 45 % 64) else none) with
  | none => some .holdInvalid
  | some e => if e.pages.length = c.entry.byte 44 then none else some .paramInvalid

/-- The half without a hold. -/
def Half.dropHold (x : Half) (tag : Nat) : Half := { x with pool := { x.pool with holds := x.pool.holds.drop tag } }

/-- A clean OFFER is declined: its target's zone is tight (R369). -/
def Block.declines (b : Block) (c : Ctx) (t : Place) : Bool :=
  let z := (b.recAt t).zone.toNat
  decide (c.opcode = .offer) && c.entry.flag 3 &&
    decide (b.freeCount t.keep z ≤ (Tab.get Zone.reset (b.half t.keep).loops.zones z).tight)

/-- A page of a hold that has a poisoned word takes the pad pattern (R194, R468). -/
def Ctx.padPoisoned (c : Ctx) (l : List Nat) : Ctx :=
  { c with pages := c.pages.zipIdx.map (fun e => if l.contains e.2 then { e.1 with pad := true, slots := padSlots } else e.1)
           flags := { c.flags with dataPoison := c.flags.dataPoison || !l.isEmpty } }

/-- A program's reservation and start, its data from a hold or from its stream (R189, R191, R368). R122 names PROGRAM and OFFER; PROGRAM_AT sets NRU and AGE as PROGRAM does (DESIGN CHOICE,
log entry 104). -/
def Block.programStart (b : Block) (h : HalfId) (seq : Nat) (c : Ctx) (t : Place) (held : Bool) : Block :=
  let tag := c.entry.byte 45 % 64
  let data := if held then ((b.half h).pool.holds.find? tag).map Hold.pages else none
  let b1 := b.reserve seq t (c.entry.byte 44) true (c.entry.flag 1) data
  let poison := if held then ((b.half h).pool.holds.find? tag).elim [] Hold.poison else []
  let b2 := if held then b1.onHalf h (fun x => x.dropHold tag) else b1
  (b2.onCtx seq (fun c => { c.padPoisoned poison with phase := .running, xfer := if held then .none else .wanted })).pump t.idx

/-- The unit page by which a PROGRAM_AT is checked. One re-executed after a takeover is placed at the current WP when every unit page from its named
page to WP − 1 lies in void ranges of that takeover (R590). -/
def Block.atPage (b : Block) (h : HalfId) (c : Ctx) (t : Place) : Option Nat :=
  let wp := (b.recAt t).wp.toNat
  let isVoid := fun (n : Nat) => (b.half h).twn.voided.any (fun r => decide (r.1 = t.idx) && decide (r.2.1 ≤ n) && decide (n < r.2.1 + r.2.2))
  if c.redo && decide (t.page ≤ wp) && ((List.range wp).filter (fun n => decide (t.page ≤ n))).all isVoid then none else some t.page

/-- A PROGRAM, PROGRAM_AT or OFFER checked and started; `at?` is PROGRAM_AT's unit page; the hold of a re-executed one was lost (R187-R190, R284, R368,
R369, R590). -/
def Block.programCmd (b : Block) (h : HalfId) (seq : Nat) (c : Ctx) (place : Option Place) (at? : Option Nat) : Block :=
  match place with
  | none => b.refuse h seq .addressRange
  | some t =>
    if b.orderHeld h seq c t.idx then b
    else
      let held := decide (c.opcode ≠ .offer) && c.entry.flag 2
      match (if held then (if c.redo then some .holdInvalid else (b.half h).holdFault c) else none) with
      | some st => b.refuse h seq st
      | none =>
        match b.programFault t (c.entry.byte 44) at? (decide (c.opcode ≠ .offer)) with
        | some st => b.refuse h seq st
        | none => if b.declines c t then b.finish h seq .declined 0 else b.programStart h seq c t held

/-- PROGRAM (R187). -/
def execProgram (h : HalfId) (seq : Nat) (s : State) : Host.Outcome State Fault Refusal :=
  onLeft h seq .program (fun b c => (b.programCmd h seq c (b.locateUnit c.entry.paddr) none).tryFinish seq) s

/-- PROGRAM_AT (R187, R359). -/
def execProgramAt (h : HalfId) (seq : Nat) (s : State) : Host.Outcome State Fault Refusal :=
  onLeft h seq .programAt (fun b c =>
    let t := b.locatePage c.entry.paddr
    (b.programCmd h seq c t (t.bind (b.atPage h c))).tryFinish seq) s

/-- OFFER (R369). -/
def execOffer (h : HalfId) (seq : Nat) (s : State) : Host.Outcome State Fault Refusal :=
  onLeft h seq .offer (fun b c => (b.programCmd h seq c (b.locateUnit c.entry.paddr) none).tryFinish seq) s

/-- A COPY's source leg: the checks of a READ, and every codeword of its source (R370). -/
def Block.copyCmd (b : Block) (h : HalfId) (seq : Nat) (c : Ctx) : Block :=
  let n := 4 * c.entry.byte 44
  match b.locatePage c.entry.paddr with
  | none => b.refuse h seq .addressRange
  | some t =>
    match b.readFault t 0 n with
    | some st => b.refuse h seq st
    | none => (b.onCtx seq (fun c => { c with readLeft := true })).readFrom seq t 0 n false false

/-- COPY (R370). -/
def execCopy (h : HalfId) (seq : Nat) (s : State) : Host.Outcome State Fault Refusal :=
  onLeft h seq .copy (fun b c => ((b.copyCmd h seq c).placeJobs h).tryFinish seq) s

/-! ### ERASE (R115, R135, R207-R210, R293, R372) -/

/-- The status that refuses an ERASE, if any. -/
def Block.eraseFault (b : Block) (t : Place) : Option Status :=
  let r := b.recAt t
  if b.lostRec t.keep t.idx then some .dataPoison
  else if r.fly || (b.half t.keep).unformatted then some .unitState
  else if r.rgnOwn && (!b.updatable t || decide (r.state = .region)) then some .regionLocked
  else if decide (r.state = .erasing) || decide (r.state = .retired) || b.dieRetired t.idx then some .unitState
  else if decide (r.role ≠ .none) && !b.mayDissolve t.keep t.idx then some .unitState
  else none

end Sys2Proof.Machine

namespace Sys2Proof

/-- What an accepted ERASE makes of a record at once (R114, R208). -/
def Rec.erasing (r : Rec) (slc : Bool) : Rec := { r with state := .erasing, suspCnt := 0, slc := slc }

/-- A record freed of its stripe (R293). -/
def Rec.unlinked (r : Rec) : Rec := { r with role := .none, next := 0 }

end Sys2Proof

namespace Sys2Proof.Machine

open Sys2Proof

/-- The erasing delta, in one journal record with what dissolves the unit's stripe (R208, R293). -/
def Block.enterErasing (b : Block) (seq : Nat) (t : Place) (slc : Bool) : Block :=
  let k := t.keep
  let x := b.half k
  let who := some seq
  if (b.recAt t).role = .none then b.updRec k who t.idx 0 0 false (fun r => r.erasing slc)
  else
    let news := ((x.dissolved t.idx).eraseDups).map (fun j =>
      (j, if j = t.idx then (x.rec? j).unlinked.erasing slc else (x.rec? j).unlinked))
    let slot := (x.openStripe t.idx).map Prod.fst
    let es := news.map (fun e => recEntry (x.rec? e.1) e.2 e.1 0 0 false)
    let freed : List JEntry := slot.toList.map (fun n => { kind := .stripe n none, count := 0, vdelta := 0, freed := false, group := 0, gseq := 0, grew := 0, old := false })
    let b1 := b.onHalf k (fun y =>
      let z := news.foldl (fun (w : Half) e => w.setRec e.1 e.2) y
      slot.elim z z.freeSlot)
    b1.journal k who (es ++ freed)

/-- An ERASE checked and started; one re-executed with its unit erasing erases it again without those checks (R590). -/
def Block.eraseCmd (b : Block) (h : HalfId) (seq : Nat) (c : Ctx) : Block :=
  match b.locateUnit c.entry.paddr with
  | none => b.refuse h seq .addressRange
  | some t =>
    if c.redo && decide ((c.progress.recImage? t.idx).any (fun r => decide (r.state = .erasing))) then
      (b.running seq).pushOps t.idx [mkOp .erase seq c.cls t.idx [] (b.recAt t).slc 0]
    else match b.eraseFault t with
    | some st => b.refuse h seq st
    | none =>
      let slc := (b.recAt t).rgnOwn || c.entry.flag 0
      ((b.enterErasing seq t slc).onCtx seq (fun c => { c with
        phase := .running, before := if (b.recAt t).rgnOwn then some (b.recAt t) else none })).pushOps t.idx [mkOp .erase seq c.cls t.idx [] slc 0]

/-- ERASE (R207). -/
def execErase (h : HalfId) (seq : Nat) (s : State) : Host.Outcome State Fault Refusal :=
  onLeft h seq .erase (fun b c => b.eraseCmd h seq c) s

/-! ### INVALIDATE (R113, R114, R373) -/

/-- The status that refuses an INVALIDATE, if any: checks 2 to 4 of R373. -/
def invalidateFault (r : Rec) : Option Status :=
  if r.fly then some .unitState
  else if r.rgnOwn then some .regionLocked
  else
    match r.state, r.role with
    | .free, _ | .erasing, _ | .erased, _ | .retired, _ => some .unitState
    | _, .p | _, .q => some .unitState
    | _, _ => none

/-- VALID lowered by `n`; a full unit without valid pages becomes free (R113, R114). -/
def invalidated (r : Rec) (n : Nat) : Rec :=
  let v := r.lower n
  if decide (r.state = .full) && decide (v.valid = 0) then { v with state := .free } else v

/-- An INVALIDATE carried out; one re-executed with its change made replies from its image (R590). -/
def Block.invalidateCmd (b : Block) (h : HalfId) (seq : Nat) (c : Ctx) : Block :=
  match b.locateUnit c.entry.paddr with
  | none => b.refuse h seq .addressRange
  | some t =>
    let r := b.recAt t
    let n := c.entry.bytes 28 2
    match (if c.redo then c.progress.recEntry? t.idx else none), c.progress.recImage? t.idx with
    | some e, some img => b.finish h seq .doneOk (invalidateResult img (decide (-e.vdelta < (n : Int))))
    | _, _ =>
    match (if b.lostRec t.keep t.idx then some .dataPoison else invalidateFault r) with
    | some st => b.refuse h seq st
    | none =>
      let new := invalidated r n
      let under := decide (r.valid.toNat < n)
      let g := b.groupOf c
      let b1 := b.updRec t.keep (some seq) t.idx g.1 g.2
        (decide (r.state = .full) && decide (new.state = .free)) (fun _ => new)
      (b1.underflow t.keep under).finish h seq .doneOk (invalidateResult new under)

/-- INVALIDATE (R373). -/
def execInvalidate (h : HalfId) (seq : Nat) (s : State) : Host.Outcome State Fault Refusal :=
  onLeft h seq .invalidate (fun b c => b.invalidateCmd h seq c) s

end Sys2Proof.Machine
end

