-- ==== Sys2Proof/Machine/MaintCmds.lean ====
section
/-!
DEFINITION. Meanings of VICTIM, BLANK_CHECK, RELEASE, GROUP_COMMIT, FENCE and of the fall of UPDATE_EN (03, *Replacement order*, R139; 09,
*VICTIM, BLANK_CHECK and REBUILD*, *RELEASE, GROUP_COMMIT and FENCE*).
-/

namespace Sys2Proof.Machine

open Sys2Proof

/-! ### Bytes to BUF -/

/-- A number and how many bytes of it a structure takes, least significant byte first. -/
def packed (l : List (Nat × Nat)) : Nat :=
  match l with
  | [] => 0
  | (v, n) :: r => v % 2 ^ (8 * n) + 2 ^ (8 * n) * packed r

/-- A command that writes `n` bytes to its BUF, with the RESULT it will give: its stream is wanted, or it completes where nothing is to move. -/
def Block.toBuf (b : Block) (seq data n result : Nat) : Block :=
  (b.onCtx seq (fun c => { c with
    phase := .running, buf := data % 2 ^ (8 * n), bufLen := n, result := BitVec.ofNat 112 result
    xfer := if n = 0 then .none else .wanted })).tryFinish seq

/-! ### VICTIM (R125, R374) -/

/-- A unit VICTIM may return for a zone (R125). -/
def victimUnit (z : Nat) (r : Rec) : Bool :=
  decide (r.state = .full) && decide (r.zone.toNat = z) && !r.rgnOwn && !r.fly && decide (r.role ≠ .p) && decide (r.role ≠ .q)

/-- The order of R125 as one number, lowest first. -/
def victimKey (e : Nat × Rec) : Nat :=
  ((bitOf e.2.nru * 8 + (7 - e.2.age.toNat)) * 65536 + e.2.valid.toNat) * 2 ^ 18 + e.1

/-- An entry of a VICTIM list (R374). -/
def victimEntry (e : Nat × Rec) : Nat × Nat :=
  (at' e.1 0 24 + at' e.2.age.toNat 24 3 + at' (bitOf e.2.nru) 27 1 + at' e.2.valid.toNat 32 16, 8)

/-- The candidates of a zone, best first, poisoned records skipped (R468). -/
def Half.victims (x : Half) (z : Nat) : List (Nat × Rec) := sortOn victimKey (List.filter (fun e => victimUnit z e.2 && !x.recLost e.1) x.store.recs)

/-- VICTIM (R374). -/
def execVictim (h : HalfId) (seq : Nat) (s : State) : Host.Outcome State Fault Refusal :=
  onLeft h seq .victim (fun b c =>
    let l := ((b.half h).victims (c.entry.byte 20 % 16)).take (c.entry.byte 21)
    b.toBuf seq (packed (l.map victimEntry)) (8 * l.length) (atByte 49 l.length 8)) s

/-! ### BLANK_CHECK (R375, R376) -/

/-- A BLANK_CHECK checked and its samples started (R375). -/
def Block.blankCmd (b : Block) (h : HalfId) (seq : Nat) (c : Ctx) : Block :=
  match b.locateUnit c.entry.paddr with
  | none => b.refuse h seq .addressRange
  | some t =>
    let r := b.recAt t
    if b.lostRec t.keep t.idx then b.refuse h seq .dataPoison
    else if r.fly || b.dieRetired t.idx then b.refuse h seq .unitState
    else if r.rgnOwn then b.refuse h seq .regionHidden
    else b.sampleStart seq c t

/-- BLANK_CHECK (R375): no sample is started once a brown-out is latched (R171). -/
def execBlankCheck (h : HalfId) (seq : Nat) (s : State) : Host.Outcome State Fault Refusal :=
  onLeft h seq .blankCheck (fun b c => if b.pair.latched then b else b.blankCmd h seq c) s

/-! ### RELEASE (R378) -/

/-- RELEASE (R378); one re-executed is done, its hold being lost (R203, R590). -/
def execRelease (h : HalfId) (seq : Nat) (s : State) : Host.Outcome State Fault Refusal :=
  onLeft h seq .release (fun b c =>
    let tag := c.entry.byte 20 % 64
    if c.redo then b.finish h seq .doneOk 0
    else if c.took && ((b.half h).pool.holds.find? tag).isSome then (b.onHalf h (fun x => x.dropHold tag)).finish h seq .doneOk 0
    else b.refuse h seq .holdInvalid) s

/-! ### GROUP_COMMIT (R380, R381) -/

/-- The commit conditions of R380. -/
def Group.commits (g : Group) (members : Nat) (marked abandon : Bool) : Bool :=
  decide (g.members.length = members) && decide (g.ok.length = g.members.length) && !g.isVoid && !marked && !abandon

/-- A close entry of the journal (R553). -/
def closeEntry (tag gseq : Nat) (isVoid : Bool) : JEntry :=
  { kind := .close isVoid, count := 0, vdelta := 0, freed := false, group := tag, gseq := gseq, grew := 0, old := false }

/-- A member's change of VALID taken back (R380, R559). -/
def undone (r : Rec) (d : Int) (freed : Bool) : Rec :=
  { r with valid := takeBack r.valid d, state := if freed && decide (r.state = .free) then .full else r.state }

/-- The changes of a group taken back in the records a half keeps, UNDERFLOW set where VALID lies below a change (R113): the half, and the entries that tell it. -/
def Half.undo (x : Half) (l : List (Nat × Int × Bool)) : Half × List JEntry :=
  l.foldl (fun (a : Half × List JEntry) e =>
    let old := a.1.rec? e.1
    let new := undone old e.2.1 e.2.2
    ((a.1.setRec e.1 new).onStore (fun s => { s with underflow := s.underflow || backUnder old.valid e.2.1 }), a.2 ++ [recEntry old new e.1 0 0 false])) (x, [])

/-- A group undone: one journal record, its void close entry with it; what the twin keeps is told in the twin's journal (R380). -/
def Block.undoGroup (b : Block) (h : HalfId) (seq tag : Nat) (g : Group) : Block :=
  let mine := g.changes.filter (fun e => decide (b.keeper (recCh e.1) = some h))
  let other := g.changes.filter (fun e => decide (b.keeper (recCh e.1) = some h.twin))
  let t := (b.half h.twin).undo other
  let b1 := if other.isEmpty then b else (b.setHalf h.twin t.1).journal h.twin none t.2
  let u := (b1.half h).undo mine
  (b1.setHalf h u.1).journal h (some seq) (u.2 ++ [closeEntry tag g.gseq true])

/-- A GROUP_COMMIT whose members have all completed. -/
def Block.commitGroup (b : Block) (h : HalfId) (seq : Nat) (c : Ctx) (g : Group) : Block :=
  let tag := c.entry.group
  let good := g.commits (c.entry.byte 20) (b.pair.voidMarks.contains tag) (c.entry.flag 0)
  let b1 := if good then b.journal h (some seq) [closeEntry tag g.gseq false] else b.undoGroup h seq tag g
  (b1.onPair (fun p => { p with
    groups := p.groups.drop tag, voidMarks := p.voidMarks.filter (fun t => decide (t ≠ tag)) })).finish h seq
      (if good then .doneOk else .groupVoid) 0

/-- GROUP_COMMIT (R380): it waits until every member has completed. One re-executed with its close entry journalled has closed its group (R590). -/
def execGroupCommit (h : HalfId) (seq : Nat) (s : State) : Host.Outcome State Fault Refusal :=
  onLeft h seq .groupCommit (fun b c =>
    match (if c.redo then c.progress.close? else none), b.pair.groups.find? c.entry.group with
    | some v, _ => b.finish h seq (if v then .groupVoid else .doneOk) 0
    | none, none => b
    | none, some g => if g.members.all (fun m => g.ended.contains m) then b.commitGroup h seq c g else b) s

/-! ### FENCE (R382) -/

/-- The command's reply is written, or its write met an error: it has completed (R333). -/
def Ctx.completed (c : Ctx) : Bool := decide (c.phase = .replying) || decide (c.phase = .replyFailed)

/-- A lower-numbered command, or a DMA write of one, that a FENCE waits for: its own queue's, and with HALF every queue's. -/
def Half.fenceHeld (x : Half) (seq : Nat) (c : Ctx) : Bool :=
  let scope := fun (adopted : Bool) (q : Nat) => c.entry.flag 0 || (decide (adopted = c.adopted) && decide (q = c.queue))
  List.any x.que.ctxs (fun e => decide (e.1 < seq) && scope e.2.adopted e.2.queue && !e.2.completed) ||
    x.dma.visits.any (fun v => decide (v.seq < seq) && scope v.adopted v.queue)

/-- A read put on the master port. -/
def Half.issueRead (x : Half) (r : MRead) : Half := { x with dma := x.dma.addRead r }

/-- FENCE (R382): with FENCE_ADDR it issues one read; without, it completes. -/
def execFence (h : HalfId) (seq : Nat) (s : State) : Host.Outcome State Fault Refusal :=
  onLeft h seq .fence (fun b c =>
    if (b.half h).fenceHeld seq c then b
    else
      let a := c.entry.bytes 20 8
      if a = 0 then b.finish h seq .doneOk 0
      else (b.onHalf h (fun x => x.issueRead { slot := none, descNo := 0, pos := 0, back := false, fence := some seq, addr := a, len := 64 })).running seq) s

/-- FENCE_READ_RETURN (R382): the read of FENCE_ADDR returns, whatever its response. -/
def execFenceReadReturn (h : HalfId) (seq : Nat) (s : State) : Host.Outcome State Fault Refusal :=
  masterRun h (.fenceReadReturn h seq) (fun b =>
    let mine := fun (r : MRead) => decide (r.fence = some seq)
    if b.coreRuns h && (b.half h).dma.reads.any mine then
      (b.onHalf h (fun x => { x with dma := x.dma.endRead mine })).finish h seq .doneOk 0
    else b) s

/-! ### UPDATE_EN falls (R139) -/

/-- An operation that has put no cycle on the pins. -/
def DieOp.unissued (o : DieOp) : Bool := (decide (o.phase = .queued) || decide (o.phase = .issue)) && !(decide (o.kind = .erase) && decide (0 < o.block))

/-- Operations of command `seq` that have put no cycle on the pins taken away from a die, with the bus task of one already chosen. -/
def Chan.withdraw (k : Chan) (d seq : Nat) : Chan :=
  let mine := fun (o : DieOp) => decide (o.seq = seq) && o.unissued
  let e := k.die d
  let j := if (e.op.toList ++ e.under.toList).any mine then k.dropTasks d else k
  j.onDie d (fun e => { e with op := e.op.filter (fun o => !mine o), under := e.under.filter (fun o => !mine o), ops := e.ops.filter (fun o => !mine o) })

/-- Those operations taken away from the die of record `i`. -/
def Block.withdraw (b : Block) (seq i : Nat) : Block :=
  match b.driver (recCh i) with
  | none => b
  | some g => b.onHalf g (fun x => x.onChan (recCh i) (fun k => k.withdraw (recDie i) seq))

/-- Command `seq` has issued no die operation to the die of record `i`. -/
def Block.unissued (b : Block) (seq i : Nat) : Bool := (b.dieOf (recCh i) (recDie i)).allOps.all (fun o => decide (o.seq ≠ seq) || o.unissued)

/-- A program on a region's unit that has reserved and issued nothing: refused, its reserved pages taking pad pages (R139, R194). -/
def Block.lockOutProgram (b : Block) (seq : Nat) (c : Ctx) : Block :=
  (((b.withdraw seq c.dstIdx).onCtx seq (fun c => { (c.onPages (fun _ => true) (fun p => { p with st := .ready, pad := true, slots := padSlots })) with
    final := some .regionLocked, xfer := if c.xfer = .wanted then .none else c.xfer })).pump c.dstIdx)

/-- The unit an ERASE names, with the record it found there, where that is a region's unit. -/
def Block.erasedUnit (b : Block) (c : Ctx) : Option (Place × Rec) := (b.locateUnit c.entry.paddr).bind (fun t => c.before.map (fun r => (t, r)))

/-- An ERASE of a region's unit whose first cycle has not been issued: refused, its unit's record put back as it was found, since nothing has been erased (R139; the spec says nothing of the
record: DESIGN CHOICE, log entry 100). -/
def Block.lockOutErase (b : Block) (h : HalfId) (seq : Nat) (t : Place) (r : Rec) : Block :=
  ((b.withdraw seq t.idx).updRec t.keep (some seq) t.idx 0 0 false (fun _ => r)).refuse h seq .regionLocked

/-- The first line's place in the copies that a REGION_CLOSE reads. -/
def Block.closeDie (b : Block) (h : HalfId) (c : Ctx) : Nat := ((b.half h).regionOf (!c.adopted) (c.entry.byte 20 % 16)).copy0

/-- A command of half `h` that has issued no die operation on a region's unit stopped as UPDATE_EN falls (R139). -/
def Block.lockOut (b : Block) (h : HalfId) (seq : Nat) (c : Ctx) : Block :=
  if c.phase ≠ .running then b
  else
    match c.opcode with
    | .program | .programAt =>
      if ((b.keeper (recCh c.dstIdx)).elim false (fun k => ((b.half k).rec? c.dstIdx).rgnOwn)) &&
          c.pages.all (fun p => decide (p.st ≠ .passed) && decide (p.st ≠ .failed)) && b.unissued seq c.dstIdx then b.lockOutProgram seq c
      else b
    | .erase =>
      match b.erasedUnit c with
      | some (t, r) => if b.unissued seq t.idx then b.lockOutErase h seq t r else b
      | none => b
    | .regionClose =>
      if c.bufLen = 0 && c.cws.all (fun k => decide (k.st = .sensing) && decide (k.step = 1)) && b.unissued seq (b.closeDie h c) then
        (b.withdraw seq (b.closeDie h c)).refuse h seq .regionLocked
      else b
    | _ => b

/-- Every command of half `h` that R139 stops. -/
def Block.stopUpdates (b : Block) (h : HalfId) : Block :=
  b.each (b.half h).que.ctxs (fun a e => a.lockOut h e.1 e.2)

/-- UPDATE_EN as a half's CLK_CORE takes it, while that clock runs (R73); at its fall an update stops where it stands (R139). -/
def Block.syncUpdate (b : Block) (h : HalfId) : Block :=
  if b.coreRuns h then
    let b1 := b.onHalf h (fun x => x.onWin (fun w => { w with updateEn := b.pair.updateEn }))
    if (b.half h).win.updateEn && !b.pair.updateEn then b1.stopUpdates h else b1
  else b

/-- An edge of UPDATE_EN (R73): each half takes the level where its clock runs. -/
def Block.setUpdate (b : Block) (on : Bool) : Block := ((b.onPair (fun p => { p with updateEn := on })).syncUpdate .a).syncUpdate .b

/-- UPDATE_EN_FALL (R73, R139). -/
def execUpdateEnFall (s : State) : Host.Outcome State Fault Refusal := run (fun b => b.setUpdate false) s

/-- UPDATE_EN_RISE (R73, R139): RGN_STAT.UPDATE_EN rises, and a stopped region update may go on. -/
def execUpdateEnRise (s : State) : Host.Outcome State Fault Refusal := run (fun b => b.setUpdate true) s

end Sys2Proof.Machine
end

