-- ==== Sys2Proof/Machine/StripeCmds.lean ====
section
/-!
DEFINITION. Meanings of STRIPE_OPEN, of parity programs, of REBUILD and its swap (07).
-/

namespace Sys2Proof.Machine

open Sys2Proof

/-! ### STRIPE_OPEN (R277, R278, R389) -/

/-- The members a STRIPE_OPEN gives, in ring order. -/
def ringOf (e : Entry) : List Nat :=
  (List.range (Nat.min (e.byte 22) 8)).map (fun k => e.bytes (24 + 3 * k) 3 % 2 ^ 18)

/-- The stripe a STRIPE_OPEN asks for. -/
def stripeAsked (e : Entry) : Stripe :=
  { pq := decide (e.byte 20 % 2 = 1), ring := ringOf e, window := e.byte 21, lowRow := 0, parityRow := 0, absent := [] }

/-- Free stripe slots of the half's own, lowest first (R304). -/
def Half.freeStripe (x : Half) : Option Nat := (List.range 32).find? (fun n => (x.par.stripes.find? n).isNone)

/-- A member's C, by its own mode (R110). -/
def Block.capOf (b : Block) (i : Nat) : Nat := (b.placeOf i 0).elim 0 Place.cap

/-- The layout check of R277: 2 to 8 members, 3 with P and Q, on distinct channels of the half, none on a retired die. -/
def Block.stripeLaidOut (b : Block) (h : HalfId) (members : Nat) (s : Stripe) : Bool :=
  let n := members
  decide (2 ≤ n) && decide (n ≤ 8) && (!s.pq || decide (3 ≤ n)) &&
    decide ((s.ring.map recCh).eraseDups.length = s.ring.length) &&
    s.ring.all (fun i => decide (b.keeper (recCh i) = some h) && !b.dieRetired i)

/-- The record check of R277. -/
def Block.membersFit (b : Block) (h : HalfId) (s : Stripe) : Bool :=
  let x := b.half h
  let i := s.ring.headD 0
  s.ring.all (fun j =>
    let r := x.rec? j
    decide (r.state = .erased) && decide (r.role = .none) && !r.rgnOwn && !r.fly &&
      decide (b.capOf j = b.capOf i) && decide (r.slc = (x.rec? i).slc))

/-- The slot a STRIPE_OPEN takes, or the status that refuses it (R277, R304). -/
def Block.stripeCheck (b : Block) (h : HalfId) (members : Nat) (s : Stripe) : Except Status Nat :=
  let x := b.half h
  match x.freeStripe with
  | none => .error .stripeLimit
  | some n =>
    if x.par.limit < x.par.used + s.cells then .error .stripeLimit
    else if !s.ring.all b.unitExists then .error .addressRange
    else if !b.stripeLaidOut h members s then .error .stripeLayout
    else if s.ring.any (b.lostRec h) then .error .dataPoison
    else if !b.membersFit h s then .error .unitState
    else .ok n

/-- The role of the member at position `k` of a stripe. -/
def roleAt (s : Stripe) (k : Nat) : Role :=
  if k < s.dataCount then .data else if k = s.dataCount then .p else .q

/-- The members of a new stripe linked in a ring (R275, R278). -/
def Half.linked' (x : Half) (s : Stripe) : List (Nat × Rec) :=
  (List.range s.ring.length).map (fun k =>
    let i := s.ring.getD k 0
    (i, { x.rec? i with role := roleAt s k, next := BitVec.ofNat 18 (s.ring.getD ((k + 1) % s.ring.length) 0) }))

/-- STRIPE_OPEN (R277); one re-executed with its change made replies from its image (R303, R590). -/
def execStripeOpen (h : HalfId) (seq : Nat) (s : State) : Host.Outcome State Fault Refusal :=
  onLeft h seq .stripeOpen (fun b c =>
    let t := stripeAsked c.entry
    match (if c.redo then c.progress.stripe? else none) with
    | some n => b.finish h seq .doneOk (atByte 49 n 5)
    | none =>
    match b.stripeCheck h (c.entry.byte 22) t with
    | .error st => b.refuse h seq st
    | .ok n =>
      let b1 := b.updRecs h (some seq) ((b.half h).linked' t) [plainEntry (.stripe n (some t))]
      ((b1.onHalf h (fun x => x.onPar (fun p => { p with stripes := p.stripes.put n t, used := p.used + t.cells }))).notePool
        h).finish h seq .doneOk (atByte 49 n 5)) s

/-! ### Parity programs (R281) -/

/-- The lowest row of a stripe whose parity programs have not been issued; `n` bounds the search by the rows held. -/
def Half.nextRow (x : Half) (slot row n : Nat) : Nat :=
  match n with
  | 0 => row
  | m + 1 => if (x.par.rows.find? (rowKey slot row)).any Row.issued then Half.nextRow x slot (row + 1) m else row

/-- The parity members that take a row's parity: present, with that unit page not yet reserved (R281). -/
def Half.parityTakers (x : Half) (s : Stripe) (row : Nat) : List Nat :=
  s.parityHere.filter (fun k => decide ((x.rec? (s.ring.getD k 0)).wp.toNat = row))

/-- The parity programs of a row issued: each member's page reserved and its program handed to the die's scheduler; where none takes parity the row is done
(R281, R285). -/
def Block.issueRow (b : Block) (h : HalfId) (slot row : Nat) (s : Stripe) : Block :=
  let x := b.half h
  let cap := x.stripeCap s
  let takers := x.parityTakers s row
  let r := x.row slot row s
  let b1 := b.onHalf h (fun y => y.onRow slot row s (fun q => { q with
    issued := true, done := s.parityHere.filter (fun k => !takers.contains k) }))
  let b2 := b1.each takers (fun a k =>
    let i := s.ring.getD k 0
    (a.updRec h none i 0 0 false (fun q => q.reserve cap 1 false false)).pushOps i
      [{ mkOp .parity r.seq r.cls i [row] (x.slcOf i) 0 with block := slot }])
  b2.onHalf h (fun y => y.advanceParity slot ((y.rowsHeld slot) + 1))

/-- PARITY_PROGRAM (R281): every present data member's program of the row has ended, and every lower row's parity is issued. -/
def execParityProgram (h : HalfId) (slot : Nat) (s : State) : Host.Outcome State Fault Refusal :=
  run (fun b =>
    let x := b.half h
    match x.par.stripes.find? slot with
    | none => b
    | some t =>
      let row := x.nextRow slot t.parityRow (x.rowsHeld slot)
      if b.coreRuns h && !b.pair.latched && decide (row < x.stripeCap t) && t.rowEnded (x.row slot row t) then b.issueRow h slot row t
      else b) s

/-! ### REBUILD (R295-R300) -/

/-- The lowest free REBUILD entry of a half (R304). -/
def Half.freeRebuild (x : Half) : Option Nat := (List.range 4).find? (fun n => (x.par.rebuilds.find? n).isNone)

/-- Check 2 of R295 fails. -/
def Block.rebuildLayout (b : Block) (h : HalfId) (src dst : Nat) : Bool :=
  let x := b.half h
  let ring := x.ring src
  decide ((x.rec? src).role = .none) || !b.memberAbsent h src || x.forwarded src ||
    List.any x.par.rebuilds (fun e => ring.contains e.2.src) ||
    decide (b.keeper (recCh dst) ≠ some h) ||
    ring.any (fun j => decide (j ≠ src) && decide (recCh j = recCh dst)) || b.dieRetired dst

/-- Check 3 of R295 fails; `own` tells that the target is a re-executed REBUILD's own, whose erased check is skipped (R300). -/
def Block.rebuildTarget (b : Block) (h : HalfId) (src dst : Nat) (own : Bool) : Bool :=
  let x := b.half h
  let r := x.rec? dst
  (!own && decide (r.state ≠ .erased)) || decide (r.role ≠ .none) || r.rgnOwn || r.fly || decide (b.capOf dst ≠ b.capOf src) ||
    decide (r.slc ≠ (x.rec? src).slc)

/-- The status that refuses a REBUILD, if any (R295). -/
def Block.rebuildFault (b : Block) (h : HalfId) (src dst : Nat) (own : Bool) : Option Status :=
  if ((b.half h).freeRebuild).isNone || ((b.half h).inRole b.variant .background).isEmpty then some .stripeLimit
  else if b.lostRec h src || b.lostRec h dst then some .dataPoison
  else if b.rebuildLayout h src dst then some .stripeLayout
  else if b.rebuildTarget h src dst own then some .unitState
  else none

/-- A REBUILD set up to start from row 0, once a background engine is on it (R297). SLOT reads 0 where the source's stripe is complete and its slot released: R304 names no
value for it (DESIGN CHOICE, log entry 94). -/
def Block.rebuildStart (b : Block) (h : HalfId) (seq src dst : Nat) : Block :=
  let x := b.half h
  let r : Rebuild := { slot := (x.openStripe src).elim 0 Prod.fst, src := src, dst := dst, row := 0, unc := 0, seq := seq }
  let b1 := b.onHalf h (fun y => y.onPar (fun p => { p with rebuilds := p.rebuilds.put ((y.freeRebuild).getD 0) r }))
  (b1.onCtx seq (fun c => { c with phase := .running, dstIdx := dst, pages := [], cws := [] }))

/-- A re-executed REBUILD erases its own target before it starts (R300). -/
def Block.rebuildAgain (b : Block) (h : HalfId) (seq : Nat) (c : Ctx) (src dst : Nat) : Block :=
  let slc := ((b.half h).rec? dst).slc
  (((b.rebuildStart h seq src dst).updRec h (some seq) dst 0 0 false (fun r => r.erasing slc))).pushOps dst [mkOp .erase seq c.cls dst [] slc 0]

/-- The swap that a re-executed REBUILD's progress shows made: its status is the one an uninterrupted run gives (R300; DEDUCED, log entry 107). -/
def Ctx.swapped (c : Ctx) (dst : Nat) : Bool := c.redo && (c.progress.recImage? dst).any (fun r => decide (r.role ≠ .none))

/-- REBUILD (R295, R297, R300). -/
def execRebuild (h : HalfId) (seq : Nat) (s : State) : Host.Outcome State Fault Refusal :=
  onLeft h seq .rebuild (fun b c =>
    let src := c.entry.bytes 20 3 % 2 ^ 18
    let dst := c.entry.bytes 24 3 % 2 ^ 18
    let own := c.redo && (c.progress.recImage? dst).isSome
    if c.swapped dst then b.finish h seq .doneOk (rebuildResult dst 0 0) else
    match b.rebuildFault h src dst own with
    | some st => b.refuse h seq st
    | none => (if own then b.rebuildAgain h seq c src dst else b.rebuildStart h seq src dst).placeJobs h) s

/-- A row of the open stripe of member `i` has parity programs issued and not yet all ended. -/
def Half.rowUnderWay (x : Half) (i : Nat) : Bool :=
  (x.openStripe i).any (fun e => List.any x.par.rows (fun r => decide (r.1 / 65536 = e.1) && r.2.issued))

/-- Every row of a REBUILD is written and every one could be rebuilt; a parity source's swap also waits for the rows whose other parity program is under way, which lie below the
parity row when it ends and are then rebuilt too, so that the target takes the rows after them (R281, R297): what its swap waits for (R298). -/
def Block.rebuilt (b : Block) (h : HalfId) (r : Rebuild) : Bool :=
  match (b.half h).ctx? r.seq with
  | none => false
  | some c => decide (c.phase = .running) && c.cws.isEmpty && c.pages.isEmpty && decide (r.unc = 0) &&
      decide ((if ((b.half h).rec? r.src).role = .data then b.capOf r.dst else (b.half h).rebuildRows r (b.capOf r.dst)) ≤ r.row) &&
      (decide (((b.half h).rec? r.src).role = .data) || !(b.half h).rowUnderWay r.src)

/-- The open stripe of a source with the target in its place: present again, its pad pages folded and ended (R297, R298). -/
def Half.swapStripe (x : Half) (src dst : Nat) : Half :=
  match x.openStripe src with
  | none => x
  | some (slot, s) =>
    let pos := posOf s.ring src
    x.onPar (fun p => { p with
      stripes := p.stripes.put slot { s with ring := s.ring.set pos dst, absent := s.absent.filter (fun k => decide (k ≠ pos)) }
      rows := p.rows.map (fun e => if e.1 / 65536 = slot && pos < s.dataCount then (e.1, { e.2 with ended := e.2.ended ++ [pos] }) else e) })

/-- The swap of R298, in one journal record: the target takes the source's role, ring position, WP and VALID, the source's predecessor points to the
target, and the source is forwarded to it. A parity target keeps its own WP, the next row it has not taken (R281, R297). -/
def Block.swap (b : Block) (h : HalfId) (n : Nat) (r : Rebuild) : Block :=
  let x := b.half h
  let ring := x.ring r.src
  let pred := ring.getD ((posOf ring r.src + ring.length - 1) % ring.length) r.src
  let old := x.rec? r.src
  let news : List (Nat × Rec) :=
    [(r.dst, { x.rec? r.dst with role := old.role, next := old.next, wp := if old.role = .data then old.wp else (x.rec? r.dst).wp, valid := old.valid }),
     (pred, { x.rec? pred with next := BitVec.ofNat 18 r.dst }),
     (r.src, { old with next := BitVec.ofNat 18 r.dst })]
  let slot := (x.openStripe r.src).map Prod.fst
  let y := x.swapStripe r.src r.dst
  let more := slot.toList.map (fun k => plainEntry (.stripe k (y.par.stripes.find? k)))
  let b1 := (b.setHalf h y).updRecs h (some r.seq) news more
  (b1.onHalf h (fun z => (z.onPar (fun p => { p with rebuilds := p.rebuilds.drop n })).lowRows)).finish h r.seq .doneOk
    (rebuildResult r.dst 0 0)

/-- REBUILD_SWAP (R298). -/
def execRebuildSwap (h : HalfId) (n : Nat) (s : State) : Host.Outcome State Fault Refusal :=
  run (fun b =>
    match (b.half h).par.rebuilds.find? n with
    | none => b
    | some r => if b.coreRuns h && b.journalOpen h && b.rebuilt h r then b.swap h n r else b) s

end Sys2Proof.Machine
end

