-- ==== Sys2Proof/Machine/Dma.lean ====
section
/-!
DEFINITION. The DMA engine: streams, descriptors, bursts, responses, signals, bad marks, completion and DROP (11).
-/

namespace Sys2Proof.Machine

open Sys2Proof

/-! ### What a command's stream moves (R360, R361, R434) -/

/-- The command's stream writes to memory. -/
def Ctx.writesOut (c : Ctx) : Bool :=
  match c.opcode with
  | .read => !c.entry.flag 0
  | .readRaw | .victim | .identify | .logGet => true
  | _ => false

/-- The command compares host data (R363). -/
def Ctx.compares (c : Ctx) : Bool := decide (c.opcode = .read) && c.entry.flag 0

/-- The command moves the contents of its BUF (R434). -/
def Ctx.usesBuf (c : Ctx) : Bool :=
  decide (c.opcode = .victim) || decide (c.opcode = .identify) || decide (c.opcode = .logGet) || decide (c.opcode = .profileLoad)

/-- BUF of an admin command or a VICTIM. -/
def Ctx.bufAddr (c : Ctx) : Nat := if c.opcode = .logGet then c.entry.bytes 32 8 else c.entry.bytes 24 8

/-- Bytes of one raw codeword of a command's unit (R149, R269). -/
def Block.rawBytes (b : Block) (c : Ctx) : Nat := (b.locate c.entry.paddr).elim 4608 (fun t => t.prof.cwBytes)

/-- User bytes, or BUF bytes, of a command (R360, R364, R367). -/
def Block.userBytes (b : Block) (c : Ctx) : Nat :=
  match c.opcode with
  | .read => 4096 * c.entry.bytes 44 2
  | .readRaw => b.rawBytes c
  | .program | .programAt | .offer => 16384 * c.entry.byte 44
  | _ => c.bufLen

/-- Metadata bytes of a command (R361): none under CMP, which compares user bytes. -/
def Ctx.metaBytes (c : Ctx) : Nat :=
  if c.usesBuf || c.compares || c.entry.metaAddr = 0 then 0
  else
    match c.opcode with
    | .read => 32 * c.entry.bytes 44 2
    | .program | .programAt | .offer => 128 * c.entry.byte 44
    | _ => 0

/-- Codewords at the head of a read that are ready to leave (R437). -/
def Ctx.readyCws (c : Ctx) : Nat := (c.cws.takeWhile (fun k => decide (k.st = .done))).length

/-- Every codeword is ready. -/
def Ctx.cwsDone (c : Ctx) : Bool := c.cws.all (fun k => decide (k.st = .done))

/-- Stream bytes of a command, from the first, that are at hand to be written or compared; `user` is its count of user bytes. -/
def Ctx.readyBytes (c : Ctx) (user : Nat) : Nat :=
  match c.opcode with
  | .read => if c.cwsDone then user + c.metaBytes else 4096 * c.readyCws
  | .readRaw => if c.cwsDone then user else 0
  | _ => user

/-- `n` bytes of a destination stream from byte `pos`, `user` being its count of user bytes. -/
def Ctx.streamBytes (c : Ctx) (user pos n : Nat) : Nat :=
  match c.opcode with
  | .read =>
    let all := if pos < user then (c.cws.drop (pos / 4096)).map (fun k => (k.data.user.toNat, 4096))
      else (c.cws.drop ((pos - user) / 32)).map (fun k => (k.data.mdat.toNat, 32))
    let skip := if pos < user then pos % 4096 else (pos - user) % 32
    packed (all.take (n / 32 + 2)) / 2 ^ (8 * skip) % 2 ^ (8 * n)
  | .readRaw => (c.cws.head?.elim 0 (fun k => k.raw.toNat)) / 2 ^ (8 * pos) % 2 ^ (8 * n)
  | _ => c.buf / 2 ^ (8 * pos) % 2 ^ (8 * n)

/-- The codeword that stream byte `pos` belongs to. -/
def Ctx.cwAt (c : Ctx) (user pos : Nat) : Option Cw :=
  match c.opcode with
  | .read => c.cws[if pos < user then pos / 4096 else (pos - user) / 32]?
  | .readRaw => c.cws.head?
  | _ => none

/-! ### Streams and visits -/

/-- Stream slot `n`. -/
def Half.stream (x : Half) (n : Nat) : Stream := Tab.get Stream.reset x.dma.streams n

/-- The half with its DMA changed. -/
def Half.onDma (x : Half) (f : Dma → Dma) : Half := { x with dma := f x.dma }

/-- The half with a stream slot changed. -/
def Half.onStream (x : Half) (n : Nat) (f : Stream → Stream) : Half :=
  x.onDma (fun d => { d with streams := Tab.modify Stream.reset d.streams n f })

/-- A visit of the stream that holds a slot, or held it at generation `gen`. -/
def Visit.isOf (v : Visit) (slot : Nat) (gen : BitVec 8) : Bool := decide (v.slot = slot) && decide (v.gen = gen)

/-- A visit opened for the descriptor in walk (R445, R451); data fetched a second time raises no signals (R42). -/
def Half.openVisit (x : Half) (n : Nat) (c : Ctx) (d : Descr) (addr : Option Nat) : Half :=
  let t := x.stream n
  let v : Visit :=
    { slot := n, gen := t.gen, descNo := t.descNo, seq := t.seq, adopted := c.adopted, queue := c.queue, index := c.index,
      cmdId := c.entry.cmdId, addr := addr, len := d.len.toNat, half := d.irqHalf && !t.again, full := d.irqFull && !t.again, wait := t.respWait,
      start := t.moved, issued := 0, done := 0, closed := false, failAt := none, rdErr := false, wrErr := false, poison := false }
  x.onDma (fun e => { e with visits := e.visits ++ [v] })

/-- The implied MOVE descriptor of a BUF or of the metadata (R434). -/
def impliedDescr (addr len : Nat) : Descr :=
  { addr := BitVec.ofNat 64 addr, len := BitVec.ofNat 32 len, op := 0, irqHalf := false, irqFull := false, next := 0, pattern := 0, reserved := false }

/-- An implied descriptor taken into walk. -/
def Half.takeImplied (x : Half) (n : Nat) (c : Ctx) (addr len : Nat) : Half :=
  let d := impliedDescr addr len
  (x.onStream n (fun t => { t with desc := some d, descAt := 0, off := 0, nextAddr := 0 })).openVisit n c d none

/-! ### Starting (R434-R438, R550) -/

/-- A waiting command's stream may start in configuration `v` (R437). -/
def Ctx.mayStart (v : Variant) (c : Ctx) : Bool :=
  decide (c.xfer = .wanted) && decide (c.phase = .running) &&
    (c.usesBuf || !(c.writesOut || c.compares) ||
      match v with
      | .brx16T => c.cws.any (fun k => decide (k.st = .done))
      | .brx4T => c.cwsDone)

/-- The lowest free stream slot (R435, R436). -/
def Half.freeStream (v : Variant) (x : Half) : Option Nat := (List.range (Config.streams v)).find? (fun n => !(x.stream n).active)

/-- A stream that takes slot `n` for command `seq` (R436, R456). -/
def Block.beginStream (b : Block) (h : HalfId) (n seq : Nat) (c : Ctx) : Block :=
  b.onHalf h (fun x =>
    let old := x.stream n
    let t : Stream := { Stream.reset with
      active := true, dir := c.writesOut, adopted := c.adopted, gen := old.gen + 1, queue := c.queue, index := c.index, seq := seq
      respWait := x.dma.respWait || x.dma.readback, readback := x.dma.readback
      nextAddr := if c.usesBuf then 0 else BitVec.ofNat 64 c.entry.desc, total := b.userBytes c, metaLen := c.metaBytes, again := c.again }
    let y := (x.onStream n (fun _ => t)).onCtx seq (fun c => { c with xfer := .active n, again := false })
    if c.usesBuf then y.takeImplied n c c.bufAddr (b.userBytes c) else y)

/-- DMA_STREAM_START (R436, R437): nothing starts once a brown-out is latched (R550). -/
def execDmaStreamStart (h : HalfId) (s : State) : Host.Outcome State Fault Refusal :=
  run (fun b =>
    let x := b.half h
    match List.find? (fun e => e.2.mayStart b.variant) x.que.ctxs, x.freeStream b.variant with
    | some e, some n => if b.coreRuns h && !b.pair.latched then b.beginStream h n e.1 e.2 else b
    | _, _ => b) s

/-! ### Marks, signals and notices (R445, R451, R455) -/

/-- A bad mark written (R445): the implied descriptor of a BUF or of metadata has none. -/
def Half.writeMark (x : Half) (addr : Option Nat) (code : Nat) : Half :=
  match addr with
  | none => x
  | some a => x.onDma (fun d => { d with mark := some (a, code), badCnt := satAdd 65535 d.badCnt 1 })

/-- A DMA notice to the queue's gutter, where it names one (R451). -/
def Block.dmaNotice (b : Block) (h : HalfId) (v : Visit) (kind status : Nat) : Block :=
  let x := b.half h
  let home := if v.adopted then h.twin else h
  let g := match x.que.queue? v.adopted v.queue with
    | none => none
    | some u => if v.adopted then some x.twn.adoptGut else u.gutter
  match g with
  | none => b
  | some k => b.onHalf h (fun x => x.notice b.variant k (kind + 256 * status + 2 ^ 16 * (v.queue % 512) + 2 ^ 25 * home.code)
      (v.index % 65536 + 65536 * Nat.min v.descNo 65535) v.cmdId 0)

/-- A half or full signal: its source and its notice (R451). -/
def Block.signal (b : Block) (h : HalfId) (v : Visit) (full : Bool) : Block :=
  (b.raise h (if full then 89 else 88)).dmaNotice h v (if full then 3 else 2) 0

/-- The mark a visit that has ended takes: 0x01 or 0x02 for an error response, else 0x03 (R445). -/
def Visit.markCode (v : Visit) : Option Nat :=
  if v.rdErr then some 1 else if v.wrErr then some 2 else if v.poison then some 3 else none

/-- Half of a descriptor's bytes, rounded up. -/
def Visit.halfAt (v : Visit) : Nat := (v.len + 1) / 2

/-- A visit's half signal falls due: the first half done, without a fault in it. -/
def Visit.halfDue (v : Visit) : Bool := v.half && decide (v.halfAt ≤ v.done) && v.failAt.all (fun k => decide (v.halfAt ≤ k))

/-- Every transfer of a visit has completed. -/
def Visit.finished (v : Visit) : Bool := v.closed && decide (v.done = v.issued)

/-- A visit's full signal falls due. -/
def Visit.fullDue (v : Visit) : Bool := v.full && decide (v.done = v.len) && v.failAt.isNone

/-- Unit pages of a program that a visit served any byte of, marked affected where the visit is marked 0x01 or 0x03 (R447). -/
def Ctx.taint (c : Ctx) (v : Visit) (user : Nat) : Ctx :=
  let hits := fun (k : Nat) =>
    (decide (v.start < 16384 * (k + 1)) && decide (16384 * k < v.start + v.issued)) ||
      (decide (v.start < user + 128 * (k + 1)) && decide (user + 128 * k < v.start + v.issued))
  { c with pages := (List.range c.pages.length).filterMap (fun k =>
      (c.pages[k]?).map (fun p => if hits k && decide (p.st = .waiting) then { p with affected := true } else p)) }

/-- A visit looked at after a transfer of it: its half signal, and at its end the full signal, the mark, and the pages it spoils. -/
def Block.settleVisit (b : Block) (h : HalfId) (slot : Nat) (gen : BitVec 8) (descNo : Nat) : Block :=
  match (b.half h).dma.visits.find? (fun v => v.isOf slot gen && decide (v.descNo = descNo)) with
  | none => b
  | some v =>
    let b1 := if v.halfDue then
        (b.onHalf h (fun x => x.onDma (fun d => { d with visits := d.visits.map (fun w => if w = v then { w with half := false } else w) }))).signal h
          v false
      else b
    if v.finished then
      let b2 := b1.onHalf h (fun x => x.onDma (fun d => { d with
        visits := d.visits.filter (fun w => !(w.isOf slot gen && decide (w.descNo = descNo))) }))
      let b3 := if v.fullDue then b2.signal h v true else b2
      match v.markCode with
      | none => b3
      | some code =>
        let b4 := b3.onHalf h (fun x => x.writeMark v.addr code)
        if code = 2 then b4 else b4.onHalf h (fun x => x.onCtx v.seq (fun c => c.taint v (b.userBytes c)))
    else b1

/-! ### Data for a program's pages (R192, R361, R447) -/

/-- The payloads of a program's unit page `k` from its staged bytes; metadata of 0xFF without META. -/
def Ctx.pageData (c : Ctx) (user k : Nat) : List Payload :=
  (List.range 4).map (fun s =>
    { user := BitVec.ofNat 32768 (c.buf / 2 ^ (8 * (16384 * k + 4096 * s)))
      mdat := if c.entry.metaAddr = 0 then BitVec.allOnes 256 else BitVec.ofNat 256 (c.buf / 2 ^ (8 * (user + 128 * k + 32 * s))) })

/-- A program's pages given their data up to stream byte `front`; an affected page, and at the stream's end one that got none, takes the pad pattern
(R194, R447). -/
def Ctx.fillPages (c : Ctx) (user front : Nat) (ended : Bool) : Ctx :=
  let usable := decide (c.metaBytes = 0) || ended
  { c with pages := (List.range c.pages.length).filterMap (fun k => (c.pages[k]?).map (fun p =>
      if p.st ≠ .waiting then p
      else if usable && decide (16384 * (k + 1) ≤ front) && decide (c.metaBytes = 0 ∨ user + c.metaBytes ≤ front) then
        if p.affected then { p with st := .ready, pad := true, slots := padSlots }
        else { p with st := .ready, slots := c.pageData user k }
      else if ended then { p with st := .ready, pad := true, slots := padSlots }
      else p)) }

/-- A source stream's progress brought to its command's pages. -/
def Block.feedPages (b : Block) (h : HalfId) (n : Nat) : Block :=
  let x := b.half h
  let t := x.stream n
  match x.ctx? t.seq with
  | none => b
  | some c =>
    if c.pages.isEmpty then b
    else
      let vs := x.dma.visits.filter (fun v => v.isOf n t.gen)
      let front := (vs.map Visit.start).foldl Nat.min t.moved
      (b.onHalf h (fun x => x.onCtx t.seq (fun c => c.fillPages (b.userBytes c) front (t.ended && vs.isEmpty)))).pump c.dstIdx

/-! ### Walking the chain (R360, R439-R445) -/

/-- The chain ends before the command's count, or at a descriptor found invalid (R360, R441). -/
def Block.shortChain (b : Block) (h : HalfId) (n : Nat) : Block :=
  let t := (b.half h).stream n
  (b.onHalf h (fun x => (x.onStream n (fun t => { t with ended := true, desc := none })).onCtx t.seq (fun c =>
    { c with flags := { c.flags with xferError := true } }))).feedPages h n

/-- The descriptor in walk is moved: its visit closes; the stream ends, goes on to the metadata, or fetches the next one. -/
def Block.descDone (b : Block) (h : HalfId) (n : Nat) : Block :=
  let x := b.half h
  let t := x.stream n
  let b1 := b.onHalf h (fun x =>
    (x.onDma (fun d => { d with visits := d.visits.map (fun v =>
      if v.isOf n t.gen && decide (v.descNo = t.descNo) then { v with closed := true } else v) })).onStream n (fun t =>
        { t with desc := none, descNo := t.descNo + 1 }))
  let b2 := b1.settleVisit h n t.gen t.descNo
  match x.ctx? t.seq with
  | none => b2.onHalf h (fun x => x.onStream n (fun t => { t with ended := true }))
  | some c =>
    if t.moved < (if t.inMeta then t.total + t.metaLen else t.total) then
      if t.nextAddr = 0 then b2.shortChain h n else b2
    else if t.inMeta || t.metaLen = 0 then (b2.onHalf h (fun x => x.onStream n (fun t => { t with ended := true }))).feedPages h n
    else b2.onHalf h (fun x => (x.onStream n (fun t => { t with inMeta := true })).takeImplied n c c.entry.metaAddr t.metaLen)

end Sys2Proof.Machine

namespace Sys2Proof

/-- A descriptor R441 calls invalid; `skips` tells that the stream may skip: a destination, or under CMP. -/
def Descr.invalid (d : Descr) (skips : Bool) : Bool :=
  decide (d.op = 3) || (decide (d.op = 2) && !skips) || decide (d.len = 0) || decide (16777216 < d.len.toNat) || d.reserved ||
    decide (d.next.toNat % 32 ≠ 0)

/-- `n` bytes of a FILL pattern for address `a` (R439). -/
def Descr.fill (d : Descr) (a n : Nat) : Nat :=
  (List.range n).foldl (fun acc k => acc + (d.pattern.toNat / 2 ^ (8 * ((a + k) % 4)) % 256) * 2 ^ (8 * k)) 0

end Sys2Proof

namespace Sys2Proof.Machine

open Sys2Proof

/-- Bytes staged for a source stream. -/
def Ctx.stage (c : Ctx) (pos n data : Nat) : Ctx := { c with buf := c.buf + (data % 2 ^ (8 * n)) * 2 ^ (8 * pos) }

/-- Unit pages of a program that the next `n` bytes of its source reach and that have taken no cells yet. -/
def Ctx.newPages (c : Ctx) (t : Stream) (n : Nat) : List Nat :=
  ((c.pages.zipIdx).filter (fun e => decide (e.1.st = .waiting) && !e.1.held && !t.inMeta &&
    decide (16384 * e.2 < t.moved + n) && decide (t.moved < 16384 * (e.2 + 1)))).map (fun e => e.1.page)

/-- The stream's next `n` bytes have cells to go to: those of its command's pages, or free ones of the channel's share (R29, R429, R438). -/
def Block.sourceRoom (b : Block) (c : Ctx) (t : Stream) (n : Nat) : Bool :=
  let l := c.newPages t n
  l.isEmpty || b.roomFor (recCh c.dstIdx) 0 (33 * l.length)

/-- Those cells taken. -/
def Ctx.takeCells (c : Ctx) (t : Stream) (n : Nat) : Ctx :=
  let l := c.newPages t n
  c.onPages (fun p => l.contains p.page) (fun p => { p with held := true })

/-- A descriptor that moves nothing on the port: SKIP, or a FILL of a source or compare stream; its bytes count at once (R440). -/
def Block.passDescr (b : Block) (h : HalfId) (n : Nat) (d : Descr) : Block :=
  let t := (b.half h).stream n
  let k := Nat.min d.len.toNat (t.total - t.moved)
  let b1 := b.onHalf h (fun x =>
    let y := x.onStream n (fun t => { t with moved := t.moved + k, count := t.count + BitVec.ofNat 32 k })
    let z := y.onDma (fun e => { e with visits := e.visits.map (fun v =>
      if v.isOf n t.gen && decide (v.descNo = t.descNo) then { v with issued := k, done := k } else v) })
    z.onCtx t.seq (fun c => if c.writesOut || c.compares then c else (c.takeCells t k).stage t.moved k (d.fill d.addr.toNat k)))
  ((b1.descDone h n).feedPages h n).notePool h

/-- A descriptor that moves nothing on the port: SKIP, or a FILL of a source or compare stream (R440). -/
def Ctx.passes (c : Ctx) (d : Descr) : Bool := decide (d.op = 2) || (decide (d.op = 1) && !c.writesOut)

/-- A descriptor fetched (R441, R442); a FILL that finds no cells for its pages waits for them (R438). -/
def Block.walk (b : Block) (h : HalfId) (n : Nat) (c : Ctx) (d : Descr) : Block :=
  let t := (b.half h).stream n
  let b1 := b.onHalf h (fun x =>
    (x.onStream n (fun t => { t with desc := some d, descAt := t.nextAddr.toNat, off := 0, nextAddr := d.next })).openVisit n c d
      (some t.nextAddr.toNat))
  if c.passes d && b.sourceRoom c t (Nat.min d.len.toNat (t.total - t.moved)) then b1.passDescr h n d else b1

/-- DESCRIPTOR_FETCH (R441, R442): no descriptor for an error response; `poison` for a POISON beat. -/
def execDescriptorFetch (h : HalfId) (slot : Nat) (desc : Option Descr) (poison : Bool) (s : State) : Host.Outcome State Fault Refusal :=
  masterRun h (.descriptorFetch h slot desc poison) (fun b =>
    let x := b.half h
    let t := x.stream slot
    match x.ctx? t.seq with
    | none => b
    | some c =>
      if b.coreRuns h && x.canRead && t.active && t.desc.isNone && !t.ended && !t.inMeta then
        match desc with
        | none => b.shortChain h slot
        | some d =>
          if poison || d.invalid (c.writesOut || c.compares) then
            (b.onHalf h (fun x => x.writeMark (some t.nextAddr.toNat) 4)).shortChain h slot
          else b.walk h slot c d
      else b) s

/-! ### Bursts (R443, R444, R449, R450) -/

/-- A bucket that a burst of `beats` finds: what is left, or none where it is short (R449). -/
def takeTokens (share tokens beats : Nat) : Option Nat := if share = 64 then some tokens else if beats ≤ tokens then some (tokens - beats) else none

/-- The bytes of the next burst of a stream: where it starts, and how many (R443). -/
def Ctx.burst (c : Ctx) (t : Stream) (d : Descr) : Nat × Nat :=
  let a := (d.addr.toNat + t.off) % 2 ^ 64
  let goal := if t.inMeta then t.total + t.metaLen else t.total
  let left := Nat.min (d.len.toNat - t.off) (goal - t.moved)
  let ready := if c.writesOut || c.compares then Nat.min left (c.readyBytes t.total - t.moved) else left
  (a, Nat.min ready (4096 - a % 4096))

/-- One of the stream bytes from `lo` up to `hi` lies in a poisoned word: of a codeword that leaves poisoned, or in the DMA buffer (R50, R259, R448). -/
def Ctx.poisonIn (c : Ctx) (t : Stream) (lo hi : Nat) : Bool :=
  t.lost.any (fun p => decide (p < hi) && decide (lo < p + 8)) ||
    (List.range ((hi - lo + 31) / 32)).any (fun j => (c.cwAt t.total (Nat.min (lo + 32 * j) (hi - 1))).any Cw.poison) ||
    (decide (lo < hi) && (c.cwAt t.total (hi - 1)).any Cw.poison)

/-- POISON of each beat of a burst of `k` stream bytes to address `a`: set exactly on the beats that hold a poisoned word (R50). -/
def Ctx.poisonBeats (c : Ctx) (t : Stream) (a k : Nat) : BitVec 64 :=
  BitVec.ofNat 64 (((List.range ((a % 64 + k + 63) / 64)).map (fun i =>
    at' (bitOf (c.poisonIn t (t.moved + (64 * i - a % 64)) (t.moved + Nat.min k (64 * (i + 1) - a % 64)))) i 1)).sum)

/-- A burst put on the port: bytes written with their enables, or whole beats read (R443). -/
def Half.putBurst (x : Half) (n : Nat) (c : Ctx) (t : Stream) (d : Descr) (a k : Nat) : Half :=
  let y :=
    if c.writesOut then
      (x.issue { kind := .stream n t.gen t.descNo, addr := a, len := k
                 data := if d.op = 1 then d.fill a k else c.streamBytes t.total t.moved k
                 poison := if d.op = 0 then c.poisonBeats t a k else 0, ordered := false }).onStream n (fun t =>
        { t with outWr := t.outWr + 1, lastAddr := some ((a + k - 1) / 64 * 64), count := t.count + BitVec.ofNat 32 k })
    else
      ((x.issueRead { slot := some n, descNo := t.descNo, pos := t.moved, back := false, fence := none, addr := a, len := k }).onStream n (fun t =>
        { t with outRd := t.outRd + 1 })).onCtx t.seq (fun c => c.takeCells t k)
  (y.onDma (fun e => { e with visits := e.visits.map (fun v =>
    if v.isOf n t.gen && decide (v.descNo = t.descNo) then { v with issued := v.issued + k } else v) })).onStream n (fun t =>
      { t with moved := t.moved + k, off := t.off + k })

/-- The pool port a stream's direction asks for (R416, R435). -/
def dmaPort (v : Variant) (out : Bool) : Nat := match v with | .brx16T => if out then 17 else 16 | .brx4T => 16

/-- A burst issued, or its direction's bucket filled by one period of 64 cycles (R449). -/
def Block.burstOne (b : Block) (h : HalfId) (n : Nat) (c : Ctx) (t : Stream) (d : Descr) : Block :=
  let x := b.half h
  let ak := c.burst t d
  if ak.2 = 0 then b
  else
    let beats := (ak.1 % 64 + ak.2 + 63) / 64
    let out := c.writesOut
    let share := if out then x.dma.shareWr else x.dma.shareRd
    let tok := if out then x.dma.tokWr else x.dma.tokRd
    let setTok := fun (y : Half) (k : Nat) => y.onDma (fun e => if out then { e with tokWr := k } else { e with tokRd := k })
    if c.passes d then if b.sourceRoom c t (Nat.min d.len.toNat (t.total - t.moved)) then b.passDescr h n d else b
    else if !b.sourceRoom c t ak.2 then b
    else match takeTokens share tok beats with
    | none => b.onHalf h (fun y => setTok y (Nat.min 64 (tok + share)))
    | some left =>
      let b1 := b.onHalf h (fun y => ((setTok y left).putBurst n c t d ak.1 ak.2).askPool (dmaPort b.variant out))
      let t1 := (b1.half h).stream n
      let goal := if t1.inMeta then t1.total + t1.metaLen else t1.total
      if t1.off = d.len.toNat || t1.moved = goal then b1.descDone h n else b1

/-- DMA_BURST (R48, R443, R449). -/
def execDmaBurst (h : HalfId) (slot : Nat) (s : State) : Host.Outcome State Fault Refusal :=
  run (fun b =>
    let x := b.half h
    let t := x.stream slot
    match x.ctx? t.seq, t.desc with
    | some c, some d =>
      if b.coreRuns h && t.active && !t.ended && x.canWrite && x.canRead then b.burstOne h slot c t d else b
    | _, _ => b) s

/-! ### Returns and responses (R445-R447, R455) -/

/-- A visit that a transfer of `k` bytes has answered. -/
def Visit.answered (v : Visit) (k : Nat) (rd wr poison : Bool) : Visit :=
  { v with done := v.done + k, rdErr := v.rdErr || rd, wrErr := v.wrErr || wr, poison := v.poison || poison
           failAt := if rd || wr || poison then some (v.failAt.getD v.done) else v.failAt }

/-- A visit changed. -/
def Half.onVisit (x : Half) (slot : Nat) (gen : BitVec 8) (descNo : Nat) (f : Visit → Visit) : Half :=
  x.onDma (fun d => { d with visits := d.visits.map (fun v => if v.isOf slot gen && decide (v.descNo = descNo) then f v else v) })

/-- The first of `n` host bytes that differs from the stream's, or was poisoned (R363, R446). -/
def Ctx.firstDiff (c : Ctx) (user pos n addr data : Nat) (poison : BitVec 64) : Option Nat :=
  let own := c.streamBytes user pos n
  ((List.range n).find? (fun k =>
    poison.getLsbD ((addr % 64 + k) / 64) || decide (own / 2 ^ (8 * k) % 256 ≠ data / 2 ^ (8 * k) % 256))).map (fun k => pos + k)

/-- What a stream read's data does to its command (R363, R445, R446). -/
def Ctx.readReturned (c : Ctx) (t : Stream) (r : MRead) (data : Nat) (poison : BitVec 64) (err : Bool) : Ctx :=
  let bad := decide (poison ≠ 0)
  if err then { c with flags := { c.flags with xferError := true } }
  else if c.compares then
    match c.firstDiff t.total r.pos r.len r.addr data poison with
    | none => c
    | some k => { c with cmpFirst := some (Nat.min (c.cmpFirst.getD k) k), flags := { c.flags with compareMiss := true } }
  else
    let f : Flags := if !bad then c.flags
      else if c.usesBuf then { c.flags with xferError := true } else { c.flags with sourcePoison := true }
    { c.stage r.pos r.len data with flags := f }

/-- Pool words of a stream that take up poison from a read's beats (R50, R466). -/
def poisonedWords (r : MRead) (marks : BitVec 64) : Nat :=
  ((List.range (r.len / 8 + 2)).filter (fun w => (List.range 8).any (fun j =>
    let p := 8 * (r.pos / 8 + w) + j
    decide (r.pos ≤ p) && decide (p < r.pos + r.len) && marks.getLsbD ((r.addr % 64 + (p - r.pos)) / 64)))).length

/-- Words of the pool poisoned by POISON beats: a memory-error notice for each, since none is repaired (R467, R469, R484); which words of the
pool they are is a free value. -/
def Block.poisonTaken (b : Block) (h : HalfId) (n : Nat) : Block :=
  b.each (List.range n) (fun a _ =>
    { a with freeUses := a.freeUses + 1 }.event h 0x19 0 ((Config.freeValue a.freeUses).toNat % Config.memWords b.variant 0 + at' 1 34 1))

/-- The oldest read of a stream's source bytes returns. -/
def Block.readReturn (b : Block) (h : HalfId) (n : Nat) (r : MRead) (data : Nat) (poison : BitVec 64) (err : Bool) : Block :=
  let x := b.half h
  let t := x.stream n
  let beats := (r.addr % 64 + r.len + 63) / 64
  let marks := if err then 0 else BitVec.ofNat 64 (poison.toNat % 2 ^ beats)
  let bytes := data / 2 ^ (8 * (r.addr % 64)) % 2 ^ (8 * r.len)
  let b1 := b.onHalf h (fun x =>
    ((x.onDma (fun d => d.endRead (fun q => decide (q = r)))).onStream n (fun t =>
      { t with outRd := t.outRd - 1, count := t.count + BitVec.ofNat 32 r.len })).onVisit n t.gen r.descNo
        (fun v => v.answered r.len err false (decide (marks ≠ 0))))
  let b2 := b1.onHalf h (fun x => x.onCtx t.seq (fun c => c.readReturned t r bytes marks err))
  let b3 := if marks = 0 || (x.ctx? t.seq).any Ctx.compares then b2 else b2.poisonTaken h (poisonedWords r marks)
  (b3.settleVisit h n t.gen r.descNo).feedPages h n

/-- DMA_READ_RETURN (R446, R453): the oldest read of the slot; `poison` tells the poisoned beats. A read-back's data is not looked at. -/
def execDmaReadReturn (h : HalfId) (slot data : Nat) (poison : BitVec 64) (err : Bool) (s : State) : Host.Outcome State Fault Refusal :=
  masterRun h (.dmaReadReturn h slot data poison err) (fun b =>
    match (b.half h).dma.reads.find? (fun r => decide (r.slot = some slot)) with
    | none => b
    | some r =>
      if !b.coreRuns h then b
      else if r.back then
        b.onHalf h (fun x => (x.onDma (fun d => d.endRead (fun q => decide (q = r)))).onStream slot (fun t => { t with rbDone := true }))
      else b.readReturn h slot r data poison err) s

/-- The oldest write of a slot's streams answered (R445, R455). -/
def Block.writeAnswered (b : Block) (h : HalfId) (w : MWrite) (n : Nat) (gen : BitVec 8) (descNo : Nat) (err : Bool) : Block :=
  let t := (b.half h).stream n
  let late := (b.half h).dma.visits.find? (fun v => v.isOf n gen && decide (v.descNo = descNo) && err && !v.wait)
  let b1 := b.onHalf h (fun x =>
    let y := (x.onDma (fun d => d.endWrite (fun q => decide (q = w)))).onVisit n gen descNo (fun v => v.answered w.len false err false)
    let z := if t.gen = gen then y.onStream n (fun t => { t with outWr := t.outWr - 1 }) else y
    if err && t.gen = gen && t.respWait then z.onCtx t.seq (fun c => { c with flags := { c.flags with xferError := true } }) else z)
  let b2 := match late with
    | none => b1
    | some v => (b1.onHalf h (fun x => x.onDma (fun d => { d with lateErr := true }))).dmaNotice h v 4 2
  b2.settleVisit h n gen descNo

/-- DMA_WRITE_RESPONSE (R445, R455): the response to the oldest write of the slot. -/
def execDmaWriteResponse (h : HalfId) (slot : Nat) (err : Bool) (s : State) : Host.Outcome State Fault Refusal :=
  masterRun h (.dmaWriteResponse h slot err) (fun b =>
    if !b.coreRuns h then b
    else
      (b.half h).dma.writes.foldr (fun w a => match w.kind with
        | .stream n gen descNo => if n = slot then b.writeAnswered h w n gen descNo err else a
        | _ => a) b) s

/-! ### Completion and DROP (R453, R456) -/

/-- The read-back of the last beat written, issued after the stream's responses (R453). -/
def Half.askBack (x : Half) (n : Nat) : Half :=
  let t := x.stream n
  (x.issueRead { slot := some n, descNo := 0, pos := 0, back := true, fence := none, addr := t.lastAddr.getD 0, len := 64 }).onStream n (fun t =>
    { t with rbIssued := true })

/-- The stream waits for nothing but, perhaps, its read-back. -/
def Stream.quiet (t : Stream) : Bool := t.ended && decide (t.outRd = 0) && (!t.respWait || decide (t.outWr = 0))

/-- The stream still owes a read-back. -/
def Stream.owesBack (t : Stream) : Bool := t.readback && t.dir && t.lastAddr.isSome && !t.rbDone

/-- A stream complete: its slot is free, and its command goes on (R316, R453). -/
def Block.closeStream (b : Block) (h : HalfId) (n : Nat) : Block :=
  let t := (b.half h).stream n
  (b.onHalf h (fun x => (x.onStream n (fun t => { t with active := false })).onCtx t.seq (fun c =>
    { c with xfer := .complete }))).tryFinish t.seq

/-- DMA_STREAM_COMPLETE (R453). -/
def execDmaStreamComplete (h : HalfId) (slot : Nat) (s : State) : Host.Outcome State Fault Refusal :=
  run (fun b =>
    let t := (b.half h).stream slot
    if b.coreRuns h && t.active && t.quiet then
      if t.owesBack then if t.rbIssued then b else b.onHalf h (fun x => x.askBack slot)
      else b.closeStream h slot
    else b) s

/-- A stream cut where it stands: what is on the port completes, its data discarded; visits that wait for nothing end (R338, R456). -/
def Block.cutStream (b : Block) (h : HalfId) (n : Nat) : Block :=
  b.onHalf h (fun x =>
    let t := x.stream n
    ((x.onStream n (fun t => { t with ended := true, desc := none, outRd := 0 })).onDma (fun d => { d.keepReads (fun r => decide (r.slot ≠ some n)) with
      visits := (d.visits.map (fun v => if v.isOf n t.gen then { v with closed := true } else v)).filter (fun v =>
        !(v.isOf n t.gen && (!t.dir || v.finished))) })))

/-- A command's unit pages whose data-in has not begun take the pad pattern (R194). -/
def Block.padUnbegun (b : Block) (seq : Nat) (c : Ctx) : Block :=
  let late := fun (p : UPage) => decide (p.st ≠ .passed) && decide (p.st ≠ .failed) && !p.begun
  (b.onCtx seq (fun c => c.onPages late (fun p => { p with pad := true, slots := padSlots, st := if p.st = .waiting then .ready else p.st }))).pump
    c.dstIdx

/-- The stream of a slot dropped (R456): its command completes with XFER_ERROR, and the slot's count takes a free value. -/
def Block.dropStream (b : Block) (h : HalfId) (n : Nat) : Block :=
  let t := (b.half h).stream n
  let b1 := { (b.cutStream h n).onHalf h (fun x => (x.onStream n (fun t => { t with count := Config.freeValue b.freeUses })).onCtx t.seq (fun c =>
      { c with flags := { c.flags with xferError := true } })) with freeUses := b.freeUses + 1 }
  let b2 := match (b1.half h).ctx? t.seq with
    | none => b1
    | some c => b1.padUnbegun t.seq c
  b2.closeStream h n

/-- A DROP acts: it names the slot's generation, and the stream's last write, where it writes, has not left the engine (R456). -/
def Stream.droppable (t : Stream) (w : Word) : Bool := t.active && !(t.dir && t.ended) && w.bit 0 && decide (w.field 8 8 = t.gen.toNat)

/-- DMA_STRMn_CTL written (R456). -/
def Block.askDrop (b : Block) (h : HalfId) (n : Nat) (w : Word) : Block :=
  if ((b.half h).stream n).droppable w then b.dropStream h n else b

/-- DMA_STREAM_DROP (R456). -/
def execDmaStreamDrop (h : HalfId) (slot : Nat) (value : Word) (s : State) : Host.Outcome State Fault Refusal :=
  portRun h causeRegister (.dmaStreamDrop h slot value) (fun b => b.askDrop h slot value) s

end Sys2Proof.Machine
end

