-- ==== Sys2Proof/Machine/AdminCmds.lean ====
section
/-!
DEFINITION. Meanings of IDENTIFY, PITCH, STRIKE, LOG_GET, PROFILE_LOAD, PROFILE_BIND and REC_UPDATE (08, *Creating and ending queues*; 09,
*Admin commands*).
-/

namespace Sys2Proof.Machine

open Sys2Proof

/-! ### IDENTIFY (R383) -/

/-- GEN_STRAP (R93). -/
def Half.strapWord (x : Half) : Nat :=
  at' x.boot.strap.toNat 0 16 + at' (bitOf x.boot.conflict) 16 1 + at' (bitOf x.boot.strapErr) 17 1 +
    at' (bitOf x.boot.startedDetached) 18 1

/-- A mask of the numbers in a list. -/
def maskOf (l : List Nat) : Nat := (l.map (fun k => 2 ^ k)).sum

/-- DEC_CORE (R273). -/
def Half.coreWord (x : Half) : Nat := at' (maskOf x.dec.hard) 0 10 + at' (maskOf x.dec.soft) 16 4

/-- The identity of a half: the fields of R383's table, each with its bytes. -/
def Block.identity (b : Block) (h : HalfId) : List (Nat × Nat) :=
  let v := b.variant
  let x := b.half h
  [(Config.per v 0x1610 0x0410, 2), (Config.siliconStep.toNat, 1), (h.code, 1), (x.boot.ucodeSeq.toNat, 4), (Config.homeCount v, 1),
   (Config.engines v, 1), (Config.hardCores v, 1), (Config.softCores v, 1), (Config.per v 8192 2048, 2), (Config.records v, 4),
   (Config.queues v, 2), (Config.contexts v, 2), (Config.contexts v, 2), (Config.gutters v, 1), (Config.loops v, 1), (Config.sources v, 2),
   (16, 1), (Config.per v 0 1, 1), (Config.openLimit v, 2), (64, 1), (32, 1), (128, 2), (x.strapWord, 4), (x.coreWord, 4),
   (bitOf b.linked + 2 * bitOf (decide ((b.half h.twin).twn.st = .standby)), 1)]

/-- A die entry of CNS 1 (R383). -/
def dieEntry (e : Die) : List (Nat × Nat) :=
  [(e.readId.toNat, 8), (e.slot.elim 0xFF (fun k => k % 16), 1), (e.family.elim 0xFF Family.index, 1), (e.rateOk, 1),
   (bitOf e.present + 2 * bitOf e.vol.isSome + 4 * bitOf e.retired + 8 * bitOf e.ext.isSome, 1), (0, 4)]

/-- A die of a pair channel as half `h` knows it: its own, or, of a channel that an attached twin drives, its twin's (R31, R383; DEDUCED, log entry 109). -/
def Block.knownDie (b : Block) (h : HalfId) (c d : Nat) : Die :=
  if b.linked && (b.half h.twin).drivesCh c then (b.half h.twin).die c d else (b.half h).die c d

/-- The 4,096 bytes of an IDENTIFY (R383). -/
def Block.identifyData (b : Block) (h : HalfId) (e : Entry) : Nat :=
  let x := b.half h
  match e.byte 20 with
  | 0 => packed (b.identity h)
  | 1 => packed (((List.range 8).map (fun d => dieEntry (b.knownDie h (e.byte 21) d))).flatten)
  | _ => (Tab.get 0 x.store.profiles (e.byte 21) : Profile).toNat

/-- IDENTIFY (R383). -/
def execIdentify (h : HalfId) (seq : Nat) (s : State) : Host.Outcome State Fault Refusal :=
  onLeft h seq .identify (fun b c => b.toBuf seq (b.identifyData h c.entry) 4096 0) s

/-! ### LOG_GET (R385, R572) -/

/-- Log 0x01: the grown-defect table (R120). -/
def defectLog (l : List Defect) : List (Nat × Nat) :=
  (l.map (fun d => [(at' d.index 0 18, 3), (d.cause, 1), (d.eraseCnt.toNat, 3), (0, 1)])).flatten

/-- Log 0x02: the retirement log (R385). -/
def retireLog (l : List RetLog) : List (Nat × Nat) :=
  (l.map (fun r => [(r.kind, 1), (r.index, 2), (r.cause, 1), (bitOf r.restored, 1), (if r.kind = 5 then r.die % 8 else 0, 1), (0, 2),
    (r.seq.toNat, 8)])).flatten

/-- DEC_WCFGn (R273). -/
def Watch.cfg (w : Watch) : Nat := at' w.queue 0 9 + at' (bitOf w.active) 9 1 + at' w.thresh 16 10

/-- Log 0x03: the decode counters and the statistics slots (R385). -/
def Half.decodeLog (x : Half) : List (Nat × Nat) :=
  (List.range 7).map (fun k => ((Tab.get 0 x.dec.cnt k : BitVec 32).toNat, 4)) ++
    ((List.range 16).map (fun n =>
      let w := Tab.get Watch.free x.dec.watch n
      [(w.cfg, 4), (w.reads, 4), (w.warns, 4), (w.bits, 4)])).flatten

/-- Log 0x04: the flysheet summary (R572). -/
def summaryLog (f : Summary) : List (Nat × Nat) :=
  [(f.outcome, 1), (f.flags, 1), (0, 2), (f.seq.toNat, 4), (f.applied, 4), (f.committed, 2), (f.voided, 2), (f.reerased, 2), (f.pads, 4),
   (f.classified, 4), (f.partials, 4), (0, 2), (f.tSeal.toNat, 4), (f.entries.length, 4), (0, 24)] ++
    (f.entries.map (fun e => [(e.1, 1), (e.2.1, 3), (e.2.2.1, 2), (e.2.2.2.1, 2), (e.2.2.2.2.1, 2), (e.2.2.2.2.2, 6)])).flatten

/-- A log's fields (R385). -/
def Half.logFields (x : Half) (n : Nat) : List (Nat × Nat) :=
  match n with
  | 1 => defectLog x.store.defects
  | 2 => retireLog x.retLog
  | 3 => x.decodeLog
  | _ => summaryLog x.fly.summary

/-- LOG_GET (R385): LENGTH bytes from OFFSET, zero beyond the log's end. -/
def execLogGet (h : HalfId) (seq : Nat) (s : State) : Host.Outcome State Fault Refusal :=
  onLeft h seq .logGet (fun b c =>
    let l := (b.half h).logFields (c.entry.byte 20)
    b.toBuf seq (packed l / 2 ^ (8 * c.entry.bytes 24 4)) (c.entry.bytes 28 4) (atByte 49 (l.map Prod.snd).sum 32)) s

/-! ### PITCH (R307-R309, R340) -/

/-- A ring and a header overlap. -/
def overlapsRing (ring hdr size : Nat) : Bool := decide (ring < hdr + 64) && decide (hdr < ring + 64 * 2 ^ size)

/-- The status that refuses a PITCH, if any (R340). -/
def Half.pitchFault (v : Variant) (x : Half) (ad : Bool) (e : Entry) : Option Status :=
  let q := e.bytes 20 2
  let ring := e.bytes 24 8
  let hdr := e.bytes 32 8
  let quota := e.bytes 40 2
  if q = 0 || Config.queues v ≤ q then some .queueInvalid
  else if (x.que.queue? ad q).isSome then some .queueExists
  else if e.byte 23 < 4 || 14 < e.byte 23 || ring = 0 || hdr = 0 || ring % 64 ≠ 0 || hdr % 64 ≠ 0 || overlapsRing ring hdr (e.byte 23) then
    some .queueInvalid
  else if quota = 0 || Config.contexts v - Config.adminReserve v < quota ||
      (fieldOf e 179 1 = 1 && decide (Config.gutters v ≤ e.byte 42 % 32)) then some .queueInvalid
  else if fieldOf e 178 1 = 1 && x.watchSlot.isNone then some .watchLimit
  else none

/-- The queue a PITCH creates: it exists once the PITCH's DONE is written (R307); its header falls due (R340). -/
def pitched (e : Entry) (watch : Option Nat) (seq : Nat) : Queue :=
  { Queue.admin with
    cls := fieldOf e 176 2, watch := watch, thresh := e.bytes 44 2 % 1024, gutter := if fieldOf e 179 1 = 1 then some (e.byte 42 % 32) else none
    size := e.byte 23, ring := BitVec.ofNat 64 (e.bytes 24 8), hdr := BitVec.ofNat 64 (e.bytes 32 8), quota := e.bytes 40 2
    state := .active, hdrDirty := true, waiter := some seq, live := false }

/-- A queue created. -/
def Block.pitchQueue (b : Block) (h : HalfId) (ad : Bool) (seq : Nat) (e : Entry) : Block :=
  let x := b.half h
  let q := e.bytes 20 2
  let w := if fieldOf e 178 1 = 1 then x.watchSlot else none
  let u := pitched e w seq
  let b1 := b.onHalf h (fun x =>
    let y := x.onQue (fun m => m.putQueue ad q u)
    match w with
    | none => y
    | some n =>
      let t : Watch := { queue := q, active := true, adopted := ad, thresh := e.bytes 44 2 % 1024, reads := 0, warns := 0, bits := 0 }
      { y with dec := { y.dec with watch := Tab.set Watch.free y.dec.watch n t } })
  (b1.send h (.queue ad q (.created u))).running seq

/-- PITCH (R340): it completes with the response to the queue's first header write. One of an adopted admin queue creates an adopted queue (R590). -/
def execPitch (h : HalfId) (seq : Nat) (s : State) : Host.Outcome State Fault Refusal :=
  onLeft h seq .pitch (fun b c =>
    match (b.half h).pitchFault b.variant c.adopted c.entry with
    | some st => b.refuse h seq st
    | none => b.pitchQueue h c.adopted seq c.entry) s

/-! ### STRIKE (R338) -/

/-- Operations of command `seq` that only read, not yet issued, are taken off a half's dies. -/
def Half.dropReads (x : Half) (seq : Nat) : Half :=
  x.onDriven (fun k => { k with dies := k.dies.foldl (fun (m : Tab Die) e => Tab.set Die.absent m e.1
    { e.2 with ops := e.2.ops.filter (fun o => !(decide (o.seq = seq) && (decide (o.kind = .read) || decide (o.kind = .raw)))) }) k.dies })

/-- A running command at its abort point (R338): its reads stop, its pages without data-in take the pad pattern, its stream moves nothing further. -/
def Block.abortRunning (b : Block) (h : HalfId) (seq : Nat) (c : Ctx) : Block :=
  let b1 := (b.onHalf .a (fun x => x.dropReads seq)).onHalf .b (fun x => x.dropReads seq)
  let b2 := b1.onCtx seq (fun c =>
    { c with
      flags := { c.flags with aborted := true }
      cws := c.cws.map (fun k => { k with st := .done })
      xfer := if c.xfer = .wanted then .none else c.xfer })
  let b3 := match c.xfer with
    | .active n => b2.cutStream h n
    | _ => b2
  (b3.padUnbegun seq c).tryFinish seq

/-- A command of a struck queue ended at its next abort point (R338). -/
def Block.abortOne (b : Block) (h : HalfId) (seq : Nat) (c : Ctx) : Block :=
  match c.phase with
  | .stalled | .left =>
    let b1 := if c.opcode = .groupCommit then b.onPair (fun p => { p with
        groups := p.groups.change c.entry.group (fun g => { g with closing := none }) }) else b
    b1.finish h seq .aborted 0
  | .running =>
    if c.opcode = .fence then
      (b.onHalf h (fun x => { x with dma := x.dma.keepReads (fun r => decide (r.fence ≠ some seq)) })).finish h seq
        .aborted 0
    else b.abortRunning h seq c
  | _ => b

/-- STRIKE of a queue (R338). -/
def Block.strikeQueue (b : Block) (h : HalfId) (ad : Bool) (seq q : Nat) (abort : Bool) : Block :=
  let b1 := ((b.onHalf h (fun x => x.onQueue ad q (fun u => { u.setDisable true with strikeBy := some seq }))).send h
    (.queue ad q (.disable true))).running seq
  let b2 := if abort then
      b1.each (List.filter (fun e => decide (e.2.queue = q) && decide (e.2.adopted = ad)) (b1.half h).que.ctxs) (fun a e =>
        match (a.half h).ctx? e.1 with
        | none => a
        | some c => a.abortOne h e.1 c)
    else b1
  b2.struck h ad q

/-- STRIKE (R338): QUEUE_INVALID also where another STRIKE already waits for the queue. -/
def execStrike (h : HalfId) (seq : Nat) (s : State) : Host.Outcome State Fault Refusal :=
  onLeft h seq .strike (fun b c =>
    let q := c.entry.bytes 20 2
    match (b.half h).que.queue? c.adopted q with
    | none => b.refuse h seq .queueInvalid
    | some u => if q = 0 || u.strikeBy.isSome || decide (u.state = .struck) || !u.live then b.refuse h seq .queueInvalid
                else b.strikeQueue h c.adopted seq q (c.entry.flag 0)) s

/-! ### Profiles and records (R386-R388) -/

/-- PROFILE_LOAD (R386): the 512 bytes of BUF come by its stream. -/
def execProfileLoad (h : HalfId) (seq : Nat) (s : State) : Host.Outcome State Fault Refusal :=
  onLeft h seq .profileLoad (fun b _ => b.onCtx seq (fun c => { c with phase := .running, buf := 0, bufLen := 512, xfer := .wanted })) s

/-- A die holds a record that is not free with ERASE_CNT 0 (R387). -/
def Block.dieInUse (b : Block) (c d : Nat) : Bool :=
  match b.keeper c with
  | none => false
  | some k => List.any (b.half k).store.recs (fun e =>
      decide (recCh e.1 = c) && decide (recDie e.1 = d) && !(decide (e.2.state = .free) && decide (e.2.eraseCnt = 0)))

/-- The status that refuses a PROFILE_BIND, if any (R108, R387). -/
def Block.bindFault (b : Block) (h : HalfId) (c d n : Nat) : Option Status :=
  let x := b.half h
  let p : Profile := Tab.get 0 x.store.profiles n
  if p = 0 then some .profileInvalid
  else if !x.drivesCh c || !(x.die c d).present then some .addressRange
  else if !((List.range 8).filter (fun j => decide (j ≠ d))).all (fun j => (x.profile? c j).all (fun q => p.agrees q)) then some .profileBound
  else if (x.profile? c d).any (fun q => !q.sameGeometry p) && b.dieInUse c d then some .profileBound
  else none

/-- PROFILE_BIND (R387, R411): the binding is mirrored, and the credits of the die start from 0. -/
def execProfileBind (h : HalfId) (seq : Nat) (s : State) : Host.Outcome State Fault Refusal :=
  onLeft h seq .profileBind (fun b c =>
    let ch := c.entry.byte 20
    let d := c.entry.byte 21 % 8
    let n := c.entry.byte 22 % 16
    match b.bindFault h ch d n with
    | some st => b.refuse h seq st
    | none => ((b.onHalf h (fun x => x.onDie ch d (fun e => { e with slot := some n, credit := [], pulseDue := true, featDue := true }))).send h
        (.bind ch d n)).finish h seq .doneOk 0) s

/-- The status that refuses a REC_UPDATE, if any (R388). -/
def Block.recFault (b : Block) (i op : Nat) (r : Rec) : Option Status :=
  if !b.unitExists i then some .addressRange
  else if r.fly || (decide (op = 2) && (decide (r.state = .erasing) || decide (r.state = .retired))) ||
      (decide (op = 3) && decide (r.state = .retired)) then some .unitState
  else if r.rgnOwn then some .regionLocked
  else none

/-- What a REC_UPDATE makes of a record (R114, R388). -/
def recUpdated (r : Rec) (op value : Nat) : Rec :=
  match op with
  | 1 => { r with zone := BitVec.ofNat 4 value }
  | 2 => { r with state := .retired }
  | _ => { r with grownBad := false }

/-- A REC_UPDATE carried out; a retirement adds a grown-defect entry and leaves a stripe member absent; one
re-executed with its change made replies from its image (R120, R287, R388, R590). -/
def Block.recCmd (b : Block) (h : HalfId) (seq : Nat) (c : Ctx) : Block :=
  let e := c.entry
  let i := e.bytes 20 3 % 2 ^ 18
  let op := e.byte 23
  match b.keeper (recCh i) with
  | none => b.refuse h seq .addressRange
  | some k =>
    let r := (b.half k).rec? i
    match (if c.redo then c.progress.recImage? i else none) with
    | some img => b.finish h seq .doneOk (fieldOf img.bytes 0 112)
    | none =>
    match (if b.lostRec k i && b.unitExists i then some .dataPoison else b.recFault i op r) with
    | some st => b.refuse h seq st
    | none =>
      let new := recUpdated r op (e.byte 24)
      let who := some seq
      let b1 := b.updRec k who i 0 0 false (fun _ => new)
      let b2 := if op = 2 then
          (b1.addDefect k who { index := i, cause := 2, eraseCnt := r.eraseCnt }).allAbsent (fun j => decide (j = i))
        else b1
      b2.finish h seq .doneOk (fieldOf new.bytes 0 112)

/-- REC_UPDATE (R388). -/
def execRecUpdate (h : HalfId) (seq : Nat) (s : State) : Host.Outcome State Fault Refusal :=
  onLeft h seq .recUpdate (fun b c => b.recCmd h seq c) s

end Sys2Proof.Machine
end

