-- ==== Sys2Proof/Machine/Scheduler.lean ====
section
/-!
DEFINITION. The per-die scheduler, its readiness and credits, and suspension requests (R168, R191, R192, R213-R217, R285, R410-R414).
-/

namespace Sys2Proof.Machine

open Sys2Proof

/-! ### Classes and credits (R411, R413, R414) -/

/-- Classes in the order of R411: HOST, RECORD, RECLAIM, MAINT. -/
def classOrder : List Nat := [0, 2, 1, 3]

/-- The weight of a class (R413). -/
def Half.weight (x : Half) (c : Nat) : Nat :=
  match c with
  | 0 => x.gen.wHost
  | 1 => x.reclaimWeight
  | 2 => x.gen.wRecord
  | _ => x.gen.wMaint

/-- Typical time of an operation, in ns (R105, R156). -/
def typicalNs (p : Profile) (o : DieOp) : Nat :=
  let at4 := fun (k : Nat) => p.word (24 + 4 * (k + if o.slc then 3 else 0))
  match o.kind with
  | .fill | .read | .raw => at4 0
  | .program | .parity => at4 1
  | .erase => at4 2
  | .setup | .reset => 0

/-- Credits are kept in ns; a class of weight 0 has none at each choice. -/
def Half.zeroCredit (x : Half) (m : Tab Int) : Tab Int :=
  (classOrder.filter (fun c => decide (x.weight c = 0))).foldl (fun t c => Tab.set 0 t c 0) m

/-- Ready classes without a positive credit among them are all given ten times their weight in µs (R411). -/
def Half.topUp (x : Half) (m : Tab Int) (ready : List Nat) : Tab Int :=
  if ready.all (fun c => decide (Tab.get 0 m c ≤ 0)) then
    ready.foldl (fun t c => Tab.modify 0 t c (fun v => v + 10000 * (x.weight c : Int))) m
  else m

/-- The class chosen: the first in order that is ready with credit, else the first ready (R411, R414). -/
def chooseClass (m : Tab Int) (ready : List Nat) : Option Nat :=
  match classOrder.find? (fun c => ready.contains c && decide (0 < Tab.get 0 m c)) with
  | some c => some c
  | none => classOrder.find? (fun c => ready.contains c)

/-- A class charged for an operation, down to −T_BERS at the lowest (R411). -/
def charge (p : Profile) (m : Tab Int) (o : DieOp) : Tab Int :=
  let floor : Int := - (p.word 32 : Int)
  Tab.modify 0 m o.cls (fun v => if v - typicalNs p o < floor then floor else v - typicalNs p o)

/-- The lowest-numbered operation of a list. -/
def lowestSeq (l : List DieOp) : Option DieOp :=
  l.foldl (fun a o => match a with
    | none => some o
    | some p => if o.seq < p.seq then some o else some p) none

/-! ### Readiness (R191, R192, R208, R285, R410) -/

/-- The operation only reads the array. -/
def DieOp.isRead (o : DieOp) : Bool := decide (o.kind = .read) || decide (o.kind = .raw) || decide (o.kind = .fill)

/-- The operation writes unit pages. -/
def DieOp.writes (o : DieOp) : Bool := decide (o.kind = .program) || decide (o.kind = .parity)

/-- A journal entry is the change that an operation's first cycle waits for: the reservation that one of its pages lies in, or the erasing delta of its unit (R191, R208). -/
def DieOp.waitsFor (o : DieOp) (e : JEntry) : Bool :=
  match e.kind with
  | .record i r =>
    decide (i = o.recIdx) && ((o.writes && o.pages.any (fun n => decide (r.wp.toNat ≤ n + e.grew) && decide (n < r.wp.toNat))) ||
      (decide (o.kind = .erase) && decide (r.state = .erasing)))
  | _ => false

/-- Changes of a half's records that wait for room in its journal, or for its twin's acknowledgement (R555, R575). -/
def Half.unsettled (x : Half) : List JEntry :=
  (x.fly.waiting.map Prod.snd).flatten ++ (x.twn.sent.map (fun e => match e.2 with
    | .journal es _ _ => es
    | _ => [])).flatten

/-- The change that the operation's first cycle waits for is still to be journalled, or to be acknowledged (R191, R208). -/
def Block.opHeld (b : Block) (o : DieOp) : Bool :=
  (o.writes || decide (o.kind = .erase)) && (b.keeper (recCh o.recIdx)).any (fun g => (b.half g).unsettled.any o.waitsFor)

/-- A lower unit page of the same unit is still to be programmed at the die (R192). -/
def Die.lowerWaits (e : Die) (o : DieOp) : Bool :=
  o.writes && e.allOps.any (fun p => p.writes && decide (p.recIdx = o.recIdx) && decide (p.pages.headD 0 < o.pages.headD 0))

/-- Every row a program folds into holds cells or may take them (R285). -/
def Block.rowsFree (b : Block) (o : DieOp) : Bool :=
  if o.kind = .program then
    match b.keeper (recCh o.recIdx) with
    | none => true
    | some g =>
      match (b.half g).openStripe o.recIdx with
      | none => true
      | some (slot, s) => decide (s.dataCount ≤ posOf s.ring o.recIdx) || o.pages.all (fun n => (b.half g).rowRoom slot n s)
  else true

/-- The pad pages that recovery still owes a unit go ahead of other programs and erases of it (R635). -/
def Block.padsAhead (b : Block) (o : DieOp) : Bool :=
  (o.writes || decide (o.kind = .erase)) && decide (o.seq ≠ noSeq) &&
    (b.keeper (recCh o.recIdx)).any (fun g => (b.half g).fly.padDue.any (fun r => decide (r.1 = o.recIdx)))

/-- An operation is ready (R410), the LUN's own state apart; a die that a reset waits for takes only the reset (R392, R624). -/
def Block.opReady (b : Block) (h : HalfId) (p : Profile) (e : Die) (o : DieOp) : Bool :=
  !b.opHeld o && !e.lowerWaits o && !b.padsAhead o && b.rowsFree o && (!e.held || decide (o.kind = .reset)) &&
    (if o.kind = .reset then b.anyBudget else (b.half h).loops.hasToken && b.underCeiling h p o)

/-- A reclaim governor's fallback holds HOST-class programs, OFFERs and parity programs while a RECLAIM-class operation is ready at the die (R504). -/
def Half.yieldsReclaim (x : Half) (ok : List DieOp) : List DieOp :=
  if x.loops.reclaimFallback && ok.any (fun o => decide (o.cls = 1)) then ok.filter (fun o => !(o.writes && decide (o.cls = 0))) else ok

/-- The operation R411 chooses from a list of those the LUN may take, with the credits after the choice, none charged. -/
def Block.choose (b : Block) (h : HalfId) (p : Profile) (e : Die) (l : List DieOp) : Tab Int × Option DieOp :=
  let ok := (b.half h).yieldsReclaim (l.filter (b.opReady h p e))
  match ok.find? (fun o => decide (o.kind = .fill)) with
  | some o => ((b.half h).zeroCredit e.credit, some o)
  | none =>
    let x := b.half h
    let m := x.zeroCredit e.credit
    let ready := classOrder.filter (fun c => ok.any (fun o => decide (o.cls = c)))
    let m1 := x.topUp m ready
    (m1, (chooseClass m1 ready).bind (fun c => lowestSeq (ok.filter (fun o => decide (o.cls = c)))))

/-! ### Suspension (R168, R213-R217) -/

/-- The policy in force for suspensions of an operation (R227). -/
def Half.suspPol (x : Half) (o : DieOp) : SuspPol :=
  { mask := if o.kind = .erase then x.gen.ersSusp else x.gen.progSusp, max := x.gen.readsMax, noGap := decide (x.gen.gapUs = 0) }

/-- A policy lets a queue read of this class suspend the operation, once GAP_US of it has run (R213). -/
def SuspPol.lets (p : SuspPol) (o r : DieOp) : Bool := p.mask.getLsbD r.cls && (o.gapDone || p.noGap)

/-- The read is of another unit than the operation's (R214). -/
def otherUnit (o r : DieOp) : Bool := r.isRead && decide (r.recIdx ≠ o.recIdx)

/-- A read may suspend the operation (R213, R214). -/
def Half.maySuspend (x : Half) (o r : DieOp) : Bool :=
  otherUnit o r && (decide (r.kind = .fill) || (x.suspPol o).lets o r)

/-- The ladder step that a sense of a command serves: the highest of its codewords that wait for it. -/
def Block.senseStep (b : Block) (r : DieOp) : Nat :=
  (b.ctxOf r.seq).elim 1 (fun c => ((c.2.cws.filter (servedBySense r)).map Cw.step).foldl Nat.max 1)

/-- The sense belongs to a queue read already started. -/
def Begun.covers (g : Begun) (r : DieOp) : Bool :=
  decide (g.seq = r.seq) && decide (g.idx = r.recIdx) && r.pages.all g.pages.contains

/-- A queue read may run under the suspension: it is a further sense of the same ladder step of a read already started, or one more read within
READS_MAX (R215, R216). -/
def Block.withinMax (b : Block) (o r : DieOp) (max : Nat) : Bool :=
  match o.begun.find? (fun g => g.covers r) with
  | some g => decide (g.step = b.senseStep r)
  | none => decide (o.begun.length < max)

/-- A read may run under the suspension of an operation, by the policy the suspension was requested under (R215, R216, R227). -/
def Block.mayRun (b : Block) (o r : DieOp) : Bool :=
  otherUnit o r && (decide (r.kind = .fill) || o.pol.any (fun p => p.lets o r && b.withinMax o r p.max))

end Sys2Proof.Machine

namespace Sys2Proof

open Machine

/-- A codeword may still ask for a die operation of ladder step `n` (R216, R252, R256). -/
def Cw.moreOf (k : Cw) (n : Nat) : Bool :=
  decide (k.step = n) && (decide (k.st = .sensing) || (decide (n = 3) && (decide (k.st = .arriving) || decide (k.st = .decode))) ||
    (decide (n = 4) && decide (k.st = .arriving) && decide (k.senses = 0)))

end Sys2Proof

namespace Sys2Proof.Machine

open Sys2Proof

/-- A started queue read has die operations of its ladder step before it (R216). -/
def Block.begunOpen (b : Block) (g : Begun) : Bool :=
  (b.ctxOf g.seq).any (fun c => c.2.cws.any (fun k => decide (k.idx = g.idx) && g.pages.contains k.page && k.moreOf g.step))

/-- Nothing more runs under a suspension: no read that may run waits, and no started read has die operations of its step to come (R169, R216). -/
def Block.suspOver (b : Block) (o : DieOp) (ops : List DieOp) : Bool := !ops.any (b.mayRun o) && !o.begun.any b.begunOpen

/-- A read's start under a suspension, kept with the operation suspended; a line fill and a further sense of a read are not counted (R215). -/
def DieOp.begin (q r : DieOp) (step : Nat) : DieOp :=
  if r.kind = .fill || q.begun.any (fun g => g.covers r) then q
  else { q with begun := q.begun ++ [{ seq := r.seq, idx := r.recIdx, pages := r.pages, step := step }] }

/-- The operation can be suspended where it stands: it programs or erases at the die, and no suspension is asked for (R158, R165, R213). -/
def Chan.canSuspend (k : Chan) (d : Nat) (o : DieOp) : Bool :=
  (o.writes || decide (o.kind = .erase)) && decide (o.phase = .busy) && !k.tasks.contains { kind := .suspend, die := d }

/-- A program not yet confirmed (R168). -/
def DieOp.unconfirmed (o : DieOp) : Bool := o.writes && (decide (o.phase = .dataIn) || decide (o.phase = .issue))

/-- The bus task an operation's first cycles wait for. -/
def firstTask (o : DieOp) : TaskKind :=
  match o.kind with
  | .fill => .fillCmd
  | .reset => .reset
  | _ => .arrayCmd

/-- The write of what is due of a die's features, for a DIE_RESET or for no command (R197, R392). -/
def setupOp (seq : Nat) (p : Profile) : DieOp :=
  { mkOp .setup seq 3 0 [] false 0 with phase := .issue, prof := some p }

/-- A setup of a die issued. -/
def Half.issueSetup (x : Half) (c d seq : Nat) (p : Profile) : Half :=
  x.onChan c (fun k => (k.onDie d (fun e => { e with op := some (setupOp seq p) })).addTask .arrayCmd d)

/-- An operation taken from those that wait and issued: its token taken, its class charged, its cycles waiting for the bus, under the profile of this moment (R107, R161,
R410). -/
def Half.issueOp (x : Half) (c d : Nat) (p : Profile) (m : Tab Int) (o : DieOp) (below : Option Nat) : Half :=
  let y := if o.kind = .reset then x else x.onLoops Loops.takeToken
  y.onChan c (fun k =>
    (k.onDie d (fun (e : Die) =>
      let e1 : Die := { e with ops := e.ops.erase o, credit := if o.kind = .fill then m else charge p m o }
      match below with
      | some step => { e1 with under := some { o with phase := .issue, prof := some p }, op := e1.op.map (fun q => q.begin o step) }
      | none => { e1 with op := some { o with phase := .issue, prof := some p } })).addTask (firstTask o) d)

/-- A program's set-up abandoned for a read: the program goes back to be issued from its first cycle (R168). -/
def Half.abandon (x : Half) (c d : Nat) (o : DieOp) : Half :=
  x.onChan c (fun k =>
    ((k.dropTasks d).onDie d (fun e => { e with op := none, ops := { o with phase := .queued } :: e.ops })))

/-- A suspension requested, under the policy of this moment (R166, R227). -/
def Half.askSuspend (x : Half) (c d : Nat) (o : DieOp) : Half :=
  x.onChan c (fun k => (k.onDie d (fun e => { e with op := e.op.map (fun q => { q with pol := some (x.suspPol o) }) })).addTask .suspend d)

/-- The scheduler's choice for a LUN (R411-R414). A program waits for a write of PULSE_LIMIT that is due (R197). A suspension is requested for the choice among the reads that R213 lets ask for one: no other operation
can the LUN accept under R161 and R165 while it programs or erases (R410, R412). -/
def Block.schedule (b : Block) (h : HalfId) (c d : Nat) : Block :=
  let x := b.half h
  let k := x.chan c
  let e := k.die d
  match x.profile? c d with
  | none => b
  | some p =>
    match e.op with
    | none =>
      match b.choose h p e e.ops with
      | (m, some o) =>
        if o.writes && e.pulseWaits p then b.onHalf h (fun y => y.issueSetup c d noSeq p)
        else b.onHalf h (fun y => y.issueOp c d p m o none)
      | (m, none) => b.onHalf h (fun y => y.onDie c d (fun e => { e with credit := m }))
    | some o =>
      if o.phase = .suspended && e.under.isNone then
        match b.choose h p e (e.ops.filter (fun r => b.mayRun o r)) with
        | (m, some r) => b.onHalf h (fun y => y.issueOp c d p m r (some (b.senseStep r)))
        | _ => b
      else if k.canSuspend d o then
        match b.choose h p e (e.ops.filter (fun r => x.maySuspend o r)) with
        | (_, some _) => b.onHalf h (fun y => y.askSuspend c d o)
        | _ => b
      else if o.unconfirmed then
        match b.choose h p e (e.ops.filter (fun r => x.maySuspend { o with gapDone := false } r)) with
        | (m, some r) => b.onHalf h (fun y => (y.abandon c d o).issueOp c d p m r none)
        | _ => b
      else b

/-- The half serves die operations on a channel: its clocks run, it holds the enable, an engine is bound to it (R21), training has passed and none is due (R176, R185, R595). -/
def Block.serving (b : Block) (h : HalfId) (c : Nat) : Bool :=
  let k := (b.half h).chan c
  b.coreRuns h && decide ((b.half h).pwr.state = 0) && b.enabled h c && !k.gated && decide (k.trainReq < 2) && !k.retired &&
    ((b.half h).engineOf b.variant c).isSome

/-- SCHEDULER_CHOICE (R171, R410-R414): nothing issues once a brown-out is latched. -/
def execSchedulerChoice (h : HalfId) (ch : Nat) (die : Nat) (s : State) : Host.Outcome State Fault Refusal :=
  run (fun b => if b.serving h ch && !b.pair.latched then b.schedule h ch die else b) s

end Sys2Proof.Machine
end

