-- ==== Sys2Proof/Machine/Channel.lean ====
section
/-!
DEFINITION. Meanings of the channel commands: bus tasks, polls, ready and suspended LUNs, timeouts, training and erase age (04, 05).
-/

namespace Sys2Proof.Machine

open Sys2Proof

/-! ### Bus tasks (R146-R170) -/

/-- SUSP_CNT of a unit counted, and SUSPENDS of an erase (R166, R217). -/
def Block.countSuspend (b : Block) (h : HalfId) (c d : Nat) (o : DieOp) : Block :=
  let b1 := if o.kind = .erase then
      b.onHalf h (fun x => x.onDie c d (fun e => { e with eraseSusp := satAdd 255 e.eraseSusp 1 }))
    else b
  match b1.keeper (recCh o.recIdx) with
  | none => b1
  | some g => b1.updRec g none o.recIdx 0 0 false (fun r => { r with suspCnt := satBits r.suspCnt 1 })

/-- The pages of a program folded at its confirm (R280). -/
def Block.foldOp (b : Block) (o : DieOp) : Block :=
  match b.keeper (recCh o.recIdx), b.ctxOf o.seq with
  | some g, some (_, c) =>
    b.each o.pages (fun a n =>
      match c.pages.find? (fun p => decide (p.page = n)) with
      | none => a
      | some p => a.onHalf g (fun x => x.foldPage o.recIdx n p.slots))
  | _, _ => b

/-- A sense whose data-out has ended (R154). -/
def Block.sensed (b : Block) (h : HalfId) (c d : Nat) : Block :=
  b.onHalf h (fun x => x.onDie c d (fun e => if e.under.isSome then { e with under := none } else { e with op := none }))

/-- What a bus task brings about beside its cycles; a data burst's once its last codeword has crossed the pins. -/
def Block.taskDone (b : Block) (h : HalfId) (c : Nat) (t : BusTask) : Block :=
  let e := (b.half h).die c t.die
  let b1 := b.onHalf h (fun x => x.onDie c t.die (fun e => e.afterTask t.kind))
  match t.kind with
  | .suspend => e.op.elim b1 (fun o => b1.countSuspend h c t.die o)
  | .arrayCmd => match e.current with
    | none => b1
    | some o => if o.writes then b1.onHalf h (fun x => x.onChan c (fun k => k.addTask .dataIn t.die)) else b1
  | .dataIn => match e.current with
    | none => b1
    | some o => if o.kind = .program then b1.foldOp o else b1
  | .dataOut | .fillOut => b1.sensed h c t.die
  | .train => b1.onHalf h (fun x => x.onChan c (fun k => { k with trainRun := k.trainRun ++ [t.die] }))
  | _ => b1

/-- The next codeword of a data-out finds cells for its image: those it holds, or free ones of its channel's share (R29, R428, R429). -/
def Block.burstRoom (b : Block) (h : HalfId) (c : Nat) (t : BusTask) : Bool :=
  let k := (b.half h).chan c
  match (k.die t.die).current with
  | none => true
  | some o =>
    let u := (k.burst.filter (fun u => decide (u.task = t))).elim (b.servedPlaces o) (fun u => u.places.drop u.moved)
    let n := match u.head? with
      | none => 0
      | some a => (b.ctxOf o.seq).elim 0 (fun e => (e.2.cws.filter (fun w =>
          servedBySense o w && decide (w.page = a.1) && decide (w.slot = a.2) && decide (w.st = .sensing) && decide (w.step ≤ 1))).length)
    n = 0 || b.roomFor c (18 * n) 0

/-- A task of items 1 to 8 may run now: after the latch of a brown-out only resets, RESUME and polls (R171); an untrained channel, or one that a die has failed at,
moves no data and starts no die operation (R176, R185), and a die still in boot timing is raised first (R145); at BUDGET zero no reset and no feature write starts (R76); training waits until the LUN is ready and not suspended and
no other die's array operation runs (R165, R167, R176, R185). A data-out needs cells for its next codeword (R428). -/
def Block.mayTask (b : Block) (h : HalfId) (c : Nat) (t : BusTask) : Bool :=
  let k := (b.half h).chan c
  match t.kind with
  | .reset => b.anyBudget
  | .resume => b.mayResume h c t.die
  | .poll => true
  | .raise => !b.pair.latched
  | .train => !b.pair.latched && !k.trainDue && (k.die t.die).op.isNone && List.all k.dies (fun e => !e.2.busy)
  | _ => !b.pair.latched && !k.gated && decide ((k.die t.die).mode ≠ .boot) &&
    (b.anyBudget || !(decide (t.kind = .arrayCmd) && (k.die t.die).current.any (fun o => decide (o.kind = .setup)))) && (!(decide (t.kind = .dataOut) || decide (t.kind = .fillOut)) || b.burstRoom h c t)

/-- A burst of a die begun: every codeword of the program, or those the sense serves (R154). -/
def Block.freshBurst (b : Block) (o : DieOp) (t : BusTask) : Burst :=
  { out := decide (t.kind ≠ .dataIn), die := t.die, moved := 0, split := false, lost := false
    places := if t.kind = .dataIn then (o.pages.map (fun n => (List.range 4).map (fun s => (n, s)))).flatten else b.servedPlaces o }

/-- The payload of a slot of a unit page that a program carries: a page of its command, its row's accumulator, or the pad payload of recovery's pages; none on a blank parity page (R192,
R196, R281, R302). -/
def Block.opPayload (b : Block) (o : DieOp) (page slot : Nat) : Option Payload :=
  match o.kind with
  | .parity =>
    (b.keeper (recCh o.recIdx)).bind (fun g =>
      ((b.half g).par.stripes.find? o.block).bind (fun s =>
        let r := (b.half g).row o.block page s
        (if posOf s.ring o.recIdx = s.dataCount then r.p else r.q)[slot]?))
  | _ => if o.seq = noSeq then some padPayload else (b.ctxOf o.seq).bind (fun c => (c.2.pages.find? (fun u => decide (u.page = page))).map (fun u => u.slots.getD slot padPayload))

/-- The image of a codeword that a program puts on the pins (R232, R235, R302). -/
def Block.pageImage (b : Block) (o : DieOp) (a : Nat × Nat) : BitVec 36864 :=
  match b.placeOf o.recIdx a.1 with
  | none => 0
  | some t =>
    match b.opPayload o a.1 a.2 with
    | none => blankImage t.prof.parity352
    | some d => pinImage t.prof.parity352 (b.driveOf t) (BitVec.ofNat 64 (t.paddr a.1 a.2)) d

/-- A channel's counters after a task that keeps a CE_n low for `busy` CLK_PHY cycles and moves data for `data` of them (CHN_BUSY_CYC, CHN_DATA_CYC). -/
def Chan.count (k : Chan) (busy data : Nat) : Chan :=
  { k with busyCyc := k.busyCyc + BitVec.ofNat 32 busy, dataCyc := k.dataCyc + BitVec.ofNat 32 data }

/-- One codeword of a data burst crosses the pins (R154, R155, R163, R175): a data-in that lost its die's page register goes back to its first cycle; a burst that has nothing more
to move ends its task. -/
def Block.burstStep (b : Block) (h : HalfId) (c busy data : Nat) (t : BusTask) (p : Profile) (o : DieOp) (u : Burst) : Block :=
  let k := (b.half h).chan c
  let e := k.die t.die
  let done := fun (a : Block) => (a.onHalf h (fun x => x.onChan c (fun k => { k with tasks := k.tasks.erase t, burst := none }))).taskDone h c t
  match u.places[u.moved]? with
  | none => done b
  | some a =>
    if u.lost then
      b.onHalf h (fun x => x.onChan c (fun k =>
        ((k.dropTasks t.die).onDie t.die (fun e => e.onCurrent (fun o => { o with phase := .issue }))).addTask .arrayCmd t.die))
    else
      let cyc := selectCycles k e p t.die ++ if u.out then dataOutStep p o u else dataInStep p e o u (b.pageImage o a)
      let b1 := b.onHalf h (fun x => (x.onChan c (fun k => { k.count busy data with
        cycles := cyc, volSel := k.selects p t, burst := some { u with moved := u.moved + 1, split := false }
        odtDie := if u.out then none else some t.die, odtPad := u.out })).askPoolFor b.variant c)
      let b2 := if u.out then (b1.onServedAt o (fun k => decide (k.page = a.1) && decide (k.slot = a.2)) (fun k => { k with st := .arriving })).notePool h
        else if o.kind = .program then b1.onCtx o.seq (fun c => c.onPages (fun p => decide (p.page = a.1)) (fun p => { p with begun := true })) else b1
      if u.moved + 1 < u.places.length then b2 else done b2

/-- A burst that another task cuts in on: it has yielded, and a data-in loses its page register where the task's command goes to another die on its CE_n line (R155,
R163). -/
def Burst.yields (u : Burst) (p : Profile) (d : Nat) : Burst :=
  { u with split := true, lost := u.lost || (!u.out && decide (u.die ≠ d) && decide ((dieTarget p u.die).1 = (dieTarget p d).1)) }

/-- A bus task but a data burst: its cycles, and its effect. `first` tells one of the polls that come before anything else, which cut in on no burst (R85, R618). -/
def Block.plainTask (b : Block) (h : HalfId) (c busy data : Nat) (t : BusTask) (p : Profile) (first : Bool) : Block :=
  let k := (b.half h).chan c
  (b.onHalf h (fun x => x.onChan c (fun j => { j.count busy data with
    tasks := if first then j.tasks else j.tasks.erase t
    mustPoll := j.mustPoll.drop 1
    cycles := taskCycles k (k.die t.die) p t, volSel := k.selects p t, odtDie := none, odtPad := false
    burst := if first then j.burst else j.burst.map (fun u => u.yields p t.die) }))).taskDone h c t

/-- The bus task next in precedence runs, under the profile its operation was issued under (R107, R162, R163). -/
def Block.busTask (b : Block) (h : HalfId) (c busy data : Nat) : Block :=
  let x := b.half h
  let k := x.chan c
  match k.nextTask (b.mayTask h c) with
  | none => b
  | some t =>
    match ((k.die t.die).current.bind DieOp.prof).or (x.profile? c t.die), (k.die t.die).current with
    | none, _ => b.onHalf h (fun x => x.onChan c (fun k => { k with tasks := k.tasks.erase t, mustPoll := k.mustPoll.drop 1 }))
    | some p, some o =>
      if t.kind = .dataOut || t.kind = .dataIn || t.kind = .fillOut then
        b.burstStep h c busy data t p o ((k.burst.filter (fun u => decide (u.task = t))).getD (b.freshBurst o t))
      else b.plainTask h c busy data t p (!k.mustPoll.isEmpty)
    | some p, none => b.plainTask h c busy data t p (!k.mustPoll.isEmpty)

/-- BUS_TASK (R21, R146, R153, R162), by the engine bound to the channel: `busy` and `data` are the CLK_PHY cycles the task keeps CE_n low and moves data. -/
def execBusTask (h : HalfId) (ch : Nat) (busy data : Nat) (s : State) : Host.Outcome State Fault Refusal :=
  run (fun b =>
    if b.coreRuns h && b.enabled h ch && ((b.half h).engineOf b.variant ch).isSome then (b.busTask h ch busy data).bindDue h else b) s

/-! ### Polls (R156, R160) -/

/-- POLL_DUE (R156): a LUN that is waited on. -/
def execPollDue (h : HalfId) (ch : Nat) (die : Nat) (s : State) : Host.Outcome State Fault Refusal :=
  run (fun b =>
    if b.coreRuns h && b.enabled h ch && ((b.half h).die ch die).busy then
      b.onHalf h (fun x => x.onChan ch (fun k => k.needTask .poll die))
    else b) s

/-- RB_N_RISE (R68, R156, R160): while the clocks stand still the latch keeps the edge. -/
def execRbNRise (h : HalfId) (ch : Nat) (s : State) : Host.Outcome State Fault Refusal :=
  run (fun b =>
    if b.coreRuns h && b.enabled h ch then
      b.onHalf h (fun x => x.onChan ch (fun k =>
        (List.filter (fun e => e.2.busy) k.dies).foldl (fun m e => m.needTask .poll e.1) k))
    else b.onHalf h (fun x => x.onChan ch (fun k => { k with rbLatch := true }))) s

/-! ### Operations that end (R157, R159, R169, R251) -/

/-- A die after a reset of it: entry 0, the pulse limit and the features to be written again (R197, R251, R392); RESET returns it to SDR timing mode 0 (R145). -/
def Die.afterReset (e : Die) (kind : Nat) : Die :=
  let r : Die := { e with entry := 0, pulseDue := true, featDue := true }
  if kind = 2 then { r with mode := .boot, odt := none, drv := none, term := false } else r

/-- The dies a reset reaches: the LUN for RESET LUN, and every LUN of its target otherwise (R146). -/
def resetReach (p : Profile) (kind d j : Nat) : Bool := decide (j = d) || (decide (kind ≠ 0) && decide ((dieTarget p j).1 = (dieTarget p d).1))

/-- A channel after a reset of a die has ended: RESET takes it to SDR at code 0, the dies it reached to be raised before any other cycle, and a full retrain due (R141, R145,
R392); after either reset of a target the volumes are selected anew (R153). -/
def Chan.afterReset (k : Chan) (p : Profile) (kind d : Nat) : Chan :=
  let hit := (List.filter (fun e => resetReach p kind d e.1) k.dies).map Prod.fst
  let j : Chan := { k with
    dies := hit.foldl (fun (m : Tab Die) n => Tab.modify Die.absent m n (fun e => e.afterReset kind)) k.dies
    volSel := if kind = 0 then k.volSel else [] }
  if kind = 2 then
    hit.foldl (fun (m : Chan) n => m.addTask .raise n) (Chan.askRetrain { j with rate := 0, ext := false, trained := false } true)
  else j

/-- A reset of a die has ended (R145, R197, R392). A DIE_RESET of KIND 0 or 1 goes on to write the features; one of KIND 2, as a channel reset, holds the die until the channel is
trained. Nothing follows once a brown-out is latched (R171). -/
def Block.endReset (b : Block) (h : HalfId) (c d : Nat) (o : DieOp) : Block :=
  match (b.half h).profile? c d with
  | none => b.endOp o
  | some p =>
    if b.pair.latched then b
    else
      let b1 := b.onHalf h (fun x => x.onChan c (fun k => k.afterReset p o.block d))
      if o.block = 2 then b1
      else if o.seq = noSeq then b1.onHalf h (fun x => x.onDie c d (fun e => { e with held := false }))
      else b1.onHalf h (fun x => x.issueSetup c d o.seq p)

/-- A write of a die's features has ended (R197, R392). -/
def Block.endSetup (b : Block) (h : HalfId) (c d : Nat) (o : DieOp) : Block :=
  (b.onHalf h (fun x => x.onDie c d (fun e => { e with pulseDue := false, featDue := false, held := e.held && decide (o.seq = noSeq) }))).endOp o

/-- The RESET LUN that R158 itself issues: its ready is no ready operation of the die's, or no die could time out three times in a row. -/
def DieOp.isRecovery (o : DieOp) : Bool := decide (o.kind = .reset) && decide (o.block = 0) && decide (o.seq = noSeq)

/-- The LUN's operation has ended with a status (R157, R198): a SUSPEND still asked for has nothing left to suspend. -/
def Block.opEnded (b : Block) (h : HalfId) (c d : Nat) (o : DieOp) (ok : Bool) : Block :=
  let b1 := b.onHalf h (fun x => x.onChan c (fun k =>
    (k.dropTask .suspend d).onDie d (fun e => { e with op := none, timeouts := if o.isRecovery then e.timeouts else 0 })))
  match o.kind with
  | .program => b1.endProgramOp o ok
  | .parity => b1.endParity o ok
  | .erase => b1.endEraseOp o ok
  | .reset => b1.endReset h c d o
  | .setup => b1.endSetup h c d o
  | _ => b1.endOp o

/-- A channel whose pad set fails is retired where no twin's pad set can take it (R39). -/
def Block.padLost (b : Block) (h : HalfId) (c : Nat) : Block :=
  let twin := (b.half h.twin).chan c
  if (b.half h).ready && (!b.linked || twin.padFail || twin.padRetired || !(b.half h.twin).canTake b.variant) then b.retireChannel h c 5 else b

/-- A pad fault, WP_n read low while it is driven high: it counts as a training failure of the pad set (R39, R159). -/
def Block.padFault (b : Block) (h : HalfId) (c : Nat) : Block :=
  if ((b.half h).chan c).padFail then b
  else (b.onHalf h (fun x => x.onChan c (fun k => { k with padFail := true }))).padLost h c

/-- A LUN found ready (R157): a sense goes on to its data-out, which no latched brown-out lets run (R171); any other operation ends. -/
def Block.lunDone (b : Block) (h : HalfId) (c d : Nat) (fail : Bool) : Block :=
  match ((b.half h).die c d).current with
  | none => b
  | some o =>
    if o.phase = .busy || o.phase = .unsuspendable then
      if o.isRead then
        b.onHalf h (fun x => x.onChan c (fun k =>
          let j := k.onDie d (fun e => { (e.onCurrent (fun o => { o with phase := .dataOut })) with timeouts := 0 })
          if b.pair.latched then j else j.addTask (if o.kind = .fill then .fillOut else .dataOut) d))
      else b.opEnded h c d o (!fail)
    else b

/-- RDY and ARDY of a status byte (R157). -/
def statusReady (status : Byte) : Bool := status.getLsbD 6 && status.getLsbD 5

/-- Bit 7 of a status byte at 0 while the pads drive WP_n high is a pad fault (R159). -/
def Block.checkWp (b : Block) (h : HalfId) (c : Nat) (status : Byte) : Block :=
  if !status.getLsbD 7 && (b.pair.pad c).wp then b.padFault h c else b

/-- A status byte that a poll of a LUN reads (R157, R159). -/
def Block.lunReady (b : Block) (h : HalfId) (c d : Nat) (status : Byte) : Block :=
  (if statusReady status then b.lunDone h c d (status.getLsbD 0) else b).checkWp h c status

/-- LUN_READY (R157, R159): `status` is the byte read; one without RDY and ARDY ends nothing. -/
def execLunReady (h : HalfId) (ch : Nat) (die : Nat) (status : Byte) (s : State) : Host.Outcome State Fault Refusal :=
  run (fun b => if b.coreRuns h && b.enabled h ch then (b.lunReady h ch die status).bindDue h else b) s

/-- The status byte of a die ready after a SUSPEND shows its operation suspended, as its family entry tells (R148, R670). -/
def Die.showsSuspended (e : Die) (status : Byte) : Bool := e.family.any (fun f => decide (status &&& f.suspMask = f.suspValue))

/-- A status byte read after a SUSPEND (R167, R670): the LUN stands suspended, or its operation has ended at that ready. -/
def Block.suspendReady (b : Block) (h : HalfId) (c d : Nat) (status : Byte) (o : DieOp) : Block :=
  (if statusReady status then
    if ((b.half h).die c d).showsSuspended status then
      b.onHalf h (fun x => x.onDie c d (fun e => { e with timeouts := 0, op := some { o with phase := .suspended, begun := [] } }))
    else b.opEnded h c d o (!status.getLsbD 0)
  else b).checkWp h c status

/-- SUSPEND_READY (R159, R167, R670): `status` is the byte read. -/
def execSuspendReady (h : HalfId) (ch : Nat) (die : Nat) (status : Byte) (s : State) : Host.Outcome State Fault Refusal :=
  run (fun b =>
    match ((b.half h).die ch die).op with
    | none => b
    | some o =>
      if b.coreRuns h && b.enabled h ch && decide (o.phase = .suspending) then (b.suspendReady h ch die status o).bindDue h else b) s

/-- RESUME (R169, R216): no read that may run under the suspension waits, none runs, and every queue read started has finished the die operations of its
ladder step; a reset that waits for the die, or a full training that is due, ends the suspension at once. -/
def execResume (h : HalfId) (ch : Nat) (die : Nat) (s : State) : Host.Outcome State Fault Refusal :=
  run (fun b =>
    let x := b.half h
    let e := x.die ch die
    match e.op with
    | none => b
    | some o =>
      if b.coreRuns h && b.enabled h ch && decide (o.phase = .suspended) && e.under.isNone &&
          (e.held || (x.chan ch).trainDue || b.suspOver o e.ops) && b.mayResume h ch die then
        b.onHalf h (fun x => x.onChan ch (fun k =>
          (k.onDie die (fun e => { e with op := some { o with phase := .resuming } })).addTask .resume die))
      else b) s

/-- SUSPEND_GAP_ELAPSED (R213): GAP_US of run time since the confirm or the last RESUME. -/
def execSuspendGapElapsed (h : HalfId) (ch : Nat) (die : Nat) (s : State) : Host.Outcome State Fault Refusal :=
  run (fun b =>
    if b.coreRuns h then
      b.onHalf h (fun x => x.onDie ch die (fun e => { e with op := e.op.map (fun o =>
        if o.phase = .busy && (o.writes || decide (o.kind = .erase)) then { o with gapDone := true } else o) }))
    else b) s

/-! ### Timeouts (R158) -/

/-- A timeout counted; the third in a row retires the die. -/
def Block.countTimeout (b : Block) (h : HalfId) (c d : Nat) : Block :=
  let b1 := b.onHalf h (fun x => x.onDie c d (fun e => { e with timeouts := e.timeouts + 1 }))
  if 3 ≤ ((b1.half h).die c d).timeouts then b1.retireDie h c d 7 else b1

/-- OPERATION_TIMEOUT (R158): RESET LUN, which ends the operation and any that stands suspended under it. -/
def execOperationTimeout (h : HalfId) (ch : Nat) (die : Nat) (s : State) : Host.Outcome State Fault Refusal :=
  run (fun b =>
    let e := (b.half h).die ch die
    match e.current with
    | none => b
    | some o =>
      if b.coreRuns h && b.enabled h ch && (decide (o.phase = .busy) || decide (o.phase = .unsuspendable)) && decide (o.kind ≠ .reset) &&
          decide (o.kind ≠ .setup) then
        let cut := e.op.toList ++ e.under.toList
        let b1 := b.onHalf h (fun x => x.onChan ch (fun k =>
          ((k.dropTasks die).onDie die (fun e => { e with op := some (resetOp noSeq), under := none, eraseActive := false })).addTask .reset die))
        ((b1.each cut (fun a q => a.endOp q)).countTimeout h ch die).bindDue h
      else b) s

/-- SUSPEND_TIMEOUT (R158): the operation is treated as running, and no further SUSPEND goes to it. -/
def execSuspendTimeout (h : HalfId) (ch : Nat) (die : Nat) (s : State) : Host.Outcome State Fault Refusal :=
  run (fun b =>
    match ((b.half h).die ch die).op with
    | none => b
    | some o =>
      if b.coreRuns h && b.enabled h ch && decide (o.phase = .suspending) then
        (b.onHalf h (fun x => x.onDie ch die (fun e => { e with op := some { o with phase := .unsuspendable } }))).countTimeout h ch die
      else b) s

/-! ### Erase age (R223, R224) -/

/-- ERASE_AGE_TICK (R223, R224): 100 µs of an outstanding erase. -/
def execEraseAgeTick (h : HalfId) (ch : Nat) (die : Nat) (s : State) : Host.Outcome State Fault Refusal :=
  run (fun b =>
    let x := b.half h
    let e := x.die ch die
    if b.coreRuns h && e.eraseActive then
      let n := satAdd 65535 e.eraseAge 1
      let mark := decide (x.gen.ersMark ≠ 0) && decide (x.gen.ersMark ≤ n) && !e.ageMarked
      let b1 := b.onHalf h (fun x => x.onDie ch die (fun e => { e with
        eraseAge := n, starved := e.starved || mark, ageMarked := e.ageMarked || mark }))
      if mark then b1.event h 0x16 die (at' ch 0 8 + at' n 32 16) else b1
    else b) s

/-! ### Training (R176-R185) -/

/-- The bound dies of a channel with their profiles. -/
def Half.trainDies (x : Half) (c : Nat) : List (Nat × Die × Profile) :=
  (x.chan c).bound.filterMap (fun e => (x.profile? c e.1).map (fun p => (e.1, e.2, p)))

/-- A channel's bus as a full training at these codes leaves it: set-ups not confirmed start again (R24), no quick retrain is left, and the training's cycles have gone (R176,
R177). -/
def Chan.trainBus (k : Chan) (cyc : List Cycle) : Chan :=
  { k.restartSetups with tasks := k.restartSetups.tasks.filter (fun t => decide (t.kind ≠ .train)), cycles := cyc, volSel := [] }

/-- A full training that found no code at which every die passes: what each die passed is kept (R182), and the pad set has failed; where no twin can take the channel,
the channel is retired (R39, R181). -/
def Block.trainFailed (b : Block) (h : HalfId) (c : Nat) (found : List DieTrain) (codes : List Nat) (us : Nat) : Block :=
  (b.onHalf h (fun x => x.onChan c (fun k => { (k.setUp found codes).trainBus (trainCycles (x.trainDies c) codes) with
    padFail := true, trainFail := true, trained := false, trainUs := us, trainReq := 0, trainRun := [] }))).padLost h c

/-- The dies of a channel let go of after its training, and the DIE_RESETs that waited for it ended (R392): those whose reset itself has ended. -/
def Block.releaseHeld (b : Block) (h : HalfId) (c : Nat) : Block :=
  let out := ((b.half h).chan c).allOps.filter (fun o => decide (o.kind = .reset))
  (b.onHalf h (fun x => x.onChan c (fun k => { k with dies := k.dies.foldl (fun (m : Tab Die) e =>
    Tab.set Die.absent m e.1 { e.2 with held := e.2.held && e.2.allOps.any (fun o => decide (o.kind = .reset)) }) k.dies }))).endHeldResets c out

/-- A full training of a channel: each code in turn until every die passes (R176, R177, R180, R182). -/
def Block.trainFull (b : Block) (h : HalfId) (c : Nat) (found : List DieTrain) (us : Nat) : Block :=
  let x := b.half h
  let codes := x.trainTries c
  match codes.find? (fun r => (x.chan c).allPass found r) with
  | some r =>
    let tried := codes.filter (fun q => decide (r ≤ q))
    (b.onHalf h (fun x => x.onChan c (fun k => (k.trainedAt found tried r us).trainBus (trainCycles (x.trainDies c) tried)))).releaseHeld h c
  | none => b.trainFailed h c found codes us

/-- A full training can begin: every bound die is ready, not suspended and raised to code 0, and no other task that may run waits for the bus (R145, R162, R176, R185). -/
def Block.trainReady (b : Block) (h : HalfId) (c : Nat) : Bool :=
  let k := (b.half h).chan c
  k.mustPoll.isEmpty && k.bound.all (fun e => !e.2.busy && !e.2.suspended && decide (e.2.mode ≠ .boot)) &&
    k.tasks.all (fun t => decide (t.kind = .train) || !b.mayTask h c t)

/-- CHANNEL_TRAINING (R171, R176-R185): `found` is what the pattern showed at each die and code tried, `us` the time of a full training. A quick retrain has results only of dies
whose cycles have gone to the pins. -/
def execChannelTraining (h : HalfId) (ch : Nat) (found : List DieTrain) (us : Nat) (s : State) : Host.Outcome State Fault Refusal :=
  run (fun b =>
    let k := (b.half h).chan ch
    if b.coreRuns h && b.enabled h ch && !k.retired && !k.padFail && !b.pair.latched && ((b.half h).engineOf b.variant ch).isSome then
      if k.trainDue then
        if ((b.half h).trainCodes ch).isEmpty || !b.trainReady h ch then b else b.trainFull h ch found us
      else
        b.onHalf h (fun x => x.onChan ch (fun k =>
          (found.filter (fun t => k.trainRun.contains t.die && decide (t.code = k.rate))).foldl Chan.quickDie k))
    else b) s

/-- A retrain of a driven channel asked for. -/
def Block.askRetrain (b : Block) (h : HalfId) (c : Nat) (full : Bool) : Block :=
  if b.enabled h c then b.onHalf h (fun x => x.onChan c (fun k => k.askRetrain full)) else b

/-- CHN_CTL_RETRAIN (R183). -/
def execChnCtlRetrain (h : HalfId) (ch : Nat) (s : State) : Host.Outcome State Fault Refusal :=
  portRun h causeRegister (.chnCtlRetrain h ch) (fun b => b.askRetrain h ch true) s

/-- CHN_CTL_QUICK (R183). -/
def execChnCtlQuick (h : HalfId) (ch : Nat) (s : State) : Host.Outcome State Fault Refusal :=
  portRun h causeRegister (.chnCtlQuick h ch) (fun b => b.askRetrain h ch false) s

/-- RETRAIN_PERIOD (R183): the period has elapsed; none elapses where it is 0. -/
def execRetrainPeriod (h : HalfId) (ch : Nat) (s : State) : Host.Outcome State Fault Refusal :=
  run (fun b =>
    let k := (b.half h).chan ch
    if b.coreRuns h && k.trained && decide (k.retrainMs ≠ 0) then b.askRetrain h ch false else b) s

/-- MARGIN_ALARM (R184): `counts` are the shadow mismatches of each lane within 1 ms; one past MON_LIMIT sets the alarm and asks for a quick retrain of that die. -/
def execMarginAlarm (h : HalfId) (ch : Nat) (die : Nat) (counts : List Nat) (s : State) : Host.Outcome State Fault Refusal :=
  run (fun b =>
    let k := (b.half h).chan ch
    if b.coreRuns h && b.enabled h ch && k.cfg.monEn && k.trained && counts.any (fun n => decide (k.cfg.monLimit < n)) then
      b.onHalf h (fun x => x.onChan ch (fun k => { (k.askTrain [die]) with alarm := true }))
    else b) s

end Sys2Proof.Machine
end

