-- ==== Sys2Proof/Machine/Arbiter.lean ====
section
/-!
DEFINITION. The ridge arbiter: boundaries, draws, commits, the hold watchdog (R415-R427).
-/

namespace Sys2Proof.Machine

open Sys2Proof

/-- One step of a class's LFSR (R420). -/
def lfsrStep (s : BitVec 23) : BitVec 23 := (s <<< 1) ||| BitVec.ofNat 23 (bitOf (s.getLsbD 22 ^^ s.getLsbD 17))

/-- The committed tickets of a requester (R416, R417). -/
def ArbCls.tickets (c : ArbCls) (id : Nat) : Nat := Word.field (c.cur.tkts.getD (id / 8) 0) (4 * (id % 8)) 4

/-- Pending settings applied; a changed NTH sends the grant counter to 0 (R422, R424). -/
def ArbCls.applyPend (c : ArbCls) : ArbCls :=
  match c.pend with
  | none => c
  | some s => { c with cur := s, pend := none, gcnt := if s.nth = c.cur.nth then c.gcnt else 0 }

/-- What a boundary does before the draw: a written LFSR state, then pending settings, then the step (R420, R424, R425). -/
def ArbCls.boundary (c : ArbCls) : ArbCls :=
  let c1 := match c.lfsrWr with
    | none => c
    | some v => { c with lfsr := v, lfsrWr := none }
  let c2 := c1.applyPend
  { c2 with lfsr := lfsrStep c2.lfsr }

/-- The first requester, in ascending ID, at which the running ticket sum exceeds `r`. -/
def ArbCls.lottery (c : ArbCls) (l : List Nat) (sum r : Nat) : Option Nat :=
  match l with
  | [] => none
  | i :: rest => if r < sum + c.tickets i then some i else ArbCls.lottery c rest (sum + c.tickets i) r

/-- The winner among the requesters, given in the order they were raised, and the grant counter after (R421). -/
def ArbCls.draw (c : ArbCls) (field : List Nat) : Nat × Option Nat :=
  if c.cur.nth ≤ c.gcnt + 1 then (0, field.head?)
  else
    let t := (field.map c.tickets).sum
    if t = 0 then (c.gcnt + 1, field.head?)
    else (c.gcnt + 1, c.lottery (sortOn (fun i => i) field) 0 (c.lfsr.toNat % t))

/-- One boundary with its draw: the class after, and the requester granted; a grant takes its request off the list (R418-R422). -/
def ArbCls.grant (c : ArbCls) (field : List Nat) : ArbCls × Option Nat :=
  let c1 := c.boundary
  let d := c1.draw field
  match d.2 with
  | none => ({ c1 with gcnt := d.1 }, none)
  | some i => ({ c1 with gcnt := d.1, reqs := c1.reqs.filter (fun j => decide (j ≠ i)) }, some i)

/-- The oldest tenure ends where every port is held: its last beat is the port's boundary (R418). -/
def ArbCls.freePort (c : ArbCls) (ports : Nat) : ArbCls :=
  if ports ≤ c.held.length then { c with held := c.held.drop 1 } else c

/-- Requesters that may be granted: those that hold no tenure (R419). -/
def ArbCls.field (c : ArbCls) : List Nat := c.reqs.filter (fun i => !c.held.contains i)

/-- A pool port's boundary (R418-R421). -/
def ArbCls.poolBoundary (c : ArbCls) (ports : Nat) : ArbCls :=
  let c1 := c.freePort ports
  if c1.field.isEmpty then c1
  else
    let r := c1.grant c1.field
    match r.2 with
    | none => r.1
    | some i => { r.1 with held := r.1.held ++ [i] }

/-- The half with its arbiter changed. -/
def Half.onArb (x : Half) (f : Arb → Arb) : Half := { x with arb := f x.arb }

/-- POOL_ARBITRATION (R418-R421, R427): nothing is granted once the half has begun to enter PS2. -/
def execPoolArbitration (h : HalfId) (s : State) : Host.Outcome State Fault Refusal :=
  run (fun b =>
    if b.coreRuns h && !(b.half h).falling then b.onHalf h (fun x => x.onArb (fun a => { a with pool := a.pool.poolBoundary (Config.poolPorts b.variant) }))
    else b) s

/-! ### Decode cores (R246, R417) -/

/-- The lowest-numbered free core of a kind in service. -/
def Half.freeCore (x : Half) (soft : Bool) : Option Nat :=
  (sortOn (fun k => k) (if soft then x.dec.soft else x.dec.hard)).find? (fun k => !x.dec.busy.any (fun e => decide (e.id = coreId soft k)))

/-- Codewords of a half's commands that wait for a core of a kind on channel `c`, as (number, place in the command). -/
def Half.waitingCws (x : Half) (c : Nat) (soft : Bool) : List (Nat × Nat) :=
  (x.que.readers.map (fun e => ((List.range e.2.cws.length).filter (fun i =>
    match e.2.cws[i]? with
    | none => false
    | some k => decide (recCh k.idx = c) && decide (k.st = if soft then .soft else .decode))).map (fun i => (e.1, i)))).flatten

/-- The order behind a channel's request: the half's own line fills, whose numbers lie above those of the counter, then the commands (R246). -/
def coreTurn (seq : Nat) : Nat := if noSeq ≤ seq then 0 else seq + 1

/-- The codewords behind a channel's request: line fills first, then in ascending number and then slot, without those a core already works on (R246). -/
def Block.behind (b : Block) (c : Nat) (soft : Bool) : List (Nat × Nat) :=
  (sortOn (fun e => coreTurn e.1) (b.ha.waitingCws c soft ++ b.hb.waitingCws c soft)).filter (fun e =>
    !(b.ha.dec.busy ++ b.hb.dec.busy).any (fun w => decide (w.seq = e.1) && decide (w.place = e.2)))

/-- A core at its start: it reads its iteration limit and magnitudes (R244, R257, R669). -/
def Dec.startJob (d : Dec) (soft : Bool) (id : Nat) (w : Nat × Nat) : CoreJob :=
  { id := id, seq := w.1, place := w.2, iter := if soft then d.softIter else d.hardIter, llr := d.llr }

/-- A boundary of the decode class at which a core of a kind is free: the drawn channel's first codeword takes it (R417, R421). -/
def Block.grantCore (b : Block) (h : HalfId) (soft : Bool) : Block :=
  let x := b.half h
  let field := x.arb.dec.reqs.filter (fun i => decide (16 ≤ i) == soft)
  match (if field.isEmpty then none else x.freeCore soft) with
  | none => b
  | some k =>
    let r := x.arb.dec.grant field
    let b1 := b.onHalf h (fun x => x.onArb (fun a => { a with dec := r.1 }))
    match r.2 with
    | none => b1
    | some id =>
      match b.behind (id % 16) soft with
      | [] => b1
      | w :: rest =>
        b1.onHalf h (fun x =>
          let y := { x with
            dec := { x.dec with busy := x.dec.busy ++ [x.dec.startJob soft (coreId soft k) w] }
            arb := { x.arb with dec := { x.arb.dec with held := x.arb.dec.held ++ [coreId soft k] } } }
          let z := y.askPool (coreId soft k)
          if rest.isEmpty then z else z.askCore id)

/-- DECODE_ARBITRATION (R417, R421, R427). -/
def execDecodeArbitration (h : HalfId) (soft : Bool) (s : State) : Host.Outcome State Fault Refusal :=
  run (fun b => if b.coreRuns h && !(b.half h).falling then b.grantCore h soft else b) s

/-! ### The hold watchdog (R426) -/

/-- A holder treated as failed, by its pool-port number: an engine or a core retired, or the half lost (R426). -/
def Block.failHolder (b : Block) (h : HalfId) (who : Nat) : Block :=
  if who < 16 then b.retireEngine h who 2 0
  else if 18 ≤ who && who < 28 then b.retireCore h false (who - 18) 2
  else if 28 ≤ who && who < 32 then b.retireCore h true (who - 28) 2
  else b.halfFault h

/-- The watchdog's record (ARB_STAT), and the tenure or grant ended. -/
def Arb.fire (a : Arb) (dec : Bool) (who : Nat) : Arb :=
  let drop := fun (c : ArbCls) => { c with held := c.held.filter (fun i => decide (i ≠ who)) }
  { a with fired := true, who := who, cls := dec, fireCnt := satAdd 65535 a.fireCnt 1
           pool := if dec then a.pool else drop a.pool, dec := if dec then drop a.dec else a.dec }

/-- HOLD_WATCHDOG (R426, R427). -/
def execHoldWatchdog (h : HalfId) (dec : Bool) (who : Nat) (s : State) : Host.Outcome State Fault Refusal :=
  run (fun b =>
    let a := (b.half h).arb
    if b.coreRuns h && (if dec then a.dec.held else a.pool.held).contains who then
      (b.onHalf h (fun x => x.onArb (fun a => a.fire dec who))).failHolder h who
    else b) s

/-! ### Settings (R424, R425) -/

/-- A class's shadow committed: at once where no request is pending, at its next boundary otherwise (R424). -/
def ArbCls.commit (c : ArbCls) : ArbCls :=
  let d := { c with pend := some c.shadow }
  if c.reqs.isEmpty then d.applyPend else d

/-- ARB_COMMIT_GO (R424). -/
def execArbCommitGo (h : HalfId) (s : State) : Host.Outcome State Fault Refusal :=
  portRun h causeRegister (.arbCommitGo h) (fun b => b.onHalf h (fun x => x.onArb (fun a => { a with pool := a.pool.commit, dec := a.dec.commit }))) s

/-- An LFSR written: zero is stored as 1 (R425). -/
def ArbCls.setLfsr (c : ArbCls) (w : Word) : ArbCls :=
  let v := BitVec.ofNat 23 (w.field 0 23)
  { c with lfsrWr := some (if v = 0 then 1 else v) }

/-- One of the LFSRs of a half written. -/
def Arb.writeLfsr (a : Arb) (dec : Bool) (w : Word) : Arb :=
  if dec then { a with dec := a.dec.setLfsr w } else { a with pool := a.pool.setLfsr w }

/-- ARB_LFSR_WRITE (R425). -/
def execArbLfsrWrite (h : HalfId) (dec : Bool) (value : Word) (s : State) : Host.Outcome State Fault Refusal :=
  portRun h causeRegister (.arbLfsrWrite h dec value) (fun b => b.onHalf h (fun x => x.onArb (fun a => a.writeLfsr dec value))) s

end Sys2Proof.Machine
end

