-- ==== Sys2Proof/Machine/Bringup.lean ====
section
/-!
DEFINITION. Meanings of the bring-up commands: discovery, the checkpoint search, microcode, record restore, synchronisation, admin
ready (19, 04, 16).
-/

namespace Sys2Proof.Machine

open Sys2Proof

/-! ### Discovery (R145-R151) -/

/-- The entry of a die-family table that a READ ID matches (R148). -/
def familyOf (table : List Family) (id : BitVec 64) : Option Family := table.find? (fun f => decide (f.readId = id))

/-- The channel-discovery notice of a die (R484). -/
def Block.discoveryNotice (b : Block) (h : HalfId) (c d : Nat) (readId : BitVec 64) : Block :=
  b.event h 0x17 d (at' c 0 8 + readId.toNat * 2 ^ 32)

/-- What discovery leaves of a die: one without 20 ns SDR cycles, with another number of row address cycles than R150 gives its family's geometry, or without a family entry is treated
as absent (R145, R148, R150); any other is raised to code 0, with its volume address where it hangs on an enable chain (R151). -/
def foundDie (table : List Family) (f : DieFind) (old : Die) : Die :=
  match familyOf table f.readId with
  | none => { Die.absent with readId := f.readId, retired := old.retired }
  | some fam =>
    if f.sdr20 && decide (f.cycles = rowCycles fam.profile) then
      { Die.absent with present := true, vol := if f.volume then some f.die else none, toggle := f.toggle, zq := f.zq, mode := .sdr, family := some fam
                        readId := f.readId, ext := f.ext.bind ExtPage.extension, retired := old.retired, pulseDue := true, featDue := true }
    else { Die.absent with readId := f.readId, retired := old.retired }

/-- One die's finding taken over, its discovery on the pins, with its notice where it stays unbound. -/
def Block.takeFind (b : Block) (h : HalfId) (table : List Family) (f : DieFind) : Block :=
  let d := foundDie table f ((b.half h).die f.ch f.die)
  let b1 := b.onHalf h (fun x => x.onChan f.ch (fun k =>
    { (k.onDie f.die (fun _ => d)) with cycles := k.cycles ++ discoverCycles f (familyOf table f.readId) }))
  if d.present then b1 else b1.discoveryNotice h f.ch f.die f.readId

/-- DIE_DISCOVERY (R145, R148, R151, R172): on the channels the half drives, below GEN_STRAP.DIES + 1. -/
def execDieDiscovery (h : HalfId) (finds : List DieFind) (table : List Family) (s : State) :
    Host.Outcome State Fault Refusal :=
  run (fun b =>
    let x := b.half h
    if decide (x.boot.stage = 2) && b.coreRuns h then
      (b.onHalf h (fun x => x.onDriven (fun k => { k with cycles := [] }))).each
        (finds.filter (fun f => b.enabled h f.ch && decide (f.die < strapDies x.boot.strap))) (fun a f => a.takeFind h table f)
    else b) s

/-! ### The checkpoint search (R627, R628) -/

/-- The profile of a found die's family (R148). -/
def Half.familyProfile (x : Half) (c d : Nat) : Option Profile := (x.die c d).family.map Family.profile

/-- The cycles of the reads of a block's factory mark on one plane: the first spare byte, at column 16,384, of its first and of its last page (R119, R149). -/
def markCycles (p : Profile) (r : SpareRead) : List Cycle :=
  ([0, p.pages - 1].map (fun n =>
    [Cycle.cmd 0x00, .addr 0x00, .addr 0x40] ++ rowBytes p { slot := 0, page := n, block := r.block, plane := r.plane, lun := (dieTarget p r.die).2, target := (dieTarget p r.die).1, channel := 0 } ++
      [.cmd 0x30, .busy, .dout 1])).flatten

/-- The reads of factory marks, on their channels' pins (R119). -/
def Block.showMarks (b : Block) (h : HalfId) (l : List SpareRead) : Block :=
  b.onHalf h (fun x => l.foldl (fun y r =>
    match y.familyProfile r.ch r.die with
    | none => y
    | some p => y.onChan r.ch (fun k => { k with
        cycles := selectCycles k (k.die r.die) p r.die ++ markCycles p r, volSel := k.selects p { kind := .arrayCmd, die := r.die } })) x)

/-- CHECKPOINT_SEARCH (R627, R628): the newest sealed checkpoint gives the region descriptors and the drive seed; without one the half is blank,
and factory marks retire units (R119). -/
def execCheckpointSearch (h : HalfId) (copies : List Ckpt) (marks : List SpareRead) (s : State) :
    Host.Outcome State Fault Refusal :=
  run (fun b =>
    let x := b.half h
    if decide (x.boot.stage = 2) && b.coreRuns h then
      let b := b.showMarks h marks
      match newestSealed (copies.filter (fun c => decide (c.half = h))) with
      | some c =>
        (b.onHalf h (fun x => { x with boot := { x.boot with stage := 3 }
                                       win := { x.win with desc := c.regions } })).onPair (fun p => p.takeSeed (c.seed, c.nextSeq.toNat))
      | none =>
        b.onHalf h (fun x => { x with boot := { x.boot with stage := 3, blank := true }
                                      store := { x.store with recs := marks.foldl (fun m e => applyMark (x.familyProfile e.ch e.die) [] m e) x.store.recs } })
    else b) s

/-! ### Microcode and profiles (R629-R631, R636) -/

/-- The closed microcode regions, higher COMMIT_SEQ first (R140). -/
def ucodeRegions (t : Tab RgnDesc) : List (Nat × RgnDesc) :=
  let l := List.filter (fun e => decide (e.2.kind = .ucode) && decide (e.2.state = .closed)) t
  match l with
  | [p, q] => if p.2.commitSeq < q.2.commitSeq then [q, p] else [p, q]
  | other => other

/-- The first of the regions of which a copy can be read (R17, R140). -/
def chooseUcode (l : List (Nat × RgnDesc)) (good : List (Nat × Bool × Bool)) : Option (Nat × RgnDesc) :=
  l.find? (fun e => good.any (fun g => decide (g.1 = e.1) && (g.2.1 || g.2.2)))

/-- A half's microcode taken from the regions given, or from ROM where none is closed and readable; what RGN_UCODE and GEN_UCODE then read (R140, R629). With the ROM image ACTIVE
and FALLBACK read 0, no rule giving them another value (DESIGN CHOICE, log entry 95). -/
def Block.takeUcode (b : Block) (h : HalfId) (desc : Tab RgnDesc) (good : List (Nat × Bool × Bool)) : Block :=
  let regions := ucodeRegions desc
  let pick := if (b.half h).boot.blank then none else chooseUcode regions good
  b.onHalf h (fun x => { x with
    boot := { x.boot with ucode := if pick.isSome then 1 else 2, ucodeSeq := pick.elim 0 (fun e => e.2.commitSeq) }
    win := { x.win with active := pick.elim 0 Prod.fst
                        fallback := match pick, regions.head? with
                          | some p, some r => decide (p.1 ≠ r.1)
                          | _, _ => false } })

/-- A unit that fails its self-test at bring-up, retired with cause 0x04 (R631). -/
def Block.failEngine (b : Block) (h : HalfId) (e : Nat) : Block :=
  (b.onHalf h (fun x => x.onEngine e (fun _ => Engine.idle .retired))).retireNotice h 0 e 4 false
    0 0

/-- A hard or soft core that fails its self-test (R631). -/
def Block.failCore (b : Block) (h : HalfId) (soft : Bool) (k : Nat) : Block :=
  (b.onHalf h (fun x => { x with dec :=
    if soft then { x.dec with soft := x.dec.soft.filter (fun j => decide (j ≠ k)) }
    else { x.dec with hard := x.dec.hard.filter (fun j => decide (j ≠ k)) } })).retireNotice h (if soft then 2 else 1) k 4
      false 0 0

/-- Families of the dies found on a half, in ascending family index, each once (R630). -/
def Half.families (x : Half) (table : List Family) : List Family :=
  table.filter (fun f => x.twn.drives.any (fun c => List.any (x.chan c).dies (fun e =>
    e.2.present && decide (e.2.readId = f.readId))))

/-- Families sorted by index. -/
def sortFamilies (l : List Family) : List Family := sortOn Family.index l

/-- A die bound to its family's slot, unless that breaks the agreement of its channel's dies (R108, R630); one whose READ ID the
table does not know is treated as absent (R148). -/
def bindDie (fams : List Family) (first : Option Profile) (e : Die) : Die :=
  match (List.range fams.length).find? (fun i => match fams[i]? with
    | none => false
    | some f => decide (f.readId = e.readId)) with
  | none => { e with present := false, family := none, slot := none }
  | some i =>
    match fams[i]? with
    | none => e
    | some f =>
      if first.all f.profile.agrees then { e with family := some f, slot := some i, pulseDue := true, featDue := true }
      else { e with present := false, family := some f, slot := none }

/-- The dies of a channel bound in ascending index, to agree with the first of them (R108, R630). -/
def Chan.bindAll (k : Chan) (fams : List Family) : Chan :=
  let found := List.filter (fun e => e.2.present) k.dies
  let first := (found.findSome? (fun e => fams.find? (fun f => decide (f.readId = e.2.readId)))).map Family.profile
  { k with dies := found.foldl (fun (m : Tab Die) e => Tab.modify Die.absent m e.1 (bindDie fams first)) k.dies }

/-- Profiles loaded and dies bound (R630). -/
def Half.bindProfiles (x : Half) (table : List Family) : Half :=
  let fams := (sortFamilies (x.families table)).take 16
  let y := x.onStore (fun s => { s with profiles := (List.range fams.length).foldl (fun (m : Tab Profile) i =>
    match fams[i]? with
    | none => m
    | some f => Tab.set 0 m i f.profile) [] })
  y.onDriven (fun k => k.bindAll fams)

/-- Every die that a binding has left unbound, by channel and index: it answered discovery, and the table loaded does not know it or R108 does not let it be bound. -/
def Half.unboundDies (old new : Half) : List (Nat × Nat) :=
  (new.twn.drives.map (fun c =>
    (List.filter (fun e => e.2.present && !(new.die c e.1).present) (old.chan c).dies).map (fun e => (c, e.1)))).flatten

/-- Profiles loaded and dies bound, the discovery notice naming each that stays unbound (R148, R484, R630). -/
def Block.bindTable (b : Block) (h : HalfId) (table : List Family) : Block :=
  let x := b.half h
  let y := x.bindProfiles table
  (b.onHalf h (fun _ => y)).each (x.unboundDies y) (fun a e => a.discoveryNotice h e.1 e.2 (x.die e.1 e.2).readId)

/-- The dies of sites 0 and 1 (R552): site 0 on BOOT_CH, site 1 on the lowest-numbered other populated home channel; then another eligible die;
then the one there is. -/
def Half.sites (v : Variant) (h : HalfId) (x : Half) : Option ((Nat × Nat) × (Nat × Nat)) :=
  let boot := 8 * h.code + bootCh x.boot.strap
  let homes := populated v h x.boot.strap
  let others := homes.filter (fun c => decide (c ≠ boot))
  let all := x.eligibleDies boot ++ (others.map x.eligibleDies).flatten
  match all.head? with
  | none => none
  | some s0 =>
    let off := ((homes.filter (fun c => decide (c ≠ s0.1))).map x.eligibleDies).flatten
    let same := (x.eligibleDies s0.1).filter (fun d => decide (d ≠ s0))
    some (s0, (off ++ same).headD s0)

/-- The flysheet units a blank half assigns itself: the four highest-numbered units not retired of each site's die, in roles 0, 2, 4, 6 at site 0
and 1, 3, 5, 7 at site 1, with FLY set (R551, R552). -/
def Half.assignFly (v : Variant) (h : HalfId) (x : Half) : Half :=
  match x.sites v h with
  | none => x
  | some (a, c) =>
    let unitsOf := fun (d : Nat × Nat) => (x.profile? d.1 d.2).elim [] (fun p => x.freeUnits d.1 d.2 p.units)
    let u0 := (unitsOf a).take 4
    let u1 := if a = c then ((unitsOf a).drop 4).take 4 else (unitsOf c).take 4
    let roles := (List.range 8).foldl (fun (m : Tab Nat) k =>
      match (if k % 2 = 0 then u0 else u1)[k / 2]? with
      | none => m
      | some i => m.put k i) []
    let y := x.onFly (fun f => { f with units := roles, oneSite := decide (a = c) })
    roles.foldl (fun z e => z.setRec e.2 { z.rec? e.2 with fly := true }) y

/-- The halt cause of a half short of its minimum service set (R636), if any. A standby half needs no pad set (R598). -/
def Half.haltCauseNow (v : Variant) (h : HalfId) (x : Half) : Option Nat :=
  if (x.liveEngines v).isEmpty then some 2
  else if !x.twn.drives.any (fun c => !(x.chan c).padFail) && !x.boot.startedDetached && decide (x.twn.st ≠ .standby) then some 3
  else if x.dec.hard.isEmpty then some 4
  else if x.pool.live.isEmpty then some 5
  else if x.boot.blank && (x.sites v h).isNone then some 6
  else none

/-- The half that stays when its twin halts in bring-up takes the twin's home channels as populated (R92, R633): once its pads were enabled it goes
back to discovery, which confirms the dies of those channels. One that serves already takes them with YIELDED_CHANNELS_TAKE. -/
def Block.leftAlone (b : Block) (h : HalfId) : Block :=
  let x := b.half h
  if x.boot.latched && !x.boot.strapErr && !x.boot.failed && !x.boot.twinAbsent && decide (x.boot.stage ≤ 6) && decide (x.twn.st ≠ .standby) then
    let b1 := b.takeAbsent h
    if 2 ≤ x.boot.stage then (b1.takeAll h).onHalf h (fun y => { y with boot := { y.boot with stage := 2, blank := false } }) else b1
  else b

/-- A half halts in bring-up for want of its minimum service set; its twin stays (R633, R636). One that drove nothing leaves nothing to take. -/
def Block.haltShort (b : Block) (h : HalfId) (cause : Nat) : Block :=
  if (b.half h).twn.drives.isEmpty then b.halt h cause else (b.halt h cause).leftAlone h.twin

/-- MICROCODE_LOAD (R17, R21, R140, R629-R631, R633, R636): the image chosen, the units self-tested, the profiles bound, the engines bound. `good` tells which
copies of which regions decode and pass their CRC, `table` is the die-family table of the image. -/
def execMicrocodeLoad (h : HalfId) (good : List (Nat × Bool × Bool)) (badEng badHard badSoft : List Nat)
    (table : List Family) (s : State) : Host.Outcome State Fault Refusal :=
  run (fun b =>
    let x := b.half h
    let standby := decide (x.twn.st = .standby) && decide (1 ≤ x.boot.stage) && decide (x.boot.stage ≤ 3)
    if (decide (x.boot.stage = 3) || standby) && b.coreRuns h then
      let v := b.variant
      let b1 := (b.takeUcode h x.win.desc good).onHalf h (fun x => { x with
        boot := { x.boot with stage := if standby then 3 else 4 }
        engines := (List.range (Config.engines v)).foldl (fun (m : Tab Engine) e =>
          Tab.set Engine.unloaded m e (Engine.idle .spare)) x.engines })
      let b2 := b1.each badEng (fun a e => a.failEngine h e)
      let b3 := b2.each badHard (fun a k => a.failCore h false k)
      let b4 := b3.each badSoft (fun a k => a.failCore h true k)
      let b5 := (b4.bindTable h table).onHalf h (fun x => x.bindEngines v)
      let b6 := if x.boot.blank then b5.onHalf h (fun x => x.assignFly v h) else b5
      match (b6.half h).haltCauseNow v h with
      | some c => b6.haltShort h c
      | none => (b6.onHalf h (fun x => { x with boot := { x.boot with
          degraded := x.degradedNow v x.boot.twinAbsent } })).notePool h
    else b) s

/-! ### Record restore (R567-R570, R632) -/

/-- Steps 1 to 5 of R567; a half whose twin is absent restores the twin's records too (R633). -/
def Block.restoreFirst (b : Block) (h : HalfId) (slots : List Ckpt) (copies : List FlyRecord)
    (samples : List UnitSample) (marks : List SpareRead) (flash : List FlashPage) : Block :=
  let b := b.showMarks h marks
  let x := b.half h
  let wide := x.boot.twinAbsent || x.twn.drives.any (fun c => decide (Config.homeOf c ≠ h))
  let b1 := b.onHalf h (fun x =>
    let y := x.restoreFrom h true slots copies samples marks
    let z := if wide then y.restoreFrom h.twin false slots copies samples marks else y
    { z with boot := { z.boot with stage := 6 }, store := { z.store with written := true } })
  let top := Nat.max (highestSeq h slots copies) (if wide then highestSeq h.twin slots copies else 0)
  (b1.rebuildAccs h (List.range 64) flash).onPair (fun p => { p.takeSeed (restoredSeed h slots copies (p.seed, p.seedSince)) with
    nextSeq := BitVec.ofNat 64 (Nat.max p.nextSeq.toNat top) })

/-- The restore before admin ready: nothing to restore of a blank drive. -/
def Block.restoreNow (b : Block) (h : HalfId) (slots : List Ckpt) (copies : List FlyRecord)
    (samples : List UnitSample) (marks : List SpareRead) (flash : List FlashPage) : Block :=
  if (b.half h).boot.blank then b.onHalf h (fun x => { x with boot := { x.boot with stage := 6 }, store := { x.store with written := true } })
  else b.restoreFirst h slots copies samples marks flash

/-- Every enabled loop slot started again at an exit from PS4, no fallback standing (R489, R492). -/
def Block.restartLoops (b : Block) (h : HalfId) : Block :=
  let on := (List.filter (fun e => e.2.en) (b.half h).loops.tab).map Prod.fst
  (b.onHalf h (fun x => x.onLoops (fun l => { l with fallback := [] }))).each on (fun a n => a.startLoop h n)

/-- Step 8 of R567, its erases and pad pages done: a new checkpoint sealed in both copies, the record units erased, log 0x04 and source 118. -/
def Block.restoreLast (b : Block) (h : HalfId) : Block :=
  let f := (b.half h).fly
  if f.reErase.isEmpty && f.padDue.isEmpty then
    ((b.onHalf h (fun x => { x with
      boot := { x.boot with recovering := false }, fly := { x.fly with record := [], sealed := 0 } })).sealCkpt h f.journal.length).raise h 118
  else b

/-- RECORD_RESTORE (R567-R570, R626, R632, R635): steps 1 to 5 before admin ready, steps 6 to 8 once it is reached and RECOVERING is set. A brown-out
latched meanwhile ends it (R568). After an exit from PS4 the loop slots start again with it (R492, R543). `leaves` are the pages read of the flysheet record and spare units, `samples` what a recovery without its
journal senses, `marks` what the reads of factory marks find, `flash` what the reads of open
stripes' pages deliver (R119, R301). The accumulators, which step 7 rebuilds once its pages are padded, are rebuilt before, the pad payload standing for a page still to be
padded: its read would deliver that (DEDUCED, log entry 102). -/
def execRecordRestore (h : HalfId) (slots : List Ckpt) (leaves : List FlyLeaf) (samples : List UnitSample)
    (marks : List SpareRead) (flash : List FlashPage) (s : State) : Host.Outcome State Fault Refusal :=
  run (fun b =>
    let x := b.half h
    let copies := flyRecords leaves
    if !b.coreRuns h || b.pair.latched then b
    else if x.boot.stage = 4 then b.restoreNow h slots copies samples marks flash
    else if x.boot.stage = 5 then (b.restoreNow h slots copies samples marks flash).restartLoops h
    else if x.boot.recovering then b.restoreLast h
    else b) s

/-! ### Synchronisation and admin ready (R633, R634) -/

/-- The mirror partitions of half `h` made current from its twin's own state, a poisoned word staying poisoned (R466, R599, R633). -/
def Block.fillMirror (b : Block) (h : HalfId) : Block :=
  let t := b.half h.twin
  let kept := fun (e : Nat × Bool) => decide (b.keeper (recCh e.1) = some h.twin)
  b.onHalf h (fun x => { x with
    store := { x.store with poisoned := x.store.poisoned.filter (fun e => !kept e) ++ t.store.poisoned.filter kept }
    mir := { x.mir with
      written := true, recs := t.store.recs, queues := t.que.queues ++ t.que.adopted.map (fun e => (e.1 + 512, e.2)), ctxs := t.que.ctxs, stripes := t.par.stripes,
      profiles := t.store.profiles, done := [], regions := t.win.desc,
      chans := List.filter (fun e => t.drivesCh e.1) t.chans }
    fly := { x.fly with mirror := t.fly.journal, mirBase := t.fly.jbase }
    twn := { x.twn with stale := false } })

/-- Both halves attached, with mirrors current and half A the counter's owner (R398, R599, R633). -/
def Block.attachBoth (b : Block) : Block :=
  let b1 := (b.fillMirror .a).fillMirror .b
  let up := fun (x : Half) => { x with
    twn := { x.twn with st := .attached, sent := [], applied := 0, fails := 0 }
    pwr := { x.pwr with twinState := 0, watching := false } }
  (((b1.onHalf .a up).onHalf .b up).onPair (fun p => { p with owner := .a }))

/-- MIRROR_SYNC (R23, R633): at the sync step of both halves' bring-up. -/
def execMirrorSync (s : State) : Host.Outcome State Fault Refusal :=
  run (fun b =>
    if decide (b.ha.boot.stage = 6) && decide (b.hb.boot.stage = 6) && !b.pair.frozen && b.ha.boot.coreLock &&
        b.hb.boot.coreLock then (b.attachBoth.serveUnbound .a).serveUnbound .b
    else b) s

/-- Steps 6 to 8 of R567 begin where a restore has left them to do. -/
def Block.recoverFrom (b : Block) (h : HalfId) (due : Bool) : Block := if due then b.startRecovery h else b

/-- ADMIN_READY (R626 step 10, R634, R637): `t100us` is the time since reset in units of 100 µs, saturating. -/
def execAdminReady (h : HalfId) (t100us : Nat) (s : State) : Host.Outcome State Fault Refusal :=
  run (fun b =>
    let x := b.half h
    let v := b.variant
    let alone := decide (x.twn.st ≠ .attached)
    if decide (x.boot.stage = 6) && b.coreRuns h && decide (x.twn.st ≠ .standby) then
      ((if alone then b.serveUnbound h else b).onHalf h (fun x => { x with boot := { x.boot with
          stage := 7, tReady := Nat.min t100us 65535, recovering := decide (x.fly.phase = 4)
          degraded := x.degradedNow v alone } })).driveWp h (!x.unformatted) |>.recoverFrom h (decide (x.fly.phase = 4))
    else b) s

end Sys2Proof.Machine
end

