-- ==== Sys2Proof/Machine/Ladder.lean ====
section
/-!
DEFINITION. Meanings of the read ladder's events: a codeword that arrives, a core that reports, a stripe reconstruction (R237-R261,
R289-R292).
-/

namespace Sys2Proof.Machine

open Sys2Proof

/-- The payload that raw payload bits of a codeword descramble to (R233, R234). -/
def Block.descramble (b : Block) (k : Cw) (raw : BitVec 33024) : Payload :=
  match b.placeOf k.idx k.page with
  | none => payloadOf raw
  | some t => payloadOf (scramble (b.driveOf t) (BitVec.ofNat 64 (t.paddr k.page k.slot)) raw)

/-- W of a codeword's die. -/
def Block.cwWidth (b : Block) (k : Cw) : Nat := (b.placeOf k.idx k.page).elim 4608 (fun t => t.prof.cwBytes)

/-- A codeword's image classified (R237, R238): erased by its zero count, clean by its syndrome, or on to a hard core. -/
def Block.classify (b : Block) (g : HalfId) (k : Cw) (raw : BitVec 36864) : Cw :=
  let z := zeroBits raw (b.cwWidth k)
  if z ≤ (b.half g).dec.erasedMax then { k with st := .done, fin := some .erased, bits := z, data := erasedPayload }
  else if isCodeword (b.cwShort k) raw then
    { k with st := .done, fin := some .clean, bits := 0, data := b.descramble k (BitVec.ofNat 33024 raw.toNat) }
  else { k with st := .decode, step := Nat.max 2 k.step }

end Sys2Proof.Machine

namespace Sys2Proof

open Machine

/-- One of the paired senses of step 4 arrived: the other is asked for, or a soft core (R255, R256). -/
def Cw.sense (k : Cw) : Cw :=
  if k.senses = 0 then { k with senses := 1, entry := 32 + k.best, st := .sensing } else { k with senses := 2, st := .soft }

end Sys2Proof

namespace Sys2Proof.Machine

open Sys2Proof

/-- What an arrived image makes of its codeword: it enters its set, and is classified but for READ_RAW's, a sample and the paired senses (R237, R238,
R240, R256, R269, R375). -/
def Block.arrived (b : Block) (g : HalfId) (c : Ctx) (k : Cw) (raw : BitVec 36864) : Cw :=
  if c.opcode = .readRaw then { k with st := .done, raw := raw }
  else if k.role = .sample then { k with st := .done, bits := zeroBits raw (b.cwWidth k) }
  else if k.step = 4 then (if k.senses = 0 then { k with low := raw } else { k with high := raw }).sense
  else if k.step = 3 then b.classify g { k with again := raw } raw
  else b.classify g { k with raw := raw } raw

/-- The injector works on reads of channel `c` (R271). -/
def Dec.injects (d : Dec) (c : Nat) : Bool := d.inj.bit 0 && (d.inj.bit 6 || decide (d.inj.field 2 4 = c))

/-- Which threshold a sense is made at, for the injector's mode 1 (R271). -/
def senseAt (k : Cw) : SenseAt := if k.step = 4 then (if k.senses = 0 then .low else .high) else .mid

/-- The bits of a sense as they enter the syndrome checker: cut to the codeword's length, and altered where the injector is enabled for the channel (R237,
R271). -/
def Block.entering (b : Block) (g : HalfId) (seq : Nat) (k : Cw) (raw : BitVec 36864) : Block × BitVec 36864 :=
  let d := (b.half g).dec
  let n := codeBits (b.cwShort k)
  let cut := BitVec.ofNat 36864 (raw.toNat % 2 ^ n)
  if d.injects (recCh k.idx) then
    if d.inj.bit 1 then
      (b, injectVoltage n (d.injSoft.field 0 12) (d.injSoft.field 16 12) seq k.paddr.toNat (senseAt k) cut)
    else ({ b with freeUses := b.freeUses + 1 }, injectFlip n (d.inj.field 16 16) b.freeUses cut)
  else (b, cut)

/-- CODEWORD_ARRIVAL (R237, R238, R256, R269): the last bit of an image of codeword `i`; `raw` is the image on the pins. -/
def execCodewordArrival (h : HalfId) (seq : Nat) (i : Nat) (raw : BitVec 36864) (s : State) : Host.Outcome State Fault Refusal :=
  run (fun b =>
    match b.ctxOf seq with
    | none => b
    | some (_, c) =>
      match c.cws[i]? with
      | none => b
      | some k =>
        if b.coreRuns h && decide (b.driver (recCh k.idx) = some h) && decide (k.st = .arriving) then
          let e := b.entering h seq k raw
          let j := e.1.arrived h c k e.2
          let b1 := e.1.putCw seq i j
          let b2 := if j.st = .decode then b1.askDecode k.idx false else if j.st = .soft then b1.askDecode k.idx true else b1
          b2.settle seq
        else b) s

/-- How a codeword that a core decoded has ended (R249, R266): its bits are those by which the decoded codeword differs from the image decoded, the RAW image
in step 4. -/
def Block.decoded (b : Block) (k : Cw) (soft : Bool) (image : BitVec 36864) : Cw :=
  { k with st := .done, fin := some (if soft then .soft else if k.step = 3 then .retry else .hard)
           bits := flipped (if soft then k.raw else k.input) image
           data := b.descramble k (BitVec.ofNat 33024 image.toNat) }

/-- What a core makes of a codeword: a fixed function of its images and of the limits it read at its start (R243, R244, R669). -/
def CoreJob.decode (j : CoreJob) (soft short : Bool) (k : Cw) : Decoded :=
  if soft then softDecode short k.raw k.low k.high j.llr j.iter else hardDecode short k.input j.iter

/-- A core's grant ended. -/
def Half.coreDone (x : Half) (id : Nat) : Half :=
  { x with
    dec := { x.dec with busy := x.dec.busy.filter (fun e => decide (e.id ≠ id)) }
    arb := { x.arb with dec := { x.arb.dec with held := x.arb.dec.held.filter (fun i => decide (i ≠ id)) } } }

/-- DECODE_DONE (R39, R40, R242, R244, R249-R254, R669): a core reports. A success that the final syndrome check refuses (`final` false) is the core's
fault: it is retired, and the codeword enters another core from its held image. -/
def execDecodeDone (h : HalfId) (soft : Bool) (core : Nat) (final : Bool) (s : State) : Host.Outcome State Fault Refusal :=
  run (fun b =>
    let id := coreId soft core
    match (b.half h).dec.busy.find? (fun e => decide (e.id = id)) with
    | none => b
    | some w =>
      if !b.coreRuns h then b
      else
        match b.ctxOf w.seq with
        | none => b.onHalf h (fun x => x.coreDone id)
        | some (_, c) =>
          match c.cws[w.place]? with
          | none => b.onHalf h (fun x => x.coreDone id)
          | some k =>
            let d := w.decode soft (b.cwShort k) k
            if d.ok && !final then b.retireCore h soft core 8
            else
              let b1 := b.onHalf h (fun x => x.coreDone id)
              let j := if d.ok then b1.decoded k soft d.image
                else if soft then k.toRecon else k.hardFailed d.unsat (!(b1.half h).dec.soft.isEmpty)
              (b1.putCw w.seq w.place j).settle w.seq) s

/-! ### Reconstruction (R287-R292) -/

/-- The payloads that enter a reconstruction of a row whose parity is not yet programmed: the accumulators for P and Q, the members that have
folded, and nothing of the others (R291); a row whose parity will be blank has no accumulators (R302). -/
def openRowInputs (s : Stripe) (r : Row) (slot : Nat) (members : List (Nat × Payload)) : List (Nat × Payload) :=
  let k := s.dataCount
  let acc := if r.p.isEmpty then []
    else (k, r.p.getD slot zeroPayload) :: (if s.pq then [(k + 1, r.q.getD slot zeroPayload)] else [])
  let data := (List.range k).filterMap (fun i =>
    if r.folded.contains i then
      if s.absent.contains i then none else members.find? (fun m => decide (m.1 = i))
    else some (i, zeroPayload))
  data ++ acc

/-- The payload step 5 gives a codeword, if it gives one (R288-R291). `members` are the payloads the other members' reads delivered, by ring
position. -/
def Block.reconstruct (b : Block) (g : HalfId) (k : Cw) (members : List (Nat × Payload)) : Option Payload :=
  let x := b.half g
  let ring := x.ring k.idx
  let n := x.dataCount ring
  let t := posOf ring k.idx
  let r := x.rec? k.idx
  let here := members.filter (fun m => decide (m.1 < ring.length) && decide (m.1 ≠ t) && !b.memberAbsent g (ring.getD m.1 0))
  if b.memberAbsent g k.idx && decide (r.role = .data) && decide (r.wp.toNat ≤ k.page) then some padPayload
  else
    match x.openStripe k.idx with
    | some (slot, s) =>
      if s.parityRow ≤ k.page then
        let row := x.row slot k.page s
        if t < n && !row.folded.contains t then some padPayload else rebuildAt n t (openRowInputs s row k.slot here)
      else rebuildAt n t here
    | none => rebuildAt n t here

/-- STRIPE_RECONSTRUCTION (R258, R288-R292): at the half that keeps the stripe, once every member read has ended. -/
def execStripeReconstruction (h : HalfId) (seq : Nat) (i : Nat) (s : State) : Host.Outcome State Fault Refusal :=
  run (fun b =>
    match b.ctxOf seq with
    | none => b
    | some (_, c) =>
      match c.cws[i]? with
      | none => b
      | some k =>
        if b.coreRuns h && decide (b.keeper (recCh k.idx) = some h) && decide (k.st = .recon) && c.membersDone i then
          let j := match b.reconstruct h k (c.cws.filterMap (fun m => m.memberData i)) with
            | some d => { k with st := .done, fin := some .recon, bits := 0xFFFE, data := d, poison := false }
            | none => k.fail
          ((b.putCw seq i j).onCtx seq (fun c => c.spend i)).settle seq
        else b) s

end Sys2Proof.Machine
end

