-- ==== Sys2Proof/Machine/FetchCmds.lean ====
section
/-!
DEFINITION. Fetches through the code window, and the line fills that read a codeword through the ladder (R55, R56, R128, R131-R133, R222).
-/

namespace Sys2Proof.Machine

open Sys2Proof

/-! ### A line fill's reads (R131, R132) -/

/-- Where a line lies in a copy of its region, with its slot. -/
def Block.fillPlace (b : Block) (h : HalfId) (r n : Nat) (second : Bool) : Option (Place × Nat) :=
  let d := (b.half h).win.region r
  (b.linePlace h (if second then d.copy1 else d.copy0) d.size n).bind (fun p => (b.placeOf p.1 p.2.1).map (fun t => (t, p.2.2)))

/-- The half's own read of a line's codeword. -/
def fillCtx (k : Cw) : Ctx :=
  { Ctx.fresh 0 false 0 0 .patrol 0 false with phase := .running, cws := [k], fill := true }

/-- The read of a copy of a line started: it climbs steps 1 to 4, its senses ahead of queue work, without a context or a range-lock entry (R131, R132, R250,
R262). -/
def Block.startFill (b : Block) (h : HalfId) (r n : Nat) (second : Bool) : Block :=
  match b.fillPlace h r n second with
  | none => b
  | some (t, slot) =>
    let k := b.freshCw t t t.page slot (b.recAt t).tension.toNat .main true
    let key := fillKey h r n second
    (b.onHalf h (fun x => x.onQue (fun m => { m with jobs := m.jobs.put key (fillCtx k) }))).settle key

/-- A line fill asked for, unless it runs already or the line is held (R131). -/
def Block.askFill (b : Block) (h : HalfId) (r n : Nat) : Block :=
  let w := (b.half h).win
  if w.fills.contains (r, n) || (w.line? r n).isSome then b
  else (b.onHalf h (fun x => x.onWin (fun w => { w with fills := w.fills ++ [(r, n)] }))).startFill h r n false

/-- The next line of the region asked for at a fetch into the last 1 KiB of a line (R132). -/
def Block.prefetch (b : Block) (h : HalfId) (r n offset : Nat) : Block :=
  let w := (b.half h).win
  if w.prefetch && decide (3072 ≤ offset % 4096) && decide (n + 1 < 16 * (w.region r).size) && !b.pair.latched then
    b.askFill h r (n + 1)
  else b

/-! ### Fetches -/

/-- A burst the window serves: FETCH, 1 to 4 beats of 64 bytes, aligned to its size (R55). -/
def burstOk (offset beats : Nat) (attr : Bool) : Bool :=
  attr && decide (1 ≤ beats) && decide (beats ≤ 4) && decide (offset % (64 * beats) = 0)

/-- The lines a burst reads, as (region, line), each once; none where a beat lies in no mapped region (R128). -/
def Window.burstLines (w : Window) (offset beats : Nat) : Option (List (Nat × Nat)) :=
  (List.range beats).foldr (fun i o => match o, w.find (offset + 64 * i) with
    | some l, some e => some (if l.contains e then l else e :: l)
    | _, _ => none) (some [])

/-- A beat of a burst as the buffer holds it: its 64 bytes and its POISON; none where its line is not held (R56, R131). -/
def Window.beat (w : Window) (offset : Nat) : Option (Nat × Bool) :=
  (w.find offset).bind (fun e => (w.line? e.1 e.2).map (fun l =>
    (l.data.toNat / 2 ^ (8 * (offset % 4096)) % 2 ^ 512, l.poison)))

/-- A burst's answer from lines that are all held. -/
def Window.answer (w : Window) (offset beats : Nat) : Resp :=
  let l := (List.range beats).map (fun i => (w.beat (offset + 64 * i)).getD (0, false))
  { ok := true, data := l.foldr (fun e a => e.1 + 2 ^ 512 * a) 0, poison := l.any Prod.snd }

/-- The lines of a burst made the most recently used, a hit counted (R131). -/
def Window.served (w : Window) (l : List (Nat × Nat)) : Window :=
  let t := l.foldl (fun (v : Window) e => (v.line? e.1 e.2).elim v v.touch) w
  { t with hits := t.hits + 1 }

/-- A burst's lines are all in the buffer. -/
def Window.holds (w : Window) (l : List (Nat × Nat)) : Bool := l.all (fun e => (w.line? e.1 e.2).isSome)

/-- A fetch (R55, R128, R131, R132, R222). -/
def Block.fetchLine (b : Block) (h : HalfId) (offset beats : Nat) (attr : Bool) : Block :=
  let w := (b.half h).win
  match (if burstOk offset beats attr then w.burstLines offset beats else none) with
  | none => b.respond h Resp.error
  | some l =>
    let ahead := fun (a : Block) => l.foldl (fun (z : Block) e => z.prefetch h e.1 e.2 offset) a
    if w.holds l then
      ahead ((b.onHalf h (fun x => x.onWin (fun w => w.served l))).respond h (w.answer offset beats))
    else if b.pair.latched then b.respond h Resp.error
    else
      ahead (l.foldl (fun (z : Block) e => z.askFill h e.1 e.2)
        (b.onHalf h (fun x => x.onWin (fun w => { w with stalled := w.stalled ++ [(offset, beats)] }))))

/-- Wake cause of a FETCH (R547). -/
def causeFetch : Nat := 3

/-- FETCH (R55, R57, R128, R131). -/
def execFetch (h : HalfId) (offset beats : Nat) (attr : Bool) (s : State) : Host.Outcome State Fault Refusal :=
  portRun h causeFetch (.fetch h offset beats attr) (fun b => b.fetchLine h offset beats attr) s

/-! ### Line fills (R131, R133) -/

/-- The stalled fetches whose lines are now all held completed, in their order: the port's last response is the last of them. -/
def Half.serveStalled (x : Half) : Half :=
  let mine := fun (f : Nat × Nat) => (x.win.burstLines f.1 f.2).any x.win.holds
  let y := (x.win.stalled.filter mine).foldl (fun (z : Half) f => { z with port := z.win.answer f.1 f.2 }) x
  y.onWin (fun w => { w with stalled := w.stalled.filter (fun f => !mine f) })

/-- What the read of a line's copy has come to: nothing yet, its codeword, or no codeword at all. -/
def Block.fillRead (b : Block) (h : HalfId) (r n : Nat) (second : Bool) : Option Cw :=
  (((b.half h).que.jobs.find? (fillKey h r n second)).bind (fun c => c.cws.head?)).bind (fun k => if k.st = .done then some k else none)

/-- The read of a line's copy is under way. -/
def Block.filling (b : Block) (h : HalfId) (r n : Nat) (second : Bool) : Bool :=
  ((b.half h).que.jobs.find? (fillKey h r n second)).isSome && (b.fillRead h r n second).isNone

/-- A fill stands where it can go on: neither copy's read is under way. -/
def Block.fillDue (b : Block) (h : HalfId) (f : Nat × Nat) : Bool := !b.filling h f.1 f.2 false && !b.filling h f.1 f.2 true

/-- A line put into the buffer, and the fetches that waited for it served; the fill and its reads end (R131). -/
def Half.fillLine (x : Half) (h : HalfId) (l : FLine) : Half :=
  let y := x.onQue (fun m => { m with jobs := (m.jobs.drop (fillKey h l.region l.line false)).drop (fillKey h l.region l.line true) })
  ((y.onWin (fun w => { w with lines := (l :: w.lines).take 32, misses := w.misses + 1
                               fills := w.fills.filter (fun f => decide (f ≠ (l.region, l.line))) })).serveStalled).onWin Window.boundary

/-- The region-degraded notice of a line filled from copy 1, with the copy-0 PADDR (R133). -/
def Block.degradedLine (b : Block) (h : HalfId) (r n : Nat) : Block :=
  match b.fillPlace h r n false with
  | none => b
  | some (t, slot) => b.event h 0x15 r (t.paddr t.page slot)

/-- A fill goes on: the line from copy 0, where its codeword was recovered; else copy 1 is read; else the line from copy 1 with the region-degraded notice, or
poisoned words (R131, R133). -/
def Block.fillStep (b : Block) (h : HalfId) (r n : Nat) : Block :=
  let good := fun (k : Option Cw) => k.bind (fun k => if k.unc then none else some k.data.user)
  match good (b.fillRead h r n false) with
  | some d => b.onHalf h (fun x => x.fillLine h { region := r, line := n, data := d, poison := false })
  | none =>
    let tried := ((b.half h).que.jobs.find? (fillKey h r n true)).isSome || (b.fillPlace h r n true).isNone
    if !tried && !b.pair.latched then b.startFill h r n true
    else
      match good (b.fillRead h r n true) with
      | some d => (b.onHalf h (fun x => x.fillLine h { region := r, line := n, data := d, poison := false })).degradedLine h r n
      | none => b.onHalf h (fun x => x.fillLine h { region := r, line := n, data := 0, poison := true })

/-- LINE_FILL (R131-R133): the oldest fill that can go on. -/
def execLineFill (h : HalfId) (s : State) : Host.Outcome State Fault Refusal :=
  run (fun b =>
    if b.coreRuns h then
      match (b.half h).win.fills.find? (b.fillDue h) with
      | none => b
      | some f => b.fillStep h f.1 f.2
    else b) s

end Sys2Proof.Machine
end

