-- ==== Sys2Proof/Machine/GovernorCmds.lean ====
section
/-!
DEFINITION. Meanings of the loop engine's commands (13).
-/

namespace Sys2Proof.Machine

open Sys2Proof

/-- LOOP_SAMPLE (R487, R488): an enabled slot's sample falls due while CLK_CORE runs. -/
def execLoopSample (h : HalfId) (n : Nat) (s : State) : Host.Outcome State Fault Refusal :=
  run (fun b => if b.coreRuns h && ((b.half h).loops.slot n).en then b.sample h n else b) s

/-- LOOP_ENABLE (R486, R489). -/
def execLoopEnable (h : HalfId) (n : Nat) (on : Bool) (s : State) : Host.Outcome State Fault Refusal :=
  portRun h causeRegister (.loopEnable h n on) (fun b => if n < Config.loops b.variant then b.writeEn h n on else b) s

/-- LOOP_COMMIT_GO (R491). -/
def execLoopCommitGo (h : HalfId) (s : State) : Host.Outcome State Fault Refusal :=
  portRun h causeRegister (.loopCommitGo h) (fun b => b.onHalf h (fun x => x.onLoops (fun l => l.commit (Config.loops b.variant)))) s

/-- TRC_MODE_WRITE (R490, R505). -/
def execTrcModeWrite (h : HalfId) (n : Nat) (mode : BitVec 2) (s : State) : Host.Outcome State Fault Refusal :=
  portRun h causeRegister (.trcModeWrite h n mode) (fun b =>
    if n < Config.loops b.variant then b.onHalf h (fun x => x.onLoops (fun l => l.onSlot n (fun y => y.setTrace mode.toNat)))
    else b) s

/-- LOOP_TRC_SEL_WRITE (R505, R506). -/
def execLoopTrcSelWrite (h : HalfId) (value : Word) (s : State) : Host.Outcome State Fault Refusal :=
  portRun h causeRegister (.loopTrcSelWrite h value) (fun b => b.onHalf h (fun x => x.onLoops (fun l => l.select (value.field 0 3) (value.field 16 10)))) s

end Sys2Proof.Machine
end

