-- ==== Sys2Proof/Machine/GutterCmds.lean ====
section
/-!
DEFINITION. Meanings of the gutters' commands (12, *Gutters*).
-/

namespace Sys2Proof.Machine

open Sys2Proof

/-- GUT_RD_READ (R478, R479). -/
def execGutRdRead (h : HalfId) (g : Nat) (s : State) : Host.Outcome State Fault Refusal :=
  portRun h causeRegister (.gutRdRead h g) (fun b =>
    if g < Config.gutters b.variant then b.onHalf h (fun x => x.gutRead g) else b) s

/-- GUT_CTL_MARK (R481). -/
def execGutCtlMark (h : HalfId) (g : Nat) (s : State) : Host.Outcome State Fault Refusal :=
  portRun h causeRegister (.gutCtlMark h g) (fun b =>
    if g < Config.gutters b.variant then b.onHalf h (fun x => x.onGutter g (fun u => u.control true false false)) else b) s

/-- GUT_CTL_REWIND (R481). -/
def execGutCtlRewind (h : HalfId) (g : Nat) (s : State) : Host.Outcome State Fault Refusal :=
  portRun h causeRegister (.gutCtlRewind h g) (fun b =>
    if g < Config.gutters b.variant then b.onHalf h (fun x => x.onGutter g (fun u => u.control false true false)) else b) s

/-- GUT_CTL_RELEASE (R481). -/
def execGutCtlRelease (h : HalfId) (g : Nat) (s : State) : Host.Outcome State Fault Refusal :=
  portRun h causeRegister (.gutCtlRelease h g) (fun b =>
    if g < Config.gutters b.variant then b.onHalf h (fun x => x.onGutter g (fun u => u.control false false true)) else b) s

/-- GUT_CTL_UNSTALL (R479). -/
def execGutCtlUnstall (h : HalfId) (g : Nat) (s : State) : Host.Outcome State Fault Refusal :=
  portRun h causeRegister (.gutCtlUnstall h g) (fun b =>
    if g < Config.gutters b.variant then b.onHalf h (fun x => x.unstall g) else b) s

/-- GUTTER_TIMEOUT (R482): counted on AON while CLK_CORE is stopped, and held while frozen. -/
def execGutterTimeout (h : HalfId) (g : Nat) (s : State) : Host.Outcome State Fault Refusal :=
  run (fun b => if b.pair.frozen || b.held h then b else b.onHalf h (fun x => x.onGutter g Gutter.timeout)) s

/-- SPILL_WRITE_ACK (R483): the fabric acknowledges every write of the oldest item being spilled. -/
def execSpillWriteAck (h : HalfId) (g : Nat) (s : State) : Host.Outcome State Fault Refusal :=
  masterRun h (.spillWriteAck h g) (fun b => if b.coreRuns h then b.onHalf h (fun x => x.spillAck g) else b) s

/-- SPILL_ERROR (R483). -/
def execSpillError (h : HalfId) (g : Nat) (s : State) : Host.Outcome State Fault Refusal :=
  masterRun h (.spillError h g) (fun b => if b.coreRuns h then b.onHalf h (fun x => x.spillFail g) else b) s

/-- GUT_SPRD_WRITE (R483). -/
def execGutSprdWrite (h : HalfId) (g : Nat) (value : Word) (s : State) : Host.Outcome State Fault Refusal :=
  portRun h causeRegister (.gutSprdWrite h g value) (fun b =>
    if g < Config.gutters b.variant then b.onHalf h (fun x => x.spillFree g value) else b) s

end Sys2Proof.Machine
end

