-- ==== Sys2Proof/Machine/Interrupt.lean ====
section
/-!
DEFINITION. Meanings of the interrupt concentrator's commands (14).
-/

namespace Sys2Proof.Machine

open Sys2Proof

/-- A filter's pass, and the wake of a half asleep whose unmasked source's filtered level rises with it (R509-R512). -/
def Block.passFilter (b : Block) (h : HalfId) (n : Nat) : Block :=
  let b1 := b.onHalf h (fun x => x.filterPass b.variant n)
  if b.wakesOn h n && !((b.half h).irq.src n).level && ((b1.half h).irq.src n).level then b1.wake h 4 else b1

/-- IRQ_FILTER_PASS (R509, R511, R512): the filtered level of a level source takes its raw condition. The filter counts in CLK_CORE cycles or,
asleep, in AON cycles; while frozen it is held (R608). -/
def execIrqFilterPass (h : HalfId) (src : Nat) (s : State) : Host.Outcome State Fault Refusal :=
  run (fun b => if b.pair.frozen || b.held h then b else b.passFilter h src) s

/-- IRQ_CLAIM (R519): the read returns the claim word, and claims. -/
def execIrqClaim (h : HalfId) (k : Nat) (s : State) : Host.Outcome State Fault Refusal :=
  portRun h causeRegister (.irqClaim h k) (fun b => b.onHalf h (fun x =>
    { x.onIrq (fun i => i.claim k) with port := Resp.value (x.irq.claimValue k) })) s

/-- The change of the concentrator an IRQ_EOIk write makes: LEVEL and ID stand where the claim word has them (R522, R527). A level source's pending
bit is its filtered level, sampled as it stands. -/
def Half.endIrq (x : Half) (k : Nat) (w : Word) : Half := x.onIrq (fun i => i.eoi k (w.field 12 4) (w.field 16 10))

/-- IRQ_EOI (R522, R523). -/
def execIrqEoi (h : HalfId) (k : Nat) (value : Word) (s : State) : Host.Outcome State Fault Refusal :=
  portRun h causeRegister (.irqEoi h k value) (fun b => b.onHalf h (fun x => x.endIrq k value)) s

/-- IRQ_PEND_SET (R512, R513). -/
def execIrqPendSet (h : HalfId) (n : Nat) (value : Word) (s : State) : Host.Outcome State Fault Refusal :=
  portRun h causeRegister (.irqPendSet h n value) (fun b => b.onHalf h (fun x => x.onIrq (fun i => i.pendSet b.variant n value))) s

/-- IRQ_PEND_CLEAR (R512, R513). -/
def execIrqPendClear (h : HalfId) (n : Nat) (value : Word) (s : State) : Host.Outcome State Fault Refusal :=
  portRun h causeRegister (.irqPendClear h n value) (fun b => b.onHalf h (fun x => x.onIrq (fun i => i.pendClear b.variant n value))) s

/-- IRQ_MASK_SET (R514). -/
def execIrqMaskSet (h : HalfId) (n : Nat) (value : Word) (s : State) : Host.Outcome State Fault Refusal :=
  portRun h causeRegister (.irqMaskSet h n value) (fun b => b.onHalf h (fun x => x.onIrq (fun i => i.maskSet b.variant n value))) s

/-- IRQ_MASK_CLEAR (R514). -/
def execIrqMaskClear (h : HalfId) (n : Nat) (value : Word) (s : State) : Host.Outcome State Fault Refusal :=
  portRun h causeRegister (.irqMaskClear h n value) (fun b => b.onHalf h (fun x => x.onIrq (fun i => i.maskClear b.variant n value))) s

/-- IRQ_COMMIT_GO (R518). -/
def execIrqCommitGo (h : HalfId) (s : State) : Host.Outcome State Fault Refusal :=
  portRun h causeRegister (.irqCommitGo h) (fun b => b.onHalf h (fun x => x.onIrq Irq.commit)) s

end Sys2Proof.Machine
end

