-- ==== Sys2Proof/Machine/Queues.lean ====
section
/-!
DEFINITION. Meanings of the queue commands: doorbells, control, fetch, sequence numbers, replies and headers (08; R398-R402).
-/

namespace Sys2Proof.Machine

open Sys2Proof

/-- Wake cause of a doorbell (R547). -/
def causeDoorbell : Nat := 1

/-- DOORBELL (R306, R307, R323-R327, R334): the new tail is bits 15 to 0 of the value. -/
def execDoorbell (h : HalfId) (q : Nat) (value : Word) (s : State) : Host.Outcome State Fault Refusal :=
  portRun h causeDoorbell (.doorbell h q value) (fun b => b.doorbell h false q (value.field 0 16)) s

/-- DOORBELL_TAKEN_OVER (R348): stray where no such queue is adopted. -/
def execDoorbellTakenOver (h : HalfId) (q : Nat) (value : Word) (s : State) : Host.Outcome State Fault Refusal :=
  portRun h causeDoorbell (.doorbellTakenOver h q value) (fun b => b.doorbell h true q (value.field 0 16)) s

/-- A QUE_QCTLq or QUE_TQCTLq write to a queue that exists. -/
def Block.control (b : Block) (h : HalfId) (adopted : Bool) (q : Nat) (a : QAct) : Block :=
  match (b.half h).que.queue? adopted q with
  | none => b
  | some _ => b.queueCtl h adopted q a

/-- QUEUE_DISABLE (R336, R579). -/
def execQueueDisable (h : HalfId) (adopted : Bool) (q : Nat) (on : Bool) (s : State) : Host.Outcome State Fault Refusal :=
  portRun h causeRegister (.queueDisable h adopted q on) (fun b => b.control h adopted q (.disable on)) s

/-- QUEUE_RESTART (R335, R579). -/
def execQueueRestart (h : HalfId) (adopted : Bool) (q : Nat) (s : State) : Host.Outcome State Fault Refusal :=
  portRun h causeRegister (.queueRestart h adopted q) (fun b => b.control h adopted q .restart) s

/-- The limits of QUE_ADM_CFG.QUOTA. -/
def quotaLimits (v : Variant) (n : Nat) : Nat := clampTo (Config.per v 16 8) (Config.contexts v) n

/-- Queue 0 given its ring: HEAD, FETCH and TAIL at 0, STATE active, its header due with UPDATE 1 (R306, R340). -/
def Queue.configured (u : Queue) (size gutter : Nat) (notify : Bool) (ring hdr : BitVec 64) : Queue :=
  { u with size := size, ring := ring, hdr := hdr, gutter := if notify then some gutter else none,
           state := if u.disable then .draining else .active, hdrDirty := true }

/-- QUE_ADM_CFG written (R306, R351, R672): GUTTER, NOTIFY and QUOTA are stored; the first SIZE from 4 to 14 gives queue 0 its ring. -/
def Block.writeAdmCfg (b : Block) (h : HalfId) (w : Word) : Block :=
  let v := b.variant
  let size := w.field 0 4
  let b1 := b.onHalf h (fun x => x.onQue (fun m =>
    { m with admGutter := if w.field 4 5 < Config.gutters v then w.field 4 5 else m.admGutter, admNotify := w.bit 9, admQuota := quotaLimits v (w.field 16 12) }))
  if decide ((b.half h).que.admSize = 0) && decide (4 ≤ size) && decide (size ≤ 14) then
    let b2 := b1.onHalf h (fun x =>
      (x.onQue (fun m => { m with admSize := size })).onQueue false 0 (fun u =>
        u.configured size x.que.admGutter (w.bit 9) x.que.admRing x.que.admHdr))
    match (b2.half h).que.queue? false 0 with
    | none => b2
    | some u => b2.send h (.queue false 0 (.created u))
  else b1

/-- ADMIN_QUEUE_CONFIG (R306). -/
def execAdminQueueConfig (h : HalfId) (value : Word) (s : State) : Host.Outcome State Fault Refusal :=
  portRun h causeRegister (.adminQueueConfig h value) (fun b => b.writeAdmCfg h value) s

/-- QUE_SEQ_READ (R351, R644): the low word of the next number, the high word captured. -/
def execQueSeqRead (h : HalfId) (s : State) : Host.Outcome State Fault Refusal :=
  portRun h causeRegister (.queSeqRead h) (fun b => b.onHalf h (fun x =>
    { x.onQue (fun m => { m with seqHi := BitVec.ofNat 32 (fieldOf b.pair.nextSeq 32 32) }) with
      port := Resp.value (fieldOf b.pair.nextSeq 0 32) })) s

/-- ENTRY_FETCH (R328-R331): the entries one burst brings, in ring order. -/
def execEntryFetch (h : HalfId) (adopted : Bool) (q : Nat) (entries : List Entry) (s : State) :
    Host.Outcome State Fault Refusal :=
  masterRun h (.entryFetch h adopted q entries) (fun b => b.fetchBurst h adopted q entries none) s

/-- FETCH_ERROR (R51, R332): an error response fails the whole burst; a beat with POISON fails the entry it carries, the entries before it being
taken as fetched. -/
def execFetchError (h : HalfId) (adopted : Bool) (q : Nat) (good : List Entry) (poisoned : Bool) (s : State) :
    Host.Outcome State Fault Refusal :=
  masterRun h (.fetchError h adopted q good poisoned) (fun b => b.fetchBurst h adopted q (if poisoned then good else []) (some 8)) s

/-- The owner allocates the next number to its twin's entry, writes the entry into its mirror partition, and sends the number back (R399-R401). -/
def Block.giveNumber (b : Block) (h : HalfId) (q index : Nat) (e : Entry) : Block :=
  match Opcode.ofCode (e.byte 0) with
  | none => b.accepted h
  | some o =>
    let n := (b.accepted h).takeSeq
    let r := n.2.precheck o e n.1
    let keyed := decide (e.keyLen ≠ 0) && r.2.isNone
    (r.1.onHalf h (fun x => x.onQue (fun m =>
      { m with locks := if keyed then m.locks ++ [lockOf n.1 e o false] else m.locks }))).send h
        (.fetch false false n.1 q index e keyed r.2)

/-- SEQUENCE_NUMBER_REQUEST (R399-R401): at the counter's owner. -/
def execSequenceNumberRequest (h : HalfId) (s : State) : Host.Outcome State Fault Refusal :=
  run (fun b =>
    match b.incoming h with
    | some (.seqAsk q index e) => if b.coreRuns h && decide (b.pair.owner = h) then b.giveNumber h q index e else b
    | _ => b) s

/-! ### Replies and headers -/

/-- A command whose reply may be written: finished, its changes acknowledged and journalled, its data out of the DMA (R314, R316, R381, R579). -/
def Ctx.mayReply (c : Ctx) : Bool :=
  decide (c.phase = .finished) && c.waitAck.isEmpty && !c.waitJrnl &&
    match c.xfer with
    | .active _ => false
    | .wanted => false
    | _ => true

/-- A command's reply write (R314). -/
def Half.writeReply (x : Half) (seq : Nat) (c : Ctx) (u : Queue) (st : Status) : Half :=
  ((x.onCtx seq (fun c => { c with phase := .replying })).onDone c).issue
    { kind := .reply seq, addr := u.ring.toNat + 64 * c.index + 48, len := 16, data := replyBytes st c.result,
      poison := 0, ordered := true }

/-- REPLY_WRITE (R314, R333, R335). -/
def execReplyWrite (h : HalfId) (r : ReplyOf) (s : State) : Host.Outcome State Fault Refusal :=
  run (fun b =>
    let x := b.half h
    if !(b.coreRuns h && x.canWrite) then b
    else
      match r with
      | .cmd seq =>
        match x.ctx? seq with
        | none => b
        | some c =>
          match x.que.queue? c.adopted c.queue, c.final with
          | some u, some st =>
            if c.mayReply then
              (b.onHalf h (fun x => x.writeReply seq c u st)).onPair (fun p =>
                p.memberEnds c.entry.group seq (decide (st = .doneOk)))
            else b
          | _, _ => b
      | .bad adopted q i =>
        match x.que.queue? adopted q with
        | none => b
        | some u =>
          if x.que.malformed.any (fun m => decide (m.adopted = adopted) && decide (m.queue = q) && decide (m.index = i) && !m.failed) &&
              !x.outWrite (.malformedReply q adopted i) then
            b.onHalf h (fun x => x.issue
              { kind := .malformedReply q adopted i, addr := u.ring.toNat + 64 * i + 48, len := 16,
                data := replyBytes .malformed 0, poison := 0, ordered := true })
          else b) s

/-- The release of a command told to the twin, with its queue's HEAD (R579). -/
def Block.tellRelease (b : Block) (h : HalfId) (adopted : Bool) (q seq : Nat) : Block :=
  match (b.half h).que.queue? adopted q with
  | none => b
  | some u => b.send h (.release adopted seq q u.head)

/-- REPLY_ACK (R319, R343, R344, R408). -/
def execReplyAck (h : HalfId) (r : ReplyOf) (s : State) : Host.Outcome State Fault Refusal :=
  masterRun h (.replyAck h r) (fun b =>
    let x := b.half h
    if !b.coreRuns h then b
    else
      match r with
      | .cmd seq =>
        match x.ctx? seq with
        | none => b
        | some c =>
          if x.outWrite (.reply seq) then
            let b1 := b.onHalf h (fun x => (x.landed (.reply seq)).onQueue c.adopted c.queue (fun u => u.replied c.index true))
            let b2 := b1.completionNotice h c.adopted c.queue c.index (c.final.elim 0 statusCode) c.entry.cmdId
            ((b2.onHalf h (fun x => x.releaseCtx seq)).tellRelease h c.adopted c.queue seq).struck h c.adopted c.queue
          else b
      | .bad adopted q i =>
        match x.que.malformed.find? (fun m => decide (m.adopted = adopted) && decide (m.queue = q) && decide (m.index = i)) with
        | none => b
        | some m =>
          if x.outWrite (.malformedReply q adopted i) then
            let b1 := b.onHalf h (fun x =>
              ((x.landed (.malformedReply q adopted i)).onQue (fun n => { n with
                malformed := n.malformed.filter (fun k => decide (k ≠ m)) })).onQueue adopted q (fun u => u.replied i false))
            (b1.completionNotice h adopted q i (statusCode .malformed) m.cmdId).struck h adopted q
          else b) s

/-- A queue stopped, with source 108 where it is adopted (R591). -/
def Block.stopQueue (b : Block) (h : HalfId) (adopted : Bool) (q cause : Nat) (index : Queue → Nat) : Block :=
  (b.onHalf h (fun x => x.onQueue adopted q (fun u => u.stop cause (index u)))).tellStop h adopted q false

/-- REPLY_ERROR (R332, R333): HEAD, the context and the range-lock entry stay. -/
def execReplyError (h : HalfId) (r : ReplyOf) (s : State) : Host.Outcome State Fault Refusal :=
  masterRun h (.replyError h r) (fun b =>
    let x := b.half h
    if !b.coreRuns h then b
    else
      match r with
      | .cmd seq =>
        match x.ctx? seq with
        | none => b
        | some c =>
          if x.outWrite (.reply seq) then
            (b.onHalf h (fun x => (x.landed (.reply seq)).onCtx seq (fun c => { c with phase := .replyFailed }))).stopQueue h
              c.adopted c.queue 10 (fun _ => c.index)
          else b
      | .bad adopted q i =>
        if x.outWrite (.malformedReply q adopted i) then
          (b.onHalf h (fun x => (x.landed (.malformedReply q adopted i)).onQue (fun n => { n with
            malformed := n.malformed.map (fun k =>
              if k.adopted = adopted && k.queue = q && k.index = i then { k with failed := true } else k) }))).stopQueue h
            adopted q 10 (fun _ => i)
        else b) s

/-- HEADER_WRITE (R318, R320): a header due, and none outstanding. -/
def execHeaderWrite (h : HalfId) (adopted : Bool) (q : Nat) (s : State) : Host.Outcome State Fault Refusal :=
  run (fun b =>
    let x := b.half h
    match x.que.queue? adopted q with
    | none => b
    | some u =>
      if b.coreRuns h && u.hdrDirty && !u.hdrOut && x.canWrite then b.onHalf h (fun x => x.writeHeader adopted q u) else b) s

/-- The command that waited for a header write completes (R340). -/
def Block.headerWaiter (b : Block) (h : HalfId) (adopted : Bool) (q : Nat) : Block :=
  match (b.half h).que.queue? adopted q with
  | none => b
  | some u =>
    match u.waiter with
    | none => b
    | some seq =>
      (b.onHalf h (fun x => x.onQueue adopted q (fun u => { u with waiter := none }))).finish h seq .doneOk 0

/-- HEADER_WRITE_ACK (R337, R340). -/
def execHeaderWriteAck (h : HalfId) (adopted : Bool) (q : Nat) (s : State) : Host.Outcome State Fault Refusal :=
  masterRun h (.headerWriteAck h adopted q) (fun b =>
    if b.coreRuns h && (b.half h).outWrite (.header q adopted) then
      ((b.onHalf h (fun x => (x.landed (.header q adopted)).onQueue adopted q (fun u => { u with hdrOut := false }))).headerWaiter
        h adopted q).struck h adopted q
    else b) s

/-- A header write that met an error stops its queue, but for one that is struck (R332). -/
def Queue.headerFailed (u : Queue) : Queue :=
  let w : Queue := { u with hdrOut := false }
  if u.state = .struck then w else { w.stop 9 u.head with hdrDirty := false }

/-- HEADER_ERROR (R51, R332, R340): the queue stops with HEAD latched; a PITCH still completes with DONE_OK. -/
def execHeaderError (h : HalfId) (adopted : Bool) (q : Nat) (s : State) : Host.Outcome State Fault Refusal :=
  masterRun h (.headerError h adopted q) (fun b =>
    if b.coreRuns h && (b.half h).outWrite (.header q adopted) then
      ((b.onHalf h (fun x => (x.landed (.header q adopted)).onQueue adopted q Queue.headerFailed)).headerWaiter h adopted q).tellStop h
        adopted q false
    else b) s

end Sys2Proof.Machine
end

