-- ==== Sys2Proof/Machine/UnitCmds.lean ====
section
/-!
DEFINITION. Meanings of REGION_OPEN, REGION_CLOSE, DIE_FEATURE, DIE_RESET, RETIRE and RESTORE (03, *Execute-only regions*; 09, *Admin commands*;
17, *Retirement and restoration in service*).
-/

namespace Sys2Proof.Machine

open Sys2Proof

/-! ### Regions (R126, R135-R139, R390) -/

/-- A copy fits its die. -/
def Block.copyFits (b : Block) (h : HalfId) (first size : Nat) : Bool :=
  decide (0 < b.unitsFor first size) && decide ((b.copyUnits h first (b.unitsFor first size)).length = b.unitsFor first size)

/-- The descriptor a REGION_OPEN asks for; COMMIT_SEQ and IMAGE_CRC are those of the last close. -/
def regionAsked (old : RgnDesc) (e : Entry) : RgnDesc :=
  { old with kind := if fieldOf e 168 2 = 1 then .code else .ucode, state := .opened, size := e.bytes 22 2
             copy0 := e.bytes 24 3 % 2 ^ 18, copy1 := e.bytes 28 3 % 2 ^ 18 }

/-- The open would make three microcode regions (R126). -/
def thirdUcode (t : Tab RgnDesc) (n : Nat) (d : RgnDesc) : Bool :=
  decide (d.kind = .ucode) && decide (2 ≤ (List.filter (fun e => decide (e.1 ≠ n) && decide (e.2.kind = .ucode)) t).length)

/-- A unit that a region's copy may take (R136). -/
def takeable (n : Nat) (r : Rec) : Bool :=
  (decide (r.state = .free) || decide (r.state = .erased) || (decide (r.state = .full) && decide (r.valid = 0)) ||
      (r.rgnOwn && decide (r.region.toNat = n))) && !r.fly && decide (r.role = .none)

/-- Region n is fetched from, or holds the active microcode (R136). -/
def Half.regionMapped (x : Half) (n : Nat) : Bool :=
  (Tab.get WinMap.off x.win.map n).en || (decide (x.boot.ucode = 1) && decide (x.win.active = n))

/-- The status that refuses a REGION_OPEN of the half's own region, or of a twin's whose queue it has adopted, if any (R136). -/
def Block.regionFault (b : Block) (h : HalfId) (own : Bool) (n : Nat) (d : RgnDesc) : Option Status :=
  let x := b.half h
  let homes := Config.homeChannels b.variant (if own then h else h.twin)
  if !x.win.updateEn then some .regionLocked
  else if own && x.regionMapped n then some .regionMapped
  else if decide (recCh d.copy0 = recCh d.copy1) || !homes.contains (recCh d.copy0) || !homes.contains (recCh d.copy1) ||
      !b.copyFits h d.copy0 d.size || !b.copyFits h d.copy1 d.size || thirdUcode (if own then x.win.desc else x.mir.regions) n d then some .regionLayout
  else if (b.regionUnits h d).any (b.lostRec h) then some .dataPoison
  else if !(b.regionUnits h d).all (fun i => takeable n (x.rec? i)) then some .unitState
  else none

/-- The records of a region after its open: the old units, which lie on its half's home channels, free unless they are retired, new ones owned (R114, R126, R137). -/
def Block.regionRecs (b : Block) (h : HalfId) (own : Bool) (n : Nat) (d : RgnDesc) : List (Nat × Rec) :=
  let x := b.half h
  let new := b.regionUnits h d
  let homes := Config.homeChannels b.variant (if own then h else h.twin)
  let old := (List.filter (fun e => e.2.rgnOwn && decide (e.2.region.toNat = n) && homes.contains (recCh e.1)) x.store.recs).map Prod.fst
  let freed := fun (r : Rec) => if r.rgnOwn && decide (r.state ≠ .retired) then { r with state := .free } else r
  (old.filter (fun i => !new.contains i)).map (fun i => (i, { freed (x.rec? i) with rgnOwn := false })) ++
    new.map (fun i => (i, { freed (x.rec? i) with rgnOwn := true, region := BitVec.ofNat 4 n }))

/-- REGION_OPEN (R136, R137): one journal record; the buffer loses the region's lines. -/
def Block.openRegion (b : Block) (h : HalfId) (own : Bool) (seq n : Nat) (d : RgnDesc) : Block :=
  let b1 := b.updRecs h (some seq) (b.regionRecs h own n d) [plainEntry (.region n d)]
  (b1.onHalf h (fun x => (x.setRegion own n d).onWin (fun w =>
    if own then { w with lines := w.lines.filter (fun l => decide (l.region ≠ n)) } else w))).finish h seq .doneOk 0

/-- REGION_OPEN (R136); one re-executed with its change made is done (R590). -/
def execRegionOpen (h : HalfId) (seq : Nat) (s : State) : Host.Outcome State Fault Refusal :=
  onLeft h seq .regionOpen (fun b c =>
    let n := c.entry.byte 20 % 16
    let d := regionAsked ((b.half h).regionOf (!c.adopted) n) c.entry
    if c.redo && (c.progress.region? n).isSome then b.finish h seq .doneOk 0
    else match b.regionFault h (!c.adopted) n d with
    | some st => b.refuse h seq st
    | none => b.openRegion h (!c.adopted) seq n d) s

/-- The status that refuses a REGION_CLOSE, if any (R138, R390). -/
def Block.closeFault (b : Block) (h : HalfId) (own : Bool) (n : Nat) : Option Status :=
  let d := (b.half h).regionOf own n
  if d.state ≠ .opened then some .regionState
  else if !(b.half h).win.updateEn then some .regionLocked
  else if !(b.copyHolds h d.copy0 d.size && b.copyHolds h d.copy1 d.size) then some .unitState
  else none

/-- REGION_CLOSE (R138): the reads of both copies are started, none once a brown-out is latched (R171); one re-executed with its change made replies from its
image (R590). -/
def execRegionClose (h : HalfId) (seq : Nat) (s : State) : Host.Outcome State Fault Refusal :=
  onLeft h seq .regionClose (fun b c =>
    let n := c.entry.byte 20 % 16
    match (if c.redo then c.progress.region? n else none) with
    | some d => b.finish h seq .doneOk (atByte 49 d.commitSeq.toNat 32)
    | none =>
    match b.closeFault h (!c.adopted) n with
    | some st => b.refuse h seq st
    | none => if b.pair.latched then b else b.closeStart h seq) s

/-! ### Dies (R391, R392) -/

/-- Feature addresses that DIE_FEATURE may not set (R391). -/
def reservedFeatures (e : Die) (p : Profile) : List Nat :=
  let entries := (List.range 18).map (fun k => p.retry k)
  let feats := (List.range 16).map (fun k => p.byte (368 + 5 * k))
  let xr := e.ext.elim [] (fun x => [fieldOf x 48 8, fieldOf x 56 8, fieldOf x 72 8])
  [0, 1, p.byte 19] ++ entries.map (fun r => r % 256) ++ entries.map (fun r => r / 2 ^ 40 % 256) ++
    feats.takeWhile (fun a => decide (a ≠ 0)) ++ xr

/-- A die DIE_FEATURE and DIE_RESET may name: bound, on a channel the half drives. -/
def Half.namesDie (x : Half) (c d : Nat) : Bool := x.drivesCh c && (x.die c d).present && (x.die c d).slot.isSome

/-- The cycles of a DIE_FEATURE: SET FEATURES where FLAGS bit 0 asks for it, then GET FEATURES, both of the target, or of the LUN that byte 22 names where FLAGS bit 1 asks for
it (R146, R391). -/
def featureOpCycles (p : Profile) (e : Entry) (d : Nat) : List Cycle :=
  let lun := if e.flag 1 then rowBytes p { slot := 0, page := 0, block := 0, plane := 0, lun := e.byte 22 % 4, target := (dieTarget p d).1, channel := 0 } else []
  let f : List Cycle := lun ++ [.addr (BitVec.ofNat 8 (e.byte 23))]
  (if e.flag 0 then [Cycle.cmd (if e.flag 1 then 0xD5 else 0xEF)] ++ f ++ paramCycles (e.bytes 24 4) ++ [.busy] else []) ++
    [.cmd (if e.flag 1 then 0xD4 else 0xEE)] ++ f ++ [.busy, .dout 4]

/-- The status that refuses a DIE_FEATURE, if any (R391). -/
def Half.featureFault (x : Half) (e : Entry) : Option Status :=
  let c := e.byte 20
  let d := e.byte 21 % 8
  if !x.namesDie c d then some .addressRange
  else if e.flag 0 && (x.profile? c d).any (fun p => (reservedFeatures (x.die c d) p).contains (e.byte 23)) then some .featureReserved
  else none

/-- DIE_FEATURE carried out; `values` are the P1 to P4 that GET FEATURES reads. -/
def Block.featureCmd (b : Block) (h : HalfId) (seq : Nat) (e : Entry) (values : BitVec 32) : Block :=
  let c := e.byte 20
  let d := e.byte 21 % 8
  match (b.half h).profile? c d with
  | none => b
  | some p =>
    (b.onHalf h (fun x => x.onChan c (fun k => { k with
      cycles := selectCycles k (k.die d) p d ++ featureOpCycles p e d
      volSel := k.selects p { kind := .arrayCmd, die := d }, odtDie := none, odtPad := false
      burst := k.burst.map (fun u => u.yields p d) }))).finish h seq .doneOk (atByte 49 values.toNat 32)

/-- DIE_FEATURE (R76, R83, R391): at the LUN's next idle moment, on a channel that is served, at any BUDGET but zero. -/
def execDieFeature (h : HalfId) (seq : Nat) (values : BitVec 32) (s : State) : Host.Outcome State Fault Refusal :=
  onLeft h seq .dieFeature (fun b c =>
    let ch := c.entry.byte 20
    match (b.half h).featureFault c.entry with
    | some st => b.refuse h seq st
    | none =>
      if ((b.half h).die ch (c.entry.byte 21 % 8)).op.isSome || b.pair.latched || !b.anyBudget || !b.serving h ch then b
      else b.featureCmd h seq c.entry values) s

/-- DIE_RESET: the die takes no further operations; once it is quiet its reset is issued (R392). -/
def Block.dieResetCmd (b : Block) (h : HalfId) (seq : Nat) (e : Entry) : Block :=
  let x := b.half h
  let c := e.byte 20
  let d := e.byte 21 % 8
  if !x.namesDie c d then b.refuse h seq .addressRange
  else
    let b1 := b.onHalf h (fun x => x.onDie c d (fun e => { e with held := true }))
    if (x.die c d).op.isSome then b1
    else
      let o : DieOp := { mkOp .reset seq 3 (recIndex c d 0) [] false 0 with block := e.byte 22, phase := .issue }
      (b1.onHalf h (fun x => x.onChan c (fun k => (k.onDie d (fun e => { e with op := some o })).addTask
        .reset d))).running seq

/-- DIE_RESET (R392). -/
def execDieReset (h : HalfId) (seq : Nat) (s : State) : Host.Outcome State Fault Refusal :=
  onLeft h seq .dieReset (fun b c => if b.pair.latched then b else b.dieResetCmd h seq c.entry) s

/-! ### RETIRE (R39, R393, R601, R636) -/

/-- The unit a RETIRE or RESTORE names exists in the configuration; KIND 5 and 6 need a channel the half drives. -/
def Half.unitHere (v : Variant) (x : Half) (kind index die : Nat) : Bool :=
  match kind with
  | 0 => decide (index < Config.engines v)
  | 1 => decide (index < Config.hardCores v)
  | 2 => decide (index < Config.softCores v)
  | 3 => decide (index < Config.banks v)
  | 4 => (Config.pairChannels v).contains index
  | 5 => x.drivesCh index && (x.die index die).present
  | _ => x.drivesCh index

/-- The unit is retired. -/
def Half.unitRetired (x : Half) (kind index die : Nat) : Bool :=
  match kind with
  | 0 => decide ((x.engine index).role = .retired)
  | 1 => !x.dec.hard.contains index
  | 2 => !x.dec.soft.contains index
  | 3 => !x.pool.live.contains index
  | 4 => (x.chan index).padRetired
  | 5 => (x.die index die).retired
  | _ => (x.chan index).retired

/-- A channel reaches a bound die in service. -/
def Half.reaches (x : Half) (c : Nat) (but : Nat → Bool) : Bool :=
  !(x.chan c).retired && List.any (x.chan c).dies (fun e => e.2.present && e.2.slot.isSome && !e.2.retired && !but e.1)

/-- The half keeps an eligible die for its flysheet units after a die or channel is retired (R552, R393). -/
def Half.keepsFlyDie (v : Variant) (h : HalfId) (x : Half) (gone : Nat → Nat → Bool) : Bool :=
  (populated v h x.boot.strap).any (fun c => !(x.chan c).retired &&
    (List.range 8).any (fun d => x.eligible c d && !(x.die c d).retired && !gone c d))

/-- The retirement is refused for what the half would lack (R30, R393, R636). -/
def Block.retireLimit (b : Block) (h : HalfId) (kind index die : Nat) : Bool :=
  let v := b.variant
  let x := b.half h
  let chans := fun (f : Nat → Bool) => x.twn.drives.any f
  match kind with
  | 0 => decide ((x.liveEngines v).length ≤ 1)
  | 1 => decide (x.dec.hard.length ≤ 1)
  | 2 => false
  | 3 => decide (x.pool.live.length ≤ 1) ||
      decide ((x.pool.live.length - 1) * Config.bankCells < Config.reserveFloor * (x.served v).length)
  | 4 => x.drivesCh index && (!(b.linked && (b.half h.twin).canTake v && !((b.half h.twin).chan index).padRetired) ||
      !chans (fun c => decide (c ≠ index) && x.reaches c (fun _ => false)))
  | 5 => !chans (fun c => x.reaches c (fun d => decide (c = index) && decide (d = die))) ||
      !x.keepsFlyDie v h (fun c d => decide (c = index) && decide (d = die))
  | _ => !chans (fun c => decide (c ≠ index) && x.reaches c (fun _ => false)) || !x.keepsFlyDie v h (fun c _ => decide (c = index))

/-- The unit taken out of service, by command. -/
def Block.retireUnit (b : Block) (h : HalfId) (kind index die : Nat) (lost : BankLoss) : Block :=
  match kind with
  | 0 => b.retireEngine h index 1 0
  | 1 => b.retireCore h false index 1
  | 2 => b.retireCore h true index 1
  | 3 => b.retireBank h index 1 lost
  | 4 =>
    let b1 := (b.onHalf h (fun x => x.onChan index (fun k => { k with padRetired := true }))).retireNotice h 4 index 1 false 0 0
    if (b.half h).drivesCh index then b1.moveChan h index 1 else b1
  | 5 => b.retireDie h index die 1
  | _ => b.retireChannel h index 1

/-- RETIRE (R393): `lost` names what a bank retired held. -/
def execRetire (h : HalfId) (seq : Nat) (lost : BankLoss) (s : State) : Host.Outcome State Fault Refusal :=
  onLeft h seq .retire (fun b c =>
    let kind := c.entry.byte 20
    let index := c.entry.byte 21
    let die := c.entry.byte 22 % 8
    let x := b.half h
    if c.redo && decide (kind ≤ 4) then b.finish h seq .unitAbsent 0
    else if !x.unitHere b.variant kind index die || x.unitRetired kind index die then
      b.finish h seq .unitAbsent (atByte 49 (bitOf (x.unitRetired kind index die)) 8)
    else if b.retireLimit h kind index die then b.finish h seq .retireLimit 0
    else (b.retireUnit h kind index die lost).finish h seq .doneOk (atByte 49 1 8)) s

/-! ### RESTORE (R43, R394, R601) -/

/-- A stripe counts a unit of the die or channel as absent (R394). -/
def Block.restoreBlocked (b : Block) (kind index die : Nat) : Bool :=
  let here := fun (i : Nat) => decide (recCh i = index) && (decide (kind = 6) || decide (recDie i = die))
  match b.keeper index with
  | none => false
  | some k => (decide (kind = 5) || decide (kind = 6)) &&
      List.any (b.half k).store.recs (fun e => decide (e.2.role ≠ .none) && here e.1 && !(b.half k).forwarded e.1)

/-- The unit returned to service, a bank's error count begun afresh (R43, R474, R601). -/
def Block.restoreUnit (b : Block) (h : HalfId) (kind index die : Nat) : Block :=
  let b1 := match kind with
    | 0 => b.onHalf h (fun x => x.onEngine index (fun _ => Engine.idle .spare))
    | 1 => b.onHalf h (fun x => { x with dec := { x.dec with hard := sortOn (fun k => k) (index :: x.dec.hard) } })
    | 2 => b.onHalf h (fun x => { x with dec := { x.dec with soft := sortOn (fun k => k) (index :: x.dec.soft) } })
    | 3 => b.onHalf h (fun x =>
        let live := sortOn (fun k => k) (index :: x.pool.live)
        { x with pool := { x.pool with live := live, reserve := fitReserve (live.length * Config.bankCells) (x.served b.variant).length }
                 mems := { x.mems with bankUe := Tab.set 0 x.mems.bankUe index 0 } })
    | 4 => b.onHalf h (fun x => x.onChan index (fun k => { k with padRetired := false, padFail := false }))
    | 5 => b.onHalf h (fun x => x.onDie index die (fun e => { e with retired := false, timeouts := 0 }))
    | _ =>
      let b0 := (b.onHalf h (fun x => x.onChan index (fun k => Chan.askRetrain { k with retired := false, padFail := false } true))).takeEnable h index
      if ((b0.half h).engineOf b.variant index).isNone then b0.serveChannel h index 1 else b0
  (((b1.shrinkReserves h).retireNotice h kind index 1 true 0 die).notePool h).noteDegraded h

/-- RESTORE (R394): `pass` is the outcome of the unit's self-test. -/
def execRestore (h : HalfId) (seq : Nat) (pass : Bool) (s : State) : Host.Outcome State Fault Refusal :=
  onLeft h seq .restore (fun b c =>
    let kind := c.entry.byte 20
    let index := c.entry.byte 21
    let die := c.entry.byte 22 % 8
    let x := b.half h
    if c.redo && decide (kind ≤ 4) then b.finish h seq .unitAbsent 0
    else if !x.unitHere b.variant kind index die || !x.unitRetired kind index die then b.finish h seq .unitAbsent 0
    else if b.restoreBlocked kind index die then b.finish h seq .restoreBlocked (atByte 49 1 8)
    else if !pass then b.finish h seq .restoreFail (atByte 49 1 8)
    else (b.restoreUnit h kind index die).finish h seq .doneOk 0) s

end Sys2Proof.Machine
end

