-- ==== Sys2Proof/Machine/TwinLink.lean ====
section
/-!
DEFINITION. Meanings of the guy link's commands: acknowledgements, messages, negative acknowledgements, heartbeats (17, *The guy link*).
-/

namespace Sys2Proof.Machine

open Sys2Proof

/-! ### Acknowledgements (R575, R577, R579, R581) -/

/-- What a message's acknowledgement lets happen at its sender: entries become fetchable, a queue control takes effect, a seed write is made (R236, R326,
R579). -/
def Half.ackEffect (x : Half) (m : Msg) : Half :=
  match m with
  | .tail adopted q t => x.onQueue adopted q (fun u => { u with seen := t })
  | .queue adopted q a => x.queueAct adopted q a
  | .journal es _ _ =>
    if es.any JEntry.isSeed then { x with dec := { x.dec with seedWait := false } }
    else x
  | _ => x

/-- The acknowledgements for which `gone` holds awaited no longer by the commands of a half. -/
def Half.ackedBy (x : Half) (gone : HalfId × Nat → Bool) : Half :=
  x.onQue (fun m => { m with ctxs := m.ctxs.map (fun e => (e.1, { e.2 with waitAck := e.2.waitAck.filter (fun w => !gone w) })) })

/-- SLEEP acknowledged: the entry into PS2 goes on, but for a message of the twin's that has come meanwhile, which wakes the half (R534, R535). -/
def Block.fellAsleep (b : Block) (h : HalfId) : Block := if (b.incoming h).isSome then b.wakeOne h 5 else b.beginPs2 h

/-- The oldest message of half `h` that its twin has applied, acknowledged: what it brings about happens, and the commands of both halves that waited for it go on. -/
def Block.ackOldest (b : Block) (h : HalfId) : Block :=
  match (b.half h).twn.sent with
  | [] => b
  | e :: r =>
    if (b.half h).twn.applied = 0 then b
    else
      let b1 := b.onHalf h (fun x => (x.onTwn (fun t => { t with sent := r, applied := t.applied - 1 })).ackEffect e.2)
      let b2 := (b1.onHalf .a (fun x => x.ackedBy (fun w => decide (w = (h, e.1))))).onHalf .b (fun x => x.ackedBy (fun w => decide (w = (h, e.1))))
      if decide (e.2 = .sleep 2) && (b.half h).falling && !r.any (fun m => decide (m.2 = .sleep 2)) then b2.fellAsleep h else b2

/-- Every message sent and not yet acknowledged counts as acknowledged, and nothing at this half waits for the twin (R581). What was asked of the twin is asked no more (R403). -/
def Half.ackAll (x : Half) : Half :=
  let y := (x.twn.sent.foldl (fun (a : Half) e => a.ackEffect e.2) x).ackedBy (fun _ => true)
  (y.onTwn (fun t => { t with sent := [], applied := 0, fails := 0 })).onQue (fun m => { m with
    queues := m.queues.map (fun e => (e.1, { e.2 with asked := [], bad := none }))
    adopted := m.adopted.map (fun e => (e.1, { e.2 with asked := [], bad := none })) })

/-- MIRROR_ACK (R577): at the half that sent the message. -/
def execMirrorAck (h : HalfId) (s : State) : Host.Outcome State Fault Refusal :=
  run (fun b => if b.pair.frozen then b else b.ackOldest h) s

/-! ### Messages (R399, R577, R579, R580) -/

/-- A queue of the mirror partition changed. -/
def Mirror.onQueue (m : Mirror) (adopted : Bool) (q : Nat) (f : Queue → Queue) : Mirror :=
  { m with queues := m.queues.change (turnKey adopted q) f }

/-- The half with its mirror partitions changed. -/
def Half.onMir (x : Half) (f : Mirror → Mirror) : Half := { x with mir := f x.mir }

/-- A mirrored act on a queue, at the mirror. -/
def Mirror.queueAct (m : Mirror) (adopted : Bool) (q : Nat) (a : QAct) : Mirror :=
  match a with
  | .created u => { m with queues := m.queues.put (turnKey adopted q) u }
  | .gone => { m with queues := m.queues.drop (turnKey adopted q) }
  | .disable on => m.onQueue adopted q (fun u => u.setDisable on)
  | .restart => m.onQueue adopted q Queue.restart
  | .stopped cause index consumed =>
    m.onQueue adopted q (fun u => (if consumed then { u with fetch := u.next u.fetch } else u).stop cause index)

/-- A fetch of the twin's, at the mirror: the context, FETCH, LAST_SEQ, and the range-lock entry where it is not yet there (R343, R399). -/
def Half.mirrorFetch (x : Half) (adopted : Bool) (seq q index : Nat) (e : Entry) (keyed : Bool) : Half :=
  match x.mir.queues.find? (turnKey adopted q), Opcode.ofCode (e.byte 0) with
  | some u, some o =>
    let y := x.onMir (fun m => { (m.onQueue adopted q (fun u =>
        { u with fetch := u.next index, inflight := u.inflight + 1, lastSeq := BitVec.ofNat 64 seq })) with
      ctxs := m.ctxs.put seq (Ctx.fresh q adopted index e o u.cls keyed) })
    if keyed && !(x.que.locks.any (fun l => decide (l.seq = seq))) then
      y.onQue (fun m => { m with locks := m.locks ++ [lockOf seq e o false] })
    else y
  | _, _ => x

/-- A journal entry of the twin's, at the mirror. -/
def Mirror.take (m : Mirror) (e : JEntry) : Mirror :=
  match e.kind with
  | .record i r => { m with recs := Tab.set Rec.blank m.recs i r }
  | .region n d => { m with regions := Tab.set RgnDesc.none m.regions n d }
  | .stripe k none => { m with stripes := m.stripes.drop k }
  | .stripe k (some s) => { m with stripes := m.stripes.put k s }
  | .seed _ _ => m
  | .close _ => m
  | .defect _ => m

/-- A journal record of the twin's, with the command's progress, at the mirror (R553, R580). -/
def Half.mirrorJournal (x : Half) (es : List JEntry) (seq : Nat) (p : Progress) : Half :=
  (x.onFly (fun f => { f with mirror := f.mirror ++ es })).onMir (fun m =>
    let n := es.foldl Mirror.take m
    { n with ctxs := n.ctxs.change seq (fun c => { c with progress := p }) })

/-- A completion of the twin's: the 16 reply bytes; a PITCH that is done leaves its queue in existence (R307, R579). -/
def Mirror.complete (m : Mirror) (seq : Nat) (st : Status) (r : BitVec 112) : Mirror :=
  let n : Mirror := { m with done := m.done ++ [(seq, st, r)] }
  match m.ctxs.find? seq with
  | none => n
  | some c => if c.opcode = .pitch && st = .doneOk then n.onQueue c.adopted (c.entry.bytes 20 2) (fun u => { u with live := true }) else n

/-- A release of the twin's: the context, its completion and its entry are gone, and its queue's HEAD follows (R408, R579). -/
def Half.mirrorRelease (x : Half) (adopted : Bool) (seq q head : Nat) : Half :=
  let i := ((x.mir.ctxs.find? seq).map Ctx.index).getD head
  (x.onMir (fun m => { (m.onQueue adopted q (fun u => { u.replied i true with head := head })) with
    ctxs := m.ctxs.drop seq, done := m.done.filter (fun d => decide (d.1 ≠ seq)) })).onQue (fun m =>
      { m with locks := m.locks.filter (fun l => decide (l.seq ≠ seq)) })

/-- A message of its twin applied at half `h`. -/
def Block.applyMsg (b : Block) (h : HalfId) (m : Msg) : Block :=
  match m with
  | .tail adopted q t => b.onHalf h (fun x => x.onMir (fun m => m.onQueue adopted q (fun u => { u with tail := t, seen := t })))
  | .queue adopted q a => b.onHalf h (fun x => x.onMir (fun m => m.queueAct adopted q a))
  | .fetch true adopted seq q index e keyed _ => b.onHalf h (fun x => x.mirrorFetch adopted seq q index e keyed)
  | .fetch false _ seq q _ e _ refused =>
    if ((b.half h).que.queue? false q).any (fun u => decide (u.asked.head? = some e)) then b.answered h q seq e refused else b
  | .journal es seq p => b.onHalf h (fun x => x.mirrorJournal es seq p)
  | .profile slot p => b.onHalf h (fun x => x.onMir (fun m => { m with profiles := Tab.set 0 m.profiles slot p }))
  | .bind ch d slot => b.onHalf h (fun x => x.onMir (fun m => { m with
      chans := Tab.modify Chan.reset m.chans ch (fun k => k.onDie d (fun e => { e with slot := some slot, pulseDue := true, featDue := true })) }))
  | .complete seq st r => b.onHalf h (fun x => x.onMir (fun m => m.complete seq st r))
  | .release adopted seq q head => b.onHalf h (fun x => x.mirrorRelease adopted seq q head)
  | .sleep n => b.twinAnnounces h n true
  | .awake => b.twinAnnounces h 0 false
  | .wake => b.wake h 5
  | .seqAsk _ _ _ => b
  | .heartbeat => b
  | .handover _ => b

/-- GUY_LINK_MESSAGE (R577): the next message of its twin, applied and acknowledged. A number asked for is given by the counter's owner; every message but
SLEEP, AWAKE and WAKE needs a running half (R538). -/
def execGuyLinkMessage (h : HalfId) (s : State) : Host.Outcome State Fault Refusal :=
  run (fun b =>
    match b.incoming h with
    | none => b
    | some m =>
      if b.pair.frozen || !(b.coreRuns h || m.passes) then b
      else
        match m with
        | .seqAsk q index e => if b.pair.owner = h then b.giveNumber h q index e else b.accepted h
        | _ => (b.accepted h).applyMsg h m) s

/-! ### Link faults (R578, R583) -/

/-- A half declares a link fault: it runs alone, its mirrors are stale, and what waited for the twin goes on; `detail` tells why (R581, R583, R602, R603). -/
def Block.linkFault (b : Block) (h : HalfId) (detail : Nat) : Block :=
  ((b.onHalf h (fun x => x.ackAll.onTwn (fun t => { t with
    st := .linkFault, linkAlarm := true, stale := true, waitLock := false, late := 0 }))).raise h 105).event h 0x22 detail 0

/-- A half whose ATTACH fails while it brings its twin's mirrors up to date stands alone again (R574, R600). -/
def Half.leaveSync (x : Half) : Half := x.onTwn (fun t => { t with st := if t.st = .syncing then .solo else t.st })

/-- An ATTACH that waits fails when the link does, and a living twin returns to standby (R600); a DETACH that waits is refused, its twin no longer
attached, and the twin fetches again (R395). -/
def Block.failAttach (b : Block) (h : HalfId) : Block :=
  b.each (List.filter (fun e => decide (e.2.phase = .running)) (b.half h).que.ctxs) (fun a e =>
    if e.2.opcode = .attach then
      ((a.onHalf h.twin (fun x => x.onTwn (fun t => { t with st := if t.st = .attached || t.st = .syncing then .standby else t.st }))).onHalf h Half.leaveSync).finish h e.1 .attachFail 0
    else if e.2.opcode = .detach then
      (a.onHalf h.twin (fun x => x.onTwn (fun t => { t with holdOwn := false, holdAdopt := false }))).finish h e.1 .twinState 0
    else a)

/-- LINK_NAK (R578): the sender resends from the message that failed; after 8 consecutive failures of one message it declares a link fault. -/
def execLinkNak (h : HalfId) (s : State) : Host.Outcome State Fault Refusal :=
  run (fun b =>
    let t := (b.half h).twn
    if b.pair.frozen || t.sent.length ≤ t.applied then b
    else if 8 ≤ t.fails + 1 then (b.linkFault h 2).failAttach h
    else b.onHalf h (fun x => x.onTwn (fun t => { t with
      fails := t.fails + 1, retryCnt := satAdd 65535 t.retryCnt (t.sent.length - t.applied) }))) s

/-! ### Heartbeats (R579, R582) -/

/-- HEARTBEAT (R579): a half whose twin is attached and awake. -/
def execHeartbeat (h : HalfId) (s : State) : Host.Outcome State Fault Refusal :=
  run (fun b =>
    if b.coreRuns h && b.linked && decide ((b.half h).pwr.twinState < 2) then b.onHalf h (fun x => x.onTwn (fun t => t.push .heartbeat))
    else b) s

/-- HEARTBEAT_LATE (R582): a period without a message, at an attached half that watches no beacon. -/
def execHeartbeatLate (h : HalfId) (s : State) : Host.Outcome State Fault Refusal :=
  run (fun b =>
    let x := b.half h
    if b.coreRuns h && x.attached && !x.pwr.watching then
      (b.onHalf h (fun x => x.onTwn (fun t => { t with late := t.late + 1, lateCnt := satAdd 65535 t.lateCnt 1 }))).raise h 110
    else b) s

end Sys2Proof.Machine
end

