-- ==== Sys2Proof/Machine/TwinCmds.lean ====
section
/-!
DEFINITION. Meanings of loss, takeover, DETACH, ATTACH, YIELD and self-test (17).
-/

namespace Sys2Proof.Machine

open Sys2Proof

/-! ### Loss (R36, R539, R582, R583) -/

/-- Loss declared: state taking over, waiting changes proceed, and the interlock is watched (R581, R583, R586). What the twin knew of its dies and holds by
its bindings and replies is what its survivor's mirror holds. -/
def Block.declareLoss (b : Block) (h : HalfId) : Block :=
  let t := b.half h.twin
  b.onHalf h (fun x =>
    let y := x.ackAll.onTwn (fun w => { w with st := .takingOver, waitLock := true, late := 0 })
    { (if t.twn.drives.isEmpty then y else y.onMir (fun m => { m with
        chans := List.filter (fun e => t.drivesCh e.1) t.chans, holds := t.pool.holds.map Prod.fst })) with
      pwr := { y.pwr with watching := false, beacons := 0 } })

/-- TWIN_LOSS (R582): HB_MISS heartbeat periods without a message. -/
def execTwinLoss (h : HalfId) (s : State) : Host.Outcome State Fault Refusal :=
  run (fun b =>
    let x := b.half h
    if b.coreRuns h && x.attached && !x.pwr.watching && decide (x.twn.hbMiss ≤ x.twn.late) then b.declareLoss h else b) s

/-- BEACON_LOSS (R539): 40 µs without a toggle, seen on AON; a half that sleeps itself wakes for it. -/
def execBeaconLoss (h : HalfId) (s : State) : Host.Outcome State Fault Refusal :=
  run (fun b =>
    let x := b.half h
    if b.pair.frozen || !(x.attached && x.pwr.watching) || x.boot.failed then b else (b.wake h 5).declareLoss h) s

/-- A pad enable of the half is still active on some channel (R34, R583). -/
def Block.holdsEnable (b : Block) (h : HalfId) : Bool := b.pair.enable.any (fun e => decide (e.2 = h))

/-- INTERLOCK_WAIT_END (R583, R586): every enable of the twin dropped, the survivor owns the counter and takes over; any still held, the link is at fault. -/
def execInterlockWaitEnd (h : HalfId) (s : State) : Host.Outcome State Fault Refusal :=
  run (fun b =>
    let x := b.half h
    if !(b.coreRuns h && decide (x.twn.st = .takingOver) && x.twn.waitLock) then b
    else if b.holdsEnable h.twin then (b.linkFault h 1).failAttach h
    else (b.onHalf h (fun x => x.onTwn (fun t => { t with waitLock := false }))).onPair (fun p => { p with owner := h })) s

/-- PAD_ENABLE_LAPSE (R35): the half loses every enable. A twin in link fault that sees them drop without a YIELD raises source 105 again (R600). -/
def execPadEnableLapse (h : HalfId) (s : State) : Host.Outcome State Fault Refusal :=
  run (fun b =>
    if b.pair.frozen then b
    else
      let b1 := b.dropAll h
      if b.holdsEnable h && decide ((b.half h.twin).twn.st = .linkFault) then b1.raise h.twin 105 else b1) s

/-! ### Adoption (R303, R348, R404, R591) -/

/-- The channels a survivor takes: the home channels its twin drove, and its own that the twin drove for it. -/
def Block.toTake (b : Block) (h : HalfId) : List Nat :=
  ((populated b.variant h.twin (b.half h.twin).boot.strap ++ (b.half h).twn.remote).filter (fun c => !(b.half h).drivesCh c)).eraseDups

/-- The highest sequence number a half holds in either partition (R403). -/
def Half.topSeq (x : Half) : Nat :=
  ((x.que.ctxs.map Prod.fst) ++ (x.mir.ctxs.map Prod.fst) ++ (x.que.locks.map Lock.seq) ++
    (x.que.queues.map (fun e => e.2.lastSeq.toNat)) ++ (x.que.adopted.map (fun e => e.2.lastSeq.toNat)) ++
    (x.mir.queues.map (fun e => e.2.lastSeq.toNat))).foldl Nat.max 0

/-- A queue as the half that adopts it, or gets it back, holds it: its header due, nothing asked, its tail seen (R348, R591). -/
def Queue.handed (u : Queue) (inflight : Nat) : Queue :=
  { u with hdrDirty := decide (u.size ≠ 0), hdrOut := false, asked := [], bad := none, waiter := none, strikeBy := none, seen := u.tail
           watch := u.watch.map (fun _ => 16), inflight := inflight }

/-- The queues of a list of mirrored ones, by turn key, put among the half's own and adopted queues: what its twin held as its own becomes adopted, and what the
twin had adopted becomes its own again. A queue whose PITCH has not completed does not exist (R307). -/
def Half.adoptQueues (x : Half) (l : Tab Queue) (lost : Bool) : Half :=
  List.foldl (fun (y : Half) e =>
    let adopted := decide (e.1 < 512)
    let q := e.1 % 512
    let n := (List.filter (fun c => decide (c.2.adopted = adopted) && decide (c.2.queue = q)) y.que.ctxs).length
    let w := e.2.handed n
    if e.2.live then y.onQue (fun m => m.putQueue adopted q (if lost && e.1 = 0 then w.setDisable true else w)) else y) x l

/-- Adopted WATCH queues take free statistics slots in ascending queue number (R268). A slot takes the threshold of the queue's PITCH, no rule saying what becomes of one rewritten since
(DESIGN CHOICE, log entry 115). -/
def Half.adoptWatch (x : Half) : Half :=
  x.que.adopted.foldl (fun (y : Half) e =>
    match (if e.2.watch = some 16 then y.watchSlot else none) with
    | none => y
    | some k => y.takeWatch true e.1 k e.2.thresh) x

/-- The stripes of the twin served in slots 32 to 63, and those it had adopted in their own again (R303). -/
def Half.adoptStripes (x : Half) (l : Tab Stripe) : Half :=
  x.onPar (fun p => { p with stripes := List.foldl (fun (t : Tab Stripe) e => t.put ((e.1 + 32) % 64) e.2) p.stripes l })

/-- Records of the mirror partition, its journal and its profile slots become the half's own (R404, R586). -/
def Half.adoptRecords (x : Half) : Half :=
  { x with
    store := { x.store with
      recs := x.mir.recs.foldl (fun (t : Tab Rec) e => Tab.set Rec.blank t e.1 e.2) x.store.recs
      adoptedProfiles := x.mir.profiles }
    fly := { x.fly with journal := x.fly.journal ++ x.fly.mirror, mirror := [] }
    mir := { x.mir with recs := [], queues := [], ctxs := [], done := [], stripes := [], chans := [], holds := [] } }

/-- A half that has lost its channels, queues and commands to its twin. -/
def Half.emptied (x : Half) : Half :=
  { x with
    que := { x.que with queues := [(0, Queue.admin)], adopted := [], ctxs := [], locks := [], malformed := [] }
    par := { x.par with stripes := [], rows := [], rebuilds := [], used := 0 }
    store := { x.store with recs := [] }
    mir := { Mirror.reset with written := x.mir.written }
    fly := { x.fly with journal := [], jbase := x.fly.jbase + x.fly.journal.length, mirror := [], waiting := [], stall := false }
    twn := { x.twn with drives := [], remote := [], sent := [], applied := 0, holdOwn := false, holdAdopt := false } }

/-! ### Takeover (R586-R591) -/

/-- A die of a taken channel: nothing of what the lost half left on it goes on; RESET LUN is due, entry 0 is held, and the pulse limit and features are due
again (R197, R587). -/
def Die.seized (e : Die) : Die :=
  { e.emptied with
    slot := e.slot.map movedSlot, credit := [], lanes := [], eye := 0, entry := 0, pulseDue := true, eraseActive := false, held := false
    op := if e.present && e.slot.isSome then some (resetOp noSeq) else none }

/-- A channel as the survivor takes it: RESET LUN for every LUN of every bound die, then full training (R586, R587). -/
def Chan.seized (old k : Chan) : Chan :=
  let dies := k.dies.foldl (fun (m : Tab Die) e => Tab.set Die.absent m e.1 e.2.seized) []
  let start : Chan := { old with dies := dies, tasks := [], rate := 0, ext := false, trained := false, retired := k.retired, volSel := [], burst := none
                                 mustPoll := [], trainRun := [] }
  let resets : List BusTask := (List.filter (fun e => e.2.op.isSome) dies).map (fun e => { kind := .reset, die := e.1 })
  Chan.askRetrain { start with tasks := resets } true

/-- The survivor's enables on the taken channels, and its engines bound anew (R26, R586). -/
def Block.seize (b : Block) (h : HalfId) (l : List Nat) : Block :=
  let v := b.variant
  let b1 := b.each l (fun a c =>
    let k : Chan := Tab.get Chan.reset (a.half h).mir.chans c
    let a1 := a.onHalf h (fun x => (x.onChan c (fun old => old.seized k)).onTwn (fun t => { t with
      drives := t.drives ++ [c], remote := t.remote.filter (fun r => decide (r ≠ c)) }))
    if k.retired then a1 else a1.takeEnable h c)
  (b1.onHalf h (fun x => x.bindEngines v)).fitReserves h 0

/-- A context of the lost half at the survivor: completing, with the reply its completion message gave, or re-executed (R404, R588). -/
def Mirror.classify (m : Mirror) (seq : Nat) (c : Ctx) : Ctx :=
  let f : Ctx := { Ctx.fresh c.queue (!c.adopted) c.index c.entry c.opcode c.cls c.keyed with progress := { c.progress with ranges := [] } }
  match m.done.find? (fun d => decide (d.1 = seq)) with
  | some d => { f with phase := .finished, final := some d.2.1, result := d.2.2 }
  | none => { f with redo := true }

/-- A command of the survivor's own that runs starts again its reads on the taken channels. -/
def Ctx.senseAgain (c : Ctx) (l : List Nat) : Ctx :=
  if c.phase = .running then
    { c with cws := c.cws.map (fun k =>
        if l.contains (recCh k.idx) && (k.st = .arriving || k.st = .decode || k.st = .soft) then { k with st := .sensing } else k) }
  else c

/-- An operation whose cycles have not all gone: nothing of it can go on without its command. -/
def DieOp.unstarted (o : DieOp) : Bool := decide (o.phase = .queued) || decide (o.phase = .issue) || decide (o.phase = .dataIn)

/-- Die operations of commands that no longer run: those that wait, or whose data had not all crossed, are gone, and one that runs is no command's. -/
def Chan.disownDie (k : Chan) (seqs : List Nat) (d : Nat) : Chan :=
  let gone := fun (o : DieOp) => seqs.contains o.seq && o.unstarted
  let strip := fun (o : DieOp) => if seqs.contains o.seq then { o with seq := noSeq } else o
  let e := k.die d
  let j := if (e.op.toList ++ e.under.toList).any gone then k.dropTasks d else k
  j.onDie d (fun e => { e with
    op := (e.op.filter (fun o => !gone o)).map strip, under := (e.under.filter (fun o => !gone o)).map strip, ops := e.ops.filter (fun o => !seqs.contains o.seq) })

/-- The survivor's dies and cores let go of the commands that run again. -/
def Half.disown (x : Half) (seqs : List Nat) : Half :=
  let y := x.onDriven (fun k => (k.dies.map Prod.fst).foldl (fun j d => j.disownDie seqs d) k)
  let gone := (x.dec.busy.filter (fun e => seqs.contains e.seq)).map CoreJob.id
  { y with
    dec := { y.dec with busy := y.dec.busy.filter (fun e => !seqs.contains e.seq) }
    arb := { y.arb with dec := { y.arb.dec with held := y.arb.dec.held.filter (fun i => !gone.contains i) } } }

/-- What a void step makes of a unit's record: VALID falls by the passes counted, VOID_CNT rises by the pages (R113, R114, R589). -/
def voidPages (r : Rec) (pages passes : Nat) : Rec :=
  let n := if passes = 0 then r else invalidated r passes
  { n with voidCnt := satBits n.voidCnt pages }

/-- The reserved ranges of one re-executed command void: one journal record per unit, UNDERFLOW where a unit's VALID lies below the passes taken off it, a notice for each range (R113,
R589, R602). -/
def Block.voidRanges (b : Block) (h : HalfId) (l : List (Nat × Nat × Nat × Nat × Nat)) : Block :=
  let units := (l.map (fun r => r.1)).eraseDups
  let b1 := b.each units (fun a i =>
    let mine := l.filter (fun r => decide (r.1 = i))
    let tag := (mine.map (fun r => r.2.2.2.1)).headD 0
    let gseq := if tag = 0 then 0 else (a.pair.groups.find? tag).elim 0 Group.gseq
    let passes := (mine.map (fun r => r.2.2.2.2)).sum
    (a.updRec h none i tag gseq false (fun r => voidPages r (mine.map (fun r => r.2.2.1)).sum passes)).underflow h
      (decide (((a.half h).rec? i).valid.toNat < passes)))
  b1.each l (fun a r => a.event h 0x21 r.2.2.1 (at' r.1 0 24 + at' r.2.1 32 16 + at' r.2.2.2.1 48 16))

/-- Parity programs that the reset of a taken channel cuts short, or that never started, have failed (R282, R589). -/
def Block.cutParity (b : Block) (h : HalfId) (o : DieOp) : Block :=
  let slot := (o.block + 32) % 64
  (b.updRec h none o.recIdx 0 0 false (fun r => { r with grownBad := true, failCnt := satBits r.failCnt 1 })).event h 0x13 slot
    (b.pagePaddr o.recIdx (o.pages.headD 0))

/-- Commands of the survivor's own whose programs and erases a taken channel's reset ends: they fail as an operation that times out does; its reads are sensed
again. -/
def Block.ownOps (b : Block) (h : HalfId) (l : List Nat) (ops : List DieOp) : Block :=
  let b1 := b.onHalf h (fun x => x.onQue (fun m => { m with
    ctxs := m.ctxs.map (fun e => (e.1, e.2.senseAgain l)), jobs := m.jobs.map (fun e => (e.1, e.2.senseAgain l)) }))
  let b2 := b1.each (ops.filter (fun o => ((b.half h).ctx? o.seq).isSome && (decide (o.kind = .program) || decide (o.kind = .erase))))
    (fun a o => a.endOp o)
  b2.each ((b2.half h).que.readers.map Prod.fst) (fun a q => if ((b.half h).ctx? q).isSome then a.askSense q else a)

/-- Holds of a half taken over are lost (R203). -/
def Block.lostHolds (b : Block) (h : HalfId) (tags : List Nat) : Block := b.each tags (fun a t => a.event h 0x11 t 2)

/-- A takeover's outcome: what TWN_LAST and TWN_VOIDS show, and what its notice tells (R602, R604). -/
structure Taken where
  chans   : Nat
  queues  : Nat
  redo    : Nat
  replies : Nat
  pages   : Nat
  us      : Nat
  deriving DecidableEq, Repr

/-- The end of a takeover: state solo, TWN_LAST and TWN_VOIDS, source 104, the notice (R586, R602). -/
def Block.tookOver (b : Block) (h : HalfId) (t : Taken) : Block :=
  let b1 := b.onHalf h (fun x => { x with
    twn := { x.twn with st := .solo, tTake := Nat.min t.us 65535, reexec := Nat.min t.redo 65535, voids := Nat.min t.pages 65535
                        replies := Nat.min t.replies 65535 }
    pwr := { x.pwr with twinState := 7 } })
  (((b1.raise h 104).event h 0x20 h.twin.code (at' t.chans 0 16 + at' t.queues 16 16 + at' t.redo 32 16 + at' t.replies 48 16 +
    at' t.us 64 16)).noteDegraded h).notePool h

/-- The takeover of R586: `us` is the time since the lost half's last message, `flash` the member pages of the adopted stripes' rows as their
reads delivered them, one that is missing being uncorrectable (R301, R302). -/
def Block.takeOver (b : Block) (h : HalfId) (us : Nat) (flash : List FlashPage) : Block :=
  let x := b.half h
  let m := x.mir
  let l := b.toTake h
  let ops := (l.map (fun c => (Tab.get Chan.reset m.chans c).allOps)).flatten
  let ctxs := List.map (fun e => (e.1, m.classify e.1 e.2)) m.ctxs
  let redo := List.filter (fun e => e.2.redo) ctxs
  let ranges := redo.map (fun e => ((m.ctxs.find? e.1).elim [] (fun c => c.progress.ranges)))
  let top := if b.pair.owner = h then b.pair.nextSeq.toNat else Nat.min b.pair.nextSeq.toNat (x.topSeq + 1)
  let b0 := b.onHalf h.twin (fun t => { t.emptied with boot := { t.boot with failed := t.boot.failed || !t.aside } })
  let b1 := (b0.seize h l).onPair (fun p => { p with nextSeq := BitVec.ofNat 64 top })
  let b2 := b1.onHalf h (fun y =>
    let z := ((y.disown (m.ctxs.map Prod.fst)).adoptStripes m.stripes).adoptRecords
    ((z.onQue (fun n => { n with
      ctxs := ctxs.foldl (fun (t : Tab Ctx) e => t.put e.1 e.2) n.ctxs
      locks := n.locks.map (fun k => { k with own := true }) })).adoptQueues m.queues true).adoptWatch)
  let b3 := b2.each ranges (fun a r => a.voidRanges h r)
  let b4 := b3.onHalf h (fun y => y.onTwn (fun t => { t with voided := ranges.flatten.map (fun r => (r.1, r.2.1, r.2.2.1)) }))
  let b5 := (b4.each (ops.filter (fun o => decide (o.kind = .parity))) (fun a o => a.cutParity h o)).ownOps h l ops
  let b6 := (b5.rebuildAccs h ((List.range 64).filter (fun n => (m.stripes.find? ((n + 32) % 64)).isSome)) flash).lostHolds h m.holds
  let waiting := List.filter (fun e => decide (e.2.phase = .running)) (b6.half h).que.ctxs
  let b7 := b6.each waiting (fun a e => if e.2.opcode = .detach then a.finish h e.1 .doneOk 0
    else if e.2.opcode = .attach then a.finish h e.1 .attachFail 0 else a)
  let b8 := b7.serveUnbound h
  b8.tookOver h { chans := maskOf l, queues := (List.filter (fun e => e.2.live) m.queues).length, redo := redo.length
                  replies := ctxs.length - redo.length, pages := (ranges.flatten.map (fun r => r.2.2.1)).sum, us := us }

/-- TAKEOVER (R586-R591, R600): once the interlock has shown every channel dropped. -/
def execTakeover (h : HalfId) (us : Nat) (flash : List FlashPage) (s : State) : Host.Outcome State Fault Refusal :=
  run (fun b =>
    let t := (b.half h).twn
    if b.coreRuns h && decide (t.st = .takingOver) && !t.waitLock then b.takeOver h us flash else b) s

/-! ### DETACH (R395, R597) -/

/-- Every context and parity program of a half has ended, and its last releases are acknowledged (R597). -/
def Half.drained (x : Half) : Bool :=
  x.que.ctxs.isEmpty && x.que.malformed.isEmpty && x.twn.sent.isEmpty &&
    x.twn.drives.all (fun c => List.all (x.chan c).dies (fun e => e.2.allOps.isEmpty))

/-- The twin named by DETACH or ATTACH is this half itself (R395). -/
def namesSelf (h : HalfId) (e : Entry) : Bool := decide (e.byte 20 % 2 = h.code)

/-- Rows of the twin's open stripes, by their slots here. -/
def rowsMoved (t : Tab Row) : Tab Row := List.foldl (fun (m : Tab Row) e => m.put ((e.1 / 65536 + 32) % 64 * 65536 + e.1 % 65536) e.2) [] t

/-- The queues a half holds, by turn key. -/
def Half.heldQueues (x : Half) : Tab Queue := x.que.queues ++ x.que.adopted.map (fun e => (e.1 + 512, e.2))

/-- Steps 3 to 5 of R597: the twin's channels move here, its partitions and queues become this half's own, the twin enters standby. -/
def Block.detach (b : Block) (h : HalfId) (seq : Nat) : Block :=
  let t := h.twin
  let y := b.half t
  let b1 := b.each y.twn.drives (fun a c => if ((a.half t).chan c).retired then a else a.moveChan t c 3)
  let b2 := (b1.onHalf h (fun x => ((x.adoptStripes y.par.stripes).onPar (fun p =>
      { p with rows := (rowsMoved y.par.rows).foldl (fun (q : Tab Row) e => q.put e.1 e.2) p.rows })).countAcc))
  let b3 := b2.onHalf h (fun x => ((x.adoptRecords.adoptQueues y.heldQueues false).adoptWatch).onTwn (fun w => { w with
    st := .solo, remote := [], drives := w.drives ++ (y.twn.drives.filter (fun c => !w.drives.contains c)), holdAdopt := false }))
  let b4 := (b3.each (y.pool.holds.map Prod.fst) (fun a k => a.loseHold t 2 k)).onHalf t (fun z => { z.emptied with
    twn := { z.emptied.twn with st := .standby } })
  let b5 := (b4.onPair (fun p => { p with owner := h })).onHalf h (fun x => { x.bindEngines b.variant with pwr := { x.pwr with twinState := 7 } })
  (((((b5.fitReserves h 0).serveUnbound h).noteDegraded h).notePool h).finish h seq .doneOk 0).event h 0x25 1 0

/-- DETACH (R395, R597): its twin fetches nothing more, and once it is drained, steps 3 to 5 take place; the command is looked at again until then. -/
def execDetach (h : HalfId) (seq : Nat) (s : State) : Host.Outcome State Fault Refusal :=
  run (fun b =>
    match (b.half h).ctx? seq with
    | none => b
    | some c =>
      if !b.coreRuns h || b.pair.latched || decide (c.opcode ≠ .detach) then b
      else if c.phase = .left then
        if namesSelf h c.entry || !b.linked || c.redo then b.refuse h seq .twinState
        else ((b.running seq).onHalf h.twin (fun x => x.onTwn (fun t => { t with holdOwn := true, holdAdopt := true })))
      else if decide (c.phase = .running) && b.linked && (b.half h.twin).drained then b.detach h seq
      else b) s

/-! ### ATTACH (R395, R599) -/

/-- The result of a self-test (R598, R604). -/
def Half.tested (x : Half) (cause : Nat) : Half :=
  x.onTwn (fun t => { t with stDone := true, stFail := decide (cause ≠ 0), stCause := cause % 256 })

/-- The self-test of standby half `h` ended: its registers, and at the half that stays source 107 and the standby notice (R598, R602). -/
def Block.selfTested (b : Block) (h : HalfId) (cause : Nat) : Block :=
  ((b.onHalf h (fun x => x.tested cause)).raise h.twin 107).event h.twin 0x24 (cause % 256) 0

/-- The standby half's microcode loaded, from the regions as its survivor keeps them, and its engines bound anew (R19, R21). -/
def Block.attachUcode (b : Block) (h : HalfId) (good : List (Nat × Bool × Bool)) (table : List Family) : Block :=
  let t := h.twin
  let regs := (b.half h).mir.regions
  let b1 := b.takeUcode t (if regs.isEmpty then (b.half t).win.desc else regs) good
  (b1.bindTable t table).onHalf t (fun x => x.bindEngines b.variant)

/-- Steps 2 and 3 of R599: the standby half's mirrors made current, both halves attached, half A the counter's owner, source 109; channels without an engine are handed over or
retired (R23). -/
def Block.attach (b : Block) (h : HalfId) (good : List (Nat × Bool × Bool)) (table : List Family) : Block :=
  let t := h.twin
  let regs := (b.half h).mir.regions
  let b1 := (b.attachUcode h good table).fillMirror t
  let up := fun (x : Half) => { x with
    twn := { x.twn with st := .attached, sent := [], applied := 0, fails := 0, late := 0, stale := false }
    pwr := { x.pwr with twinState := 0, watching := false } }
  let b2 := (b1.onHalf h (fun x => up { x with mir := { Mirror.reset with regions := regs, written := x.mir.written }, fly := { x.fly with mirror := [] } })).onHalf t (fun x =>
    up { x with boot := { x.boot with stage := 7 } })
  (((b2.onPair (fun p => { p with owner := .a })).raise h 109).serveUnbound h).noteDegraded h

/-- A record of a channel whose home is half `t`. -/
def homeRec (t : HalfId) (i : Nat) : Bool := decide (Config.homeOf (recCh i) = t)

/-- Journal entries that the hand-back takes to half `t`: those of its home records. -/
def homeEntry (t : HalfId) (e : JEntry) : Bool :=
  match e.kind with
  | .record i _ => homeRec t i
  | _ => false

/-- Step 5 of R599: the twin's home channels move back to it, with their units' records and stripes and the adopted queues. -/
def Block.handBack (b : Block) (h : HalfId) : Block :=
  let t := h.twin
  let homes := (b.half h).twn.drives.filter (fun c => decide (Config.homeOf c = t))
  let b1 := b.onHalf t (fun z => { z with store := { z.store with profiles := (b.half h).store.adoptedProfiles } })
  let b2 := b1.each homes (fun a c => if ((a.half h).chan c).retired then a else a.moveChan h c 4)
  let x := b2.half h
  let back := List.filter (fun e => decide (32 ≤ e.1)) x.par.stripes
  let isBack := fun (k : Nat) => decide (32 * 65536 ≤ k)
  let b3 := b2.onHalf t (fun z => (({ z with
    store := { z.store with
      recs := List.filter (fun e => homeRec t e.1) x.store.recs, defects := x.store.defects, poisoned := x.store.poisoned.filter (fun e => homeRec t e.1) }
    win := { z.win with desc := x.mir.regions }
    fly := { z.fly with journal := z.fly.journal ++ (x.fly.journal.filter (homeEntry t)).map (fun (e : JEntry) => { e with old := false }) }
    twn := { z.twn with remote := [], holdOwn := false, holdAdopt := false, drives := z.twn.drives ++ (homes.filter (fun c => !z.twn.drives.contains c)) }
    par := { z.par with stripes := back.map (fun (e : Nat × Stripe) => (e.1 - 32, e.2)), rows := rowsMoved (List.filter (fun e => isBack e.1) x.par.rows) } }).countAcc))
  let b4 := b3.onHalf t (fun z => x.que.adopted.foldl (fun (y : Half) e => y.onQue (fun m => m.putQueue false e.1 (e.2.handed 0))) z)
  let b5 := b4.onHalf h (fun y0 =>
    let y : Half := y0.que.adopted.foldl (fun (w : Half) e => w.freeWatch e.2.watch) y0
    let z : Half := { y with
      que := { y.que with adopted := [] }
      store := { y.store with recs := List.filter (fun e => !homeRec t e.1) y.store.recs, adoptedProfiles := [] }
      fly := { y.fly with journal := y.fly.journal.filter (fun e => !homeEntry t e), jbase := y.fly.jbase + (y.fly.journal.filter (fun e => homeEntry t e && e.old)).length }
      twn := { y.twn with remote := [], holdAdopt := false, drives := y.twn.drives.filter (fun c => !homes.contains c) }
      par := { y.par with stripes := List.filter (fun e => decide (e.1 < 32)) y.par.stripes, rows := List.filter (fun e => !isBack e.1) y.par.rows } }
    z.countAcc)
  let b6 := (b5.onHalf h (fun y => y.bindEngines b.variant)).fitReserves h 0
  (((((b6.placeJobs h).fillMirror h).fillMirror t).noteDegraded h).noteDegraded t).notePool h

/-- The adopted queues of a half are drained: no context, nothing asked, no reply to a malformed entry, no parity program of an adopted stripe (R597, R599). -/
def Half.adoptedDrained (x : Half) : Bool :=
  !(List.any x.que.ctxs (fun e => e.2.adopted)) && !(List.any x.que.adopted (fun e => !e.2.asked.isEmpty)) && !(x.que.malformed.any BadReply.adopted) &&
    x.twn.drives.all (fun c => List.all (x.chan c).dies (fun e => e.2.allOps.all (fun o => !(decide (o.kind = .parity) && decide (32 ≤ o.block)))))

/-- ATTACH admitted: self-tested where it has not passed, and both halves syncing until the command is looked at again (R599 steps 1 and 2; DESIGN CHOICE, log entry 114). -/
def Block.attachCmd (b : Block) (h : HalfId) (seq cause : Nat) : Block :=
  let y := b.half h.twin
  let passed := y.twn.stDone && !y.twn.stFail
  let b1 := if passed then b else b.onHalf h.twin (fun x => x.tested cause)
  if !passed && decide (cause ≠ 0) then b1.finish h seq .attachFail 0
  else
    let sync := fun (x : Half) => x.onTwn (fun t => { t with st := .syncing })
    ((b1.running seq).onHalf h sync).onHalf h.twin sync

/-- ATTACH with both halves syncing: the mirrors made current, and done, or with HANDBACK waiting for the adopted queues to drain (R599). -/
def Block.attachSynced (b : Block) (h : HalfId) (seq : Nat) (c : Ctx) (good : List (Nat × Bool × Bool)) (table : List Family) : Block :=
  let b2 := b.attach h good table
  if c.entry.flag 0 then b2.onHalf h (fun x => x.onTwn (fun t => { t with holdAdopt := true }))
  else (b2.finish h seq .doneOk 0).event h 0x25 2 0

/-- ATTACH (R19, R395, R599): `cause` is the outcome of the twin's self-test, 0 where it passes; `good` tells which copies of which microcode regions can be read, `table` is the image's
die-family table. The command is looked at again while both halves are syncing, and with HANDBACK until the adopted queues are drained. -/
def execAttach (h : HalfId) (seq : Nat) (cause : Nat) (good : List (Nat × Bool × Bool)) (table : List Family) (s : State) : Host.Outcome State Fault Refusal :=
  run (fun b =>
    match (b.half h).ctx? seq with
    | none => b
    | some c =>
      if !b.coreRuns h || b.pair.latched || decide (c.opcode ≠ .attach) then b
      else if c.phase = .left then
        if namesSelf h c.entry || decide ((b.half h.twin).twn.st ≠ .standby) || c.redo then b.refuse h seq .twinState
        else if b.coreRuns h.twin then b.attachCmd h seq cause
        else b
      else if c.phase ≠ .running then b
      else if decide ((b.half h).twn.st = .syncing) && decide ((b.half h.twin).twn.st = .syncing) then
        if b.coreRuns h.twin then b.attachSynced h seq c good table else b
      else if !b.linked then b.failAttach h
      else if (b.half h).adoptedDrained then
        ((b.handBack h).finish h seq .doneOk 0).event h 0x25 3 0
      else b) s

/-! ### YIELD and self-test (R585, R598) -/

/-- YIELD written: only a half in link fault yields; it drains, and fetches nothing more (R585). -/
def Block.askYield (b : Block) (h : HalfId) : Block :=
  if (b.half h).twn.st = .linkFault then
    b.onHalf h (fun x =>
      let y := x.onTwn (fun t => { t with st := .yielding, holdOwn := true, holdAdopt := true })
      y.onQue (fun m => { m with
        queues := m.queues.map (fun e => (e.1, e.2.setDisable true)), adopted := m.adopted.map (fun e => (e.1, e.2.setDisable true)) }))
  else b

/-- TWN_CTL_YIELD (R585). -/
def execTwnCtlYield (h : HalfId) (s : State) : Host.Outcome State Fault Refusal :=
  portRun h causeRegister (.twnCtlYield h) (fun b => b.askYield h) s

/-- A channel taken from a half that yielded: its dies as they stand (R585, R595). -/
def Block.takeYielded (b : Block) (h : HalfId) (c : Nat) : Block :=
  let x := b.half h.twin
  let b1 := b.onHalf h (fun y =>
    let z := (y.onChan c (fun old => old.received (x.chan c))).onTwn (fun t => { t with drives := t.drives ++ [c] })
    z.onStore (fun s => { s with adoptedProfiles := x.store.profiles }))
  (b1.takeEnable h c).movedNotice h c 2 6

/-- The yielded half's records restored from its CLEAN checkpoint, its stripes with them, and its channels taken (R303, R585). -/
def Block.takeAfterYield (b : Block) (h : HalfId) (ckpt : Ckpt) (flash : List FlashPage) : Block :=
  let b1 := b.onHalf h (fun x => ((x.onStore (fun s => { s with
    recs := ckpt.recs.foldl (fun (t : Tab Rec) e => Tab.set Rec.blank t e.1 e.2) s.recs, defects := ckpt.defects
    poisoned := s.poisoned.filter (fun e => !homeRec h.twin e.1) })).onMir (fun (m : Mirror) => { m with regions := ckpt.regions })).adoptStripes ckpt.stripes)
  let b2 := (b1.each (b.toTake h) (fun a c => a.takeYielded h c)).onHalf h (fun x => (x.onTwn (fun t => { t with
    st := .solo, remote := [] })).bindEngines b.variant)
  let b3 := ((b2.fitReserves h 0).serveUnbound h).rebuildAccs h ((List.range 64).filter (fun n => (ckpt.stripes.find? ((n + 32) % 64)).isSome)) flash
  (((b3.raise h 111).noteDegraded h).notePool h).onPair (fun p => { p with
    owner := h, nextSeq := BitVec.ofNat 64 (Nat.max p.nextSeq.toNat ckpt.nextSeq.toNat) })

/-- A half in link fault finds its twin's enables dropped and a sealed CLEAN checkpoint, the one that its twin sealed in yielding (R585). -/
def Block.yieldFound (b : Block) (h : HalfId) (ckpt : Ckpt) : Bool :=
  decide ((b.half h).twn.st = .linkFault) && ckpt.clean && (b.half h.twin).twn.yieldSeq.all (fun q => decide (q = ckpt.seq))

/-- A half that serves by itself finds its twin halted in bring-up with channels to take (R633). -/
def Block.twinHalted (b : Block) (h : HalfId) : Bool :=
  let t := (b.half h.twin).boot
  decide ((b.half h).twn.st = .solo) && decide ((b.half h).boot.stage = 7) && decide (t.stage = 15) && !t.strapErr && !(b.toTake h).isEmpty

/-- YIELDED_CHANNELS_TAKE (R585): after a twin's YIELD, or as for a yield where the twin has halted in bring-up (R633). -/
def execYieldedChannelsTake (h : HalfId) (ckpt : Ckpt) (flash : List FlashPage) (s : State) : Host.Outcome State Fault Refusal :=
  run (fun b =>
    if b.coreRuns h && (b.yieldFound h ckpt || b.twinHalted h) && !b.holdsEnable h.twin && decide (ckpt.half = h.twin) &&
        decide (0 < ckpt.sealed) then b.takeAfterYield h ckpt flash
    else b) s

/-- SELFTEST written: only a standby half tests itself (R598). -/
def Block.askSelftest (b : Block) (h : HalfId) (cause : Nat) : Block :=
  if (b.half h).twn.st = .standby then b.selfTested h cause else b

/-- TWN_CTL_SELFTEST (R598): in a standby half; `cause` is the first test that fails, 0 where all pass. -/
def execTwnCtlSelftest (h : HalfId) (cause : Nat) (s : State) : Host.Outcome State Fault Refusal :=
  portRun h causeRegister (.twnCtlSelftest h cause) (fun b => b.askSelftest h cause) s

end Sys2Proof.Machine
end

