-- ==== Sys2Proof/Machine/RegRead.lean ====
section
/-!
DEFINITION. What every register reads, without the side effects of R644: the tables of 20 and of each chapter. An offset that no table maps
reads zero (R54), and so does a unit that the configuration lacks (R648).
-/

namespace Sys2Proof.Machine

open Sys2Proof

/-- Where offset `o` stands in `n` blocks of `stride` bytes from `base`: the block's number and the offset inside it. -/
def blockAt (o base stride n : Nat) : Option (Nat × Nat) :=
  if base ≤ o ∧ (o - base) / stride < n then some ((o - base) / stride, (o - base) % stride) else none

/-- The number of a register of a family of words from `base`. -/
def famAt (o base n : Nat) : Option Nat :=
  if base ≤ o ∧ (o - base) % 4 = 0 ∧ (o - base) / 4 < n then some ((o - base) / 4) else none

/-! ### GEN (20, *GEN*; 01, 02, 05, 10, 19) -/

/-- ROLE of an engine as GEN_ENG_MAPn codes it. -/
def Role'.code : Role' → Nat
  | .unloaded => 0 | .spare => 1 | .bound => 2 | .background => 3 | .retired => 4

/-- The channel of a background job's current work: where a die runs an operation of its command, else that of the unit it writes or reads (R27). -/
def Half.jobChan (x : Half) (q : Nat) : Nat :=
  match List.find? (fun e => e.2.runsFor q) x.chans with
  | some e => e.1
  | none => (x.ctx? q).elim 0 (fun c => recCh (((c.cws.head?).map Cw.idx).getD c.dstIdx))

/-- CHAN of an engine's current work (R27). -/
def Half.engineChan (x : Half) (e : Engine) : Nat :=
  match e.role with
  | .bound => e.chan
  | .background => e.job.elim 0 x.jobChan
  | _ => 0

/-- GEN_ENG_MAPn (R27). -/
def Half.engMap (x : Half) (n : Nat) : Nat :=
  ((List.range 4).map (fun k =>
    at' (x.engineChan (x.engine (4 * n + k))) (8 * k) 4 + at' (x.engine (4 * n + k)).role.code (8 * k + 4) 3)).sum

/-- GEN_BOOT (R638). -/
def Boot.word (t : Boot) : Nat :=
  at' t.stage 0 4 + at' t.ucode 4 2 + at' (bitOf t.blank) 6 1 + at' (bitOf t.recovering) 7 1 + at' (bitOf t.degraded) 8 1 +
    at' (bitOf t.rstRefused) 9 1 + at' t.haltCause 12 4 + at' t.tReady 16 16

/-- The registers of GEN. -/
def Block.readGen (b : Block) (h : HalfId) (o : Nat) : Nat :=
  let v := b.variant
  let x := b.half h
  match o with
  | 0x000 => Config.per v 0x1610 0x0410 + at' Config.siliconStep.toNat 16 8 + at' h.code 24 1
  | 0x004 =>
    at' (Config.homeCount v) 0 4 + at' (Config.engines v) 4 5 + at' (Config.hardCores v) 9 4 + at' (Config.softCores v) 13 3 +
      at' (Config.per v 8192 2048) 16 16
  | 0x008 => at' (Config.queues v) 0 10 + at' (Config.contexts v) 10 12 + at' (Config.gutters v) 22 6 + at' (Config.loops v) 28 4
  | 0x00C => at' (Config.records v) 0 18 + at' (Config.sources v) 18 9 + at' (Config.per v 0 1) 27 1
  | 0x010 => x.boot.ucodeSeq.toNat
  | 0x014 => x.gen.scratch.toNat
  | 0x100 => x.strapWord
  | 0x104 => x.boot.split.toNat
  | 0x110 => x.boot.word
  | 0x210 => at' x.gen.bgMax 0 3
  | 0x300 => x.gen.progSusp.toNat + at' x.gen.ersSusp.toNat 4 4 + at' x.gen.readsMax 8 6 + at' x.gen.gapUs 16 8
  | 0x304 => at' x.gen.openMax 0 9 + at' x.gen.holdMax 9 7 + at' x.gen.ersMark 16 16
  | 0x308 => at' (b.openUnits h).length 0 10 + at' x.pool.holds.length 16 7
  | 0x30C => at' x.gen.ceiling 0 10
  | 0x400 =>
    at' x.gen.wHost 0 4 + at' x.gen.wReclaim 4 4 + at' x.gen.wRecord 8 4 + at' x.gen.wMaint 12 4 + at' x.reclaimWeight 16 4
  | _ =>
    match famAt o 0x200 4 with
    | some n => x.engMap n
    | none => 0

/-! ### QUE and DBL (08; QUE_RL_STAT in 10) -/

/-- SEQ_OWNER: the reset value until admin ready, and from then the half that allocates the numbers (R398, R626). -/
def Block.seqOwner (b : Block) (h : HalfId) : Bool :=
  if (b.half h).ready then b.allocates h && !(b.half h).aside else decide (h = .a)

/-- QUE_QSTATq and QUE_TQSTATq (R351): zero where there is no queue of that number, or its PITCH has not completed. -/
def QueMgr.qstat (m : QueMgr) (adopted : Bool) (q : Nat) : Nat :=
  match m.queue? adopted q with
  | none => 0
  | some u =>
    if u.live then
      let idle := m.idle adopted q u
      at' (u.shown idle) 0 3 + at' u.cls 3 2 + at' (bitOf (u.watch.any (fun k => decide (k < 16)))) 5 1 + at' (bitOf idle) 6 1 +
        at' (bitOf u.dbIgnored) 7 1 + at' u.errCause 8 4 + at' u.errIndex 16 16
    else 0

/-- DISABLE of a queue's control register. -/
def QueMgr.qctl (m : QueMgr) (adopted : Bool) (q : Nat) : Nat := (m.queue? adopted q).elim 0 (fun u => bitOf u.disable)

/-- The queues of register word `n` that are in the error state (QUE_ERRSUMn, TWN_TERRSUMn). -/
def errorBits (t : Tab Queue) (n : Nat) : Nat :=
  ((List.range 32).map (fun k => at' (bitOf ((t.find? (32 * n + k)).any (fun u => decide (u.state = .error)))) k 1)).sum

/-- The registers of QUE. -/
def Block.readQue (b : Block) (h : HalfId) (o : Nat) : Nat :=
  let n := Config.queues b.variant
  let m := (b.half h).que
  match o with
  | 0x1000 => at' m.burst 0 4
  | 0x1010 => fieldOf m.admRing 0 32
  | 0x1014 => fieldOf m.admRing 32 32
  | 0x1018 => fieldOf m.admHdr 0 32
  | 0x101C => fieldOf m.admHdr 32 32
  | 0x1020 => at' m.admSize 0 4 + at' m.admGutter 4 5 + at' (bitOf m.admNotify) 9 1 + at' m.admQuota 16 12
  | 0x1030 => at' m.ctxs.length 0 13 + at' (bitOf m.stray) 13 1 + at' m.strayQ 16 10
  | 0x1038 => fieldOf b.pair.nextSeq 0 32
  | 0x103C => m.seqHi.toNat
  | 0x1040 => at' (m.locks.filter (fun l => l.own)).length 0 13 + at' m.stalledCount 16 13 + at' (bitOf (b.seqOwner h)) 31 1
  | _ =>
    match famAt o 0x1100 16, famAt o 0x2000 n, famAt o 0x3000 n, famAt o 0x4000 n, famAt o 0x5000 n with
    | some k, _, _, _, _ => errorBits m.queues k
    | _, some q, _, _, _ => m.qstat false q
    | _, _, some q, _, _ => m.qctl false q
    | _, _, _, some q, _ => m.qstat true q
    | _, _, _, _, some q => m.qctl true q
    | _, _, _, _, _ => 0

/-- DBL_Q and DBL_TQ: the last accepted tail (R323). -/
def Block.readDbl (b : Block) (h : HalfId) (o : Nat) : Nat :=
  let m := (b.half h).que
  match blockAt o 0x10000 8 (Config.queues b.variant), blockAt o 0x11000 8 (Config.queues b.variant) with
  | some (q, 0), _ => (m.queue? false q).elim 0 (fun u => at' u.tail 0 16)
  | _, some (q, 0) => (m.queue? true q).elim 0 (fun u => at' u.tail 0 16)
  | _, _ => 0

/-! ### CHN (04, 05) -/

/-- OWNER of CHN_STAT: the half whose enable is active. -/
def Block.ownerCode (b : Block) (c : Nat) : Nat :=
  match b.pair.enable.find? c with
  | none => 0
  | some .a => 1
  | some .b => 2

/-- CHN_STAT. -/
def Block.chanStat (b : Block) (c : Nat) (k : Chan) : Nat :=
  at' k.rate 0 4 + at' (bitOf k.ext) 4 1 + at' (bitOf k.trained) 5 1 + at' (bitOf k.trainFail) 6 1 + at' (bitOf k.alarm) 7 1 +
    at' (b.ownerCode c) 8 2 + at' (bitOf k.padFail) 10 1 +
    ((List.range 8).map (fun d => at' (bitOf ((k.die d).present && (k.die d).slot.isSome)) (16 + d) 1)).sum

/-- CHN_DIEd. -/
def Die.word (e : Die) : Nat :=
  bitOf (e.present && e.slot.isSome) + at' (bitOf e.vol.isSome) 1 1 + at' (bitOf e.busy) 2 1 + at' (bitOf e.suspended) 3 1 +
    at' e.timeouts 4 4 + at' (e.family.elim 0xFF Family.index) 8 8 + at' e.eye 16 6 + at' e.rateOk 22 4

/-- CHN_EAGEd. -/
def Die.ageWord (e : Die) : Nat :=
  at' e.eraseAge 0 16 + at' e.eraseSusp 16 8 + at' (bitOf e.eraseActive) 24 1 + at' (bitOf e.starved) 25 1

/-- CHN_DSKd_L. An eye of all 64 taps does not fit the six bits of EYE, here and in CHN_DIEd: it reads as its low six bits (DESIGN CHOICE, log entry 91). -/
def Lane.word (l : Lane) : Nat := at' l.rd 0 6 + at' l.wr 8 6 + at' l.eye 16 6

/-- The registers of one channel's block. -/
def Block.readChan (b : Block) (c : Nat) (k : Chan) (o : Nat) : Nat :=
  let g := k.cfg
  match o with
  | 0x000 => at' g.rateCap 0 4 + at' (bitOf g.monEn) 6 1
  | 0x004 => b.chanStat c k
  | 0x008 => at' g.periodMs 0 16 + at' g.eyeMin 16 6 + at' g.monLimit 24 8
  | 0x00C => at' g.interval 0 12 + at' g.firstPct 12 7 + at' g.timeoutX 19 4
  | 0x010 => k.busyCyc.toNat
  | 0x014 => k.dataCyc.toNat
  | _ =>
    match famAt o 0x20 8, famAt o 0x40 8, blockAt o 0x100 0x40 8 with
    | some d, _, _ => (k.die d).word
    | _, some d, _ => (k.die d).ageWord
    | _, _, some (d, r) => if r < 40 ∧ r % 4 = 0 then (Tab.get Lane.reset (k.die d).lanes (r / 4)).word else 0
    | _, _, _ => 0

/-- The registers of CHN: those of the channels the configuration has. -/
def Block.readChn (b : Block) (h : HalfId) (o : Nat) : Nat :=
  match blockAt o 0x20000 0x1000 16 with
  | some (c, r) => if (Config.pairChannels b.variant).contains c then b.readChan c ((b.half h).chan c) r else 0
  | none => 0

/-! ### DEC and PAR (06, 07) -/

/-- The registers of DEC. -/
def Block.readDec (b : Block) (h : HalfId) (o : Nat) : Nat :=
  let d := (b.half h).dec
  match o with
  | 0x30000 => at' d.hardIter 0 6 + at' d.softIter 8 6 + at' d.erasedMax 16 8 + at' d.stepEn.toNat 24 3
  | 0x30004 => b.pair.seed.toNat
  | 0x30008 => bitOf (b.ha.dec.refused || b.hb.dec.refused) + at' (bitOf (b.ha.dec.seedWait || b.hb.dec.seedWait)) 1 1
  | 0x3000C => d.llr.toNat
  | 0x30010 => (b.half h).coreWord
  | 0x30040 => d.inj.toNat
  | 0x30044 => d.injSoft.toNat
  | _ =>
    match famAt o 0x30080 7, blockAt o 0x30100 0x10 16 with
    | some k, _ => (Tab.get 0 d.cnt k : BitVec 32).toNat
    | _, some (n, r) =>
      let w := Tab.get Watch.free d.watch n
      if r = 0 then w.cfg else if r = 4 then w.reads else if r = 8 then w.warns else if r = 12 then w.bits else 0
    | _, _ => 0

/-- PAR_STRIPEn_CFG. -/
def stripeCfg (s : Stripe) : Nat :=
  1 + at' (bitOf s.pq) 1 1 + at' (s.ring.length - (if s.pq then 2 else 1) - 1) 2 3 + at' s.window 5 5 + at' (maskOf s.absent) 16 8

/-- The registers of PAR. -/
def Block.readPar (b : Block) (h : HalfId) (o : Nat) : Nat :=
  let p := (b.half h).par
  match o with
  | 0x30800 => at' p.limit 0 14 + at' p.used 16 14
  | 0x30804 => at' p.stripes.length 0 7 + at' p.rebuilds.length 8 3
  | _ =>
    match blockAt o 0x30900 0x10 64, blockAt o 0x30D00 0x10 4 with
    | some (n, r), _ =>
      (p.stripes.find? n).elim 0 (fun s =>
        if r = 0 then stripeCfg s else if r = 4 then at' (s.ring.headD 0) 0 18
        else if r = 8 then at' s.lowRow 0 16 + at' s.parityRow 16 16 else 0)
    | _, some (n, r) =>
      (p.rebuilds.find? n).elim 0 (fun t =>
        if r = 0 then 1 + at' t.slot 1 6 else if r = 4 then at' t.src 0 18 else if r = 8 then at' t.dst 0 18
        else if r = 12 then at' t.row 0 16 + at' (Nat.min t.unc 65535) 16 16 else 0)
    | _, _ => 0

/-! ### POOL (R650) and GUT (12) -/

/-- POOL_CHc. -/
def Block.poolChan (b : Block) (h : HalfId) (c : Nat) : Nat :=
  if (b.half h).drivesCh c then
    at' (b.resUsed h c) 0 10 + at' (bitOf (b.enabled h c)) 10 1 + at' (b.beyond h c) 16 14
  else at' (bitOf (b.enabled h c)) 10 1

/-- The registers of POOL. -/
def Block.readPool (b : Block) (h : HalfId) (o : Nat) : Nat :=
  let x := b.half h
  match o with
  | 0x40000 => at' (b.poolFree h) 0 15 + at' x.pool.minFree 16 15
  | 0x40008 => maskOf x.pool.live
  | 0x4000C => at' x.pool.reserve 0 10
  | 0x40010 => at' (24 * (b.ha.boundDies + b.hb.boundDies)) 0 12 + at' x.heldCells 16 12
  | _ =>
    match famAt o 0x40100 16 with
    | some c => b.poolChan h c
    | none => 0

/-- GUT_STATg. -/
def Gutter.statWord (u : Gutter) : Nat :=
  at' u.unread 0 14 + at' (bitOf u.tmo) 14 1 + at' (bitOf u.spillErr) 15 1 + at' u.cells 16 14 + at' (bitOf (decide (u.stalled ≠ 0))) 30 1 +
    at' (bitOf u.items.isEmpty) 31 1

/-- The registers of one gutter's block; GUT_RDg and its alias show what GUT_PKg shows (R644). -/
def Gutter.regWord (u : Gutter) (o : Nat) : Nat :=
  match o with
  | 0x00 => at' u.limit 0 14 + at' (bitOf u.spill) 14 1 + at' u.wmark 16 8
  | 0x04 => at' u.tmoUs 0 16
  | 0x08 => u.statWord
  | 0x0C => u.lost.toNat
  | 0x18 => u.pkValue.data
  | 0x1C => u.pkValue.data
  | 0x20 => u.pkValue.data
  | 0x28 => fieldOf u.spBase 0 32
  | 0x2C => fieldOf u.spBase 32 32
  | 0x30 => at' u.spSize 0 5
  | 0x34 => at' u.spWr 0 16
  | 0x38 => at' u.spRd 0 16
  | _ => 0

/-- The gutter and offset within its block of a register offset. -/
def gutterAt (v : Variant) (o : Nat) : Option (Nat × Nat) := blockAt o 0x48000 0x40 (Config.gutters v)

/-- The registers of GUT. -/
def Block.readGut (b : Block) (h : HalfId) (o : Nat) : Nat :=
  let x := b.half h
  match o with
  | 0x48800 => at' (x.gutFree b.variant) 0 14
  | 0x48804 => at' x.gut.evt 0 5 + at' (bitOf x.gut.evtEn) 5 1
  | _ =>
    match gutterAt b.variant o with
    | some (g, r) => (x.gutter g).regWord r
    | none => 0

/-! ### IRQ (14) -/

/-- The bit of a source stands in the mask words: every source of the configuration and the reserved ones, whose bits stay at their reset
value (R507, R514, R527). -/
def maskBit (v : Variant) (s : Nat) : Bool := srcExists v s || (decide (100 ≤ s) && decide (s < 104))

/-- A register word of one bit for each source that the configuration has. -/
def Block.srcBits (b : Block) (h : HalfId) (n : Nat) (f : Nat → Src → Bool) : Nat :=
  (b.half h).irq.bits n (fun s y => srcExists b.variant s && f s y)

/-- The registers of a processor's block: IRQ_CLAIMk shows the word a claim would return. -/
def Irq.procWord (i : Irq) (k o : Nat) : Nat :=
  let p := i.proc k
  match o with
  | 0x00 => i.claimValue k
  | 0x08 => at' p.run 0 4 + at' p.stack.length 4 5
  | 0x0C => (p.stack.head?).elim 0x3FF (fun e => at' e.2 0 10)
  | 0x10 => bitOf p.eoiErr + at' p.spurCnt 16 16
  | _ => 0

/-- The registers of IRQ. IRQ_STAT.PENDING is never seen set, since a commit finds its boundary at once. -/
def Block.readIrq (b : Block) (h : HalfId) (o : Nat) : Nat :=
  let i := (b.half h).irq
  match famAt o 0x50000 256, famAt o 0x50400 16, famAt o 0x50440 16, famAt o 0x50480 8, famAt o 0x504A0 8, famAt o 0x50600 64,
    blockAt o 0x51000 0x40 8 with
  | some s, _, _, _, _, _, _ => if srcExists b.variant s then srcCfg s (i.src s) else 0
  | _, some n, _, _, _, _, _ => b.srcBits h (n % 8) (fun s y => y.pending s)
  | _, _, some n, _, _, _, _ => i.bits (n % 8) (fun s y => maskBit b.variant s && y.mask)
  | _, _, _, some n, _, _, _ => b.srcBits h n (fun _ y => y.active.isSome)
  | _, _, _, _, some n, _, _ => b.srcBits h n (fun s y => !srcEdge s && y.level)
  | _, _, _, _, _, some n, _ =>
    ((List.range 4).map (fun k => at' (if srcEdge (4 * n + k) then (i.src (4 * n + k)).count else 0) (8 * k) 8)).sum
  | _, _, _, _, _, _, some (k, r) => i.procWord k r
  | _, _, _, _, _, _, _ => 0

/-! ### LOOP (13) -/

/-- The registers of a slot's block; the gain block reads its shadow (R645). -/
def Loop.regWord (y : Loop) (o : Nat) : Nat :=
  match o with
  | 0x00 =>
    bitOf y.en + at' y.kind 1 2 + at' y.trcMode 3 2 + at' y.zone 8 4 + at' y.periodUs 16 10
  | 0x04 => at' y.region 0 2 + at' (bitOf y.trcStop) 2 1
  | 0x08 => at' y.tmrUs 0 24
  | 0x0C => at' y.post 0 10
  | 0x10 => y.shadow.elim.toNat
  | 0x14 => y.shadow.umin.toNat
  | 0x18 => y.shadow.umax.toNat
  | 0x60 => y.integ.toNat
  | 0x64 => y.out.toNat
  | 0x68 => y.meas.toNat
  | 0x6C => y.err.toNat
  | _ =>
    match blockAt o 0x20 0x10 4 with
    | some (r, 0) => (y.shadow.gain r).kp.toNat
    | some (r, 4) => (y.shadow.gain r).ki.toNat
    | some (r, 8) => (y.shadow.gain r).preset.toNat
    | _ => 0

/-- The registers of a zone's block (R493, R494). REGION reads its reset value until the records are restored (GEN_BOOT.STAGE sync). -/
def Block.zoneWord (b : Block) (h : HalfId) (z o : Nat) : Nat :=
  let t := (b.half h).loops.zone z
  match o with
  | 0x00 => at' (b.freeCount h z) 0 19 + (if (b.half h).boot.stage < 6 then 0 else at' (t.region (b.freeCount h z)) 19 2)
  | 0x04 => at' t.set 0 19
  | 0x08 => at' t.comf 0 19
  | 0x0C => at' t.tight 0 19
  | 0x10 => at' t.crit 0 19
  | _ => 0

/-- The registers of LOOP (R506). -/
def Block.readLoop (b : Block) (h : HalfId) (o : Nat) : Nat :=
  let l := (b.half h).loops
  match o with
  | 0x60004 =>
    at' (maskOf l.alarm) 0 8 + at' (maskOf l.fallback) 8 8 + at' (bitOf (List.any l.tab (fun e => e.2.pend.isSome))) 16 1 +
      at' (bitOf l.conflict) 17 1
  | 0x60010 => at' l.share 0 8 + at' l.target 8 7 + at' l.depth 16 8
  | 0x60014 => at' l.spinMax 0 8 + at' l.seekEdges 8 8 + at' l.seekWin 16 8
  | 0x60018 => at' (Nat.min (b.half h).modelMa 65535) 0 16 + at' (Nat.min (b.limitMa h) 65535) 16 16
  | 0x60020 => at' l.trcSlot 0 3 + at' l.trcIndex 16 10
  | _ =>
    match famAt o 0x60024 4, blockAt o 0x60400 0x20 16, blockAt o 0x61000 0x100 (Config.loops b.variant) with
    | some k, _, _ => (l.trcData.getD k 0).toNat
    | _, some (z, r), _ => b.zoneWord h z r
    | _, _, some (n, r) => (l.slot n).regWord r
    | _, _, _ => 0

/-! ### PWR and FLY (15, 16) -/

/-- PWR_STAT (R547). -/
def Power.statWord (p : Power) : Nat :=
  at' p.state 0 3 + at' p.twinState 3 3 + at' (bitOf p.entering) 6 1 + at' (bitOf p.declined) 7 1 + at' p.wakeCause 8 8

/-- The registers of PWR. -/
def Block.readPwr (b : Block) (h : HalfId) (o : Nat) : Nat :=
  let x := b.half h
  let p := x.pwr
  match o with
  | 0x70000 => at' p.psMax 0 3
  | 0x70004 => p.statWord
  | 0x70010 => at' p.idle1 0 24
  | 0x70014 => at' p.idle2 0 24
  | 0x70018 => at' p.idle3 0 24
  | 0x7001C => at' p.idle4 0 24
  | 0x70020 => 200
  | 0x70024 => 3
  | 0x70028 => 40 + at' x.trainTerm 16 16
  | 0x7002C => 25000 + at' x.trainTerm 16 16
  | _ => 0

/-- FLY_STAT (R573). -/
def Block.flyStat (b : Block) (h : HalfId) : Nat :=
  let f := (b.half h).fly
  bitOf b.pair.latched + at' f.phase 1 3 + at' (bitOf f.shortHold) 4 1 + at' (bitOf f.lost) 5 1 + at' (bitOf f.stall) 6 1 +
    at' (bitOf f.oneSite) 7 1 + at' b.pair.holdupMs 8 8 + at' f.sealed.toNat 16 2

/-- The registers of FLY. -/
def Block.readFly (b : Block) (h : HalfId) (o : Nat) : Nat :=
  let x := b.half h
  match o with
  | 0x70100 => at' x.fly.ckptPct 0 7 + at' x.fly.bcStride 16 16
  | 0x70104 => b.flyStat h
  | 0x70108 => at' x.estUs 0 24
  | 0x7010C => at' x.fly.journal.length 0 16 + at' x.journalCap 16 16
  | 0x70110 => x.fly.ckptSeq.toNat
  | _ =>
    match famAt o 0x70120 8 with
    | some k => (x.fly.units.find? k).elim 0 (fun i => at' i 0 18 + 2 ^ 31)
    | none => 0

/-! ### TWN and FRZ (17, 18) -/

/-- STATE codes of TWN_STAT (R574). -/
def TwinSt.code : TwinSt → Nat
  | .solo => 0 | .attached => 1 | .standby => 2 | .takingOver => 3 | .syncing => 4 | .linkFault => 5 | .yielding => 6

/-- TWN_STAT (R604). -/
def Twin.statWord (t : Twin) : Nat :=
  at' t.st.code 0 3 + at' (bitOf t.linkAlarm) 3 1 + at' (bitOf t.stDone) 4 1 + at' (bitOf t.stFail) 5 1 + at' (bitOf t.stale) 6 1 +
    at' t.stCause 8 8

/-- TWN_CHAN (R604): HOME shows the home channels that the straps populate. -/
def Half.twinChan (v : Variant) (h : HalfId) (x : Half) : Nat :=
  at' (maskOf x.twn.drives) 0 16 + at' (maskOf (populated v h x.boot.strap)) 16 16

/-- The registers of TWN. -/
def Block.readTwn (b : Block) (h : HalfId) (o : Nat) : Nat :=
  let x := b.half h
  let t := x.twn
  match o with
  | 0x80004 => at' t.hbMiss 0 4 + at' t.adoptGut 8 5
  | 0x80008 => t.statWord
  | 0x8000C => x.twinChan b.variant h
  | 0x80010 => at' t.tTake 0 16 + at' t.reexec 16 16
  | 0x80014 => at' t.voids 0 16 + at' t.replies 16 16
  | 0x80018 => at' t.retryCnt 0 16 + at' t.lateCnt 16 16
  | _ =>
    match famAt o 0x80100 16 with
    | some n => errorBits x.que.adopted n
    | none => 0

/-- The half whose read-out FRZ_STAT.SEG shows, which reads alike in both: the one whose debug path is selected, else half A. -/
def Block.readoutShown (b : Block) : Readout := if b.ha.ro.src then b.ha.ro else if b.hb.ro.src then b.hb.ro else b.ha.ro

/-- FRZ_STAT (R619). -/
def Block.frzStat (b : Block) : Nat :=
  bitOf b.pair.frozen + at' b.pair.frzCause 1 2 + at' (bitOf (decide (b.ha.ro.pos ≠ 0) || decide (b.hb.ro.pos ≠ 0))) 3 1 +
    at' (bitOf b.pair.boThaw) 4 1 + at' b.readoutShown.seg 8 5

/-- The registers of FRZ; FRZ_RO_DATA shows zero to a read that does not advance the frame (R644). -/
def Block.readFrz (b : Block) (h : HalfId) (o : Nat) : Nat :=
  let r := (b.half h).ro
  match o with
  | 0x90004 => b.frzStat
  | 0x90008 => r.mask.toNat
  | 0x9000C => bitOf r.src + at' r.sel 8 5
  | 0x90014 => b.pair.frzTicks % 2 ^ 32
  | 0x90018 => at' b.pair.frzCount 0 16
  | _ => 0

/-! ### RGN and the code window (03) -/

/-- The five words of RGN_DESCn (R127). -/
def descWord (d : RgnDesc) (o : Nat) : Nat :=
  match o with
  | 0x00 => kindCode d.kind + at' (rgnCode d.state) 2 2 + at' d.size 4 13
  | 0x04 => at' d.copy0 0 18
  | 0x08 => at' d.copy1 0 18
  | 0x0C => d.commitSeq.toNat
  | 0x10 => d.imageCrc.toNat
  | _ => 0

/-- The registers of RGN and of the code window's control. -/
def Block.readRgn (b : Block) (h : HalfId) (o : Nat) : Nat :=
  let w := (b.half h).win
  match o with
  | 0xA0244 =>
    bitOf w.pend.isSome + at' (bitOf w.refused) 1 1 + at' w.cause 2 2 + at' (bitOf w.updateEn) 4 1 +
      ((List.range 16).map (fun n => at' (bitOf (decide ((w.region n).state = .opened))) (16 + n) 1)).sum
  | 0xA0248 => at' w.active 0 4 + at' (bitOf w.fallback) 4 1
  | 0xE0000 => at' w.limit 0 13
  | 0xE0004 => at' (bitOf w.prefetch) 1 1
  | 0xE0008 => w.hits.toNat
  | 0xE000C => w.misses.toNat
  | _ =>
    match blockAt o 0xA0000 0x20 16, famAt o 0xA0200 16 with
    | some (n, r), _ => descWord (w.region n) r
    | _, some n =>
      let m := Tab.get WinMap.off w.shadow n
      at' m.base 0 12 + at' (bitOf m.en) 31 1
    | _, _ => 0

/-! ### ARB and DMA (10, 11) -/

/-- The registers of ARB; the settings read their shadows (R645). -/
def Block.readArb (b : Block) (h : HalfId) (o : Nat) : Nat :=
  let a := (b.half h).arb
  match o with
  | 0xB0000 => at' a.pool.shadow.nth 0 7 + at' a.dec.shadow.nth 8 7
  | 0xB0008 =>
    bitOf (a.pool.pend.isSome || a.dec.pend.isSome) + at' (bitOf a.fired) 1 1 + at' a.who 2 6 + at' (bitOf a.cls) 8 1 + at' a.fireCnt 16 16
  | 0xB000C => at' a.limitUs 0 8
  | 0xB0010 => a.pool.lfsr.toNat
  | 0xB0014 => a.dec.lfsr.toNat
  | 0xB0018 => at' a.pool.gcnt 0 6 + at' a.dec.gcnt 8 6
  | _ =>
    match famAt o 0xB0020 5, famAt o 0xB0040 4 with
    | some n, _ => (a.pool.shadow.tkts.getD n 0).toNat
    | _, some n => (a.dec.shadow.tkts.getD n 0).toNat
    | _, _ => 0

/-- The registers of a stream slot. -/
def Stream.regWord (t : Stream) (o : Nat) : Nat :=
  match o with
  | 0x0 => bitOf t.active + at' (bitOf t.dir) 1 1 + at' (bitOf t.adopted) 2 1 + at' t.gen.toNat 8 8 + at' t.queue 16 9
  | 0x4 => at' t.index 0 16 + at' (Nat.min t.descNo 65535) 16 16
  | 0x8 => t.count.toNat
  | _ => 0

/-- The registers of DMA (R458). -/
def Block.readDma (b : Block) (h : HalfId) (o : Nat) : Nat :=
  let d := (b.half h).dma
  match o with
  | 0xB0100 => bitOf d.respWait + at' (bitOf d.readback) 1 1
  | 0xB0104 => at' d.shareRd 0 7 + at' d.shareWr 8 7
  | 0xB0108 => at' (List.filter (fun e => e.2.active) d.streams).length 0 5 + at' (bitOf d.lateErr) 8 1 + at' d.badCnt 16 16
  | 0xB010C => at' d.free 0 13
  | _ =>
    match blockAt o 0xB0200 0x10 (Config.streams b.variant) with
    | some (n, r) => ((b.half h).stream n).regWord r
    | none => 0

/-! ### REC and MEM (03, 12) -/

/-- The registers of the record access window. -/
def Block.readRec (b : Block) (h : HalfId) (o : Nat) : Nat :=
  let s := (b.half h).store
  match o with
  | 0xC0000 => at' s.index 0 18
  | 0xC0004 =>
    bitOf s.valid + at' (bitOf s.fromMirror) 1 1 + at' (bitOf s.absent) 2 1 + at' (bitOf (decide (s.poison ≠ 0))) 3 1 + at' (bitOf s.underflow) 4 1 +
      at' (bitOf (decide (16384 ≤ s.defects.length))) 5 1
  | 0xC0020 => at' s.periodMs 0 16
  | 0xC0024 => at' s.defects.length 0 15
  | _ =>
    match famAt o 0xC0010 4 with
    | some n => fieldOf s.data (32 * n) 32
    | none => 0

/-- The registers of one memory's block. -/
def Mem.regWord (y : Mem) (o : Nat) : Nat :=
  match o with
  | 0x0 => at' y.ce 0 16 + at' y.ue 16 16
  | 0x4 => at' y.word 0 20 + at' (bitOf y.lastUe) 30 1 + at' (bitOf y.valid) 31 1
  | 0x8 => y.passes.toNat
  | _ => 0

/-- The registers of MEM. A fill ends within its command, so BUSY is never seen. -/
def Block.readMem (b : Block) (h : HalfId) (o : Nat) : Nat :=
  let x := b.half h
  match o with
  | 0xD0000 => at' x.mems.ueLimit 0 4
  | 0xD0004 => ((List.range 5).map (fun m => at' (bitOf (x.mem m).fillDone) (8 + m) 1)).sum
  | 0xD0008 => at' x.mems.interval 0 16
  | _ =>
    match blockAt o 0xD0020 0x10 5, famAt o 0xD0080 (Config.banks b.variant) with
    | some (m, r), _ => (x.mem m).regWord r
    | _, some k => at' (x.bankUe k) 0 4 + at' (bitOf (!x.pool.live.contains k)) 4 1
    | _, _ => 0

/-! ### The window -/

/-- What the register at an offset of a half's window reads, by the blocks of 20 (R639, R644). -/
def Block.readWord (b : Block) (h : HalfId) (o : Nat) : Nat :=
  if o < 0x1000 then b.readGen h o
  else if o < 0x10000 then b.readQue h o
  else if o < 0x20000 then b.readDbl h o
  else if o < 0x30000 then b.readChn h o
  else if o < 0x30800 then b.readDec h o
  else if o < 0x40000 then b.readPar h o
  else if o < 0x48000 then b.readPool h o
  else if o < 0x50000 then b.readGut h o
  else if o < 0x60000 then b.readIrq h o
  else if o < 0x70000 then b.readLoop h o
  else if o < 0x70100 then b.readPwr h o
  else if o < 0x80000 then b.readFly h o
  else if o < 0x90000 then b.readTwn h o
  else if o < 0xA0000 then b.readFrz h o
  else if o < 0xB0000 then b.readRgn h o
  else if o < 0xB0100 then b.readArb h o
  else if o < 0xC0000 then b.readDma h o
  else if o < 0xD0000 then b.readRec h o
  else if o < 0xE0000 then b.readMem h o
  else if o < 0xF0000 then b.readRgn h o
  else 0

/-- The data of a read whose word is poisoned: a captured record word, or the word at a gutter's read pointer (R56, R118, R478). -/
def Block.readPoison (b : Block) (h : HalfId) (o : Nat) : Bool :=
  let x := b.half h
  match famAt o 0xC0010 4 with
  | some n => x.store.poison.getLsbD (n / 2)
  | none =>
    match gutterAt b.variant o with
    | some (g, 0x20) => (x.gutter g).pkValue.poison
    | _ => false

end Sys2Proof.Machine
end

