-- ==== Sys2Proof/Machine/ResetCmds.lean ====
section
/-!
DEFINITION. Meanings of GEN_RST: the warm reset, the channel reset and FORMAT (19: R620, R623, R624, R628, R634, R638, R647).
-/

namespace Sys2Proof.Machine

open Sys2Proof

/-- GEN_RST.KEY as a write must carry it (R638). -/
def resetKey : BitVec 16 := 0x0A55

/-- RST_REFUSED set (R623, R638). -/
def Block.refuseReset (b : Block) (h : HalfId) : Block :=
  b.onHalf h (fun x => { x with boot := { x.boot with rstRefused := true } })

/-! ### Warm reset (R623, R647) -/

/-- Queue 0 after a warm reset: its ring and settings kept, HEAD, FETCH and TAIL at 0, its header due with UPDATE 1 (R340, R623). -/
def Queue.restarted (u : Queue) : Queue :=
  { Queue.admin with size := u.size, ring := u.ring, hdr := u.hdr, gutter := u.gutter, quota := u.quota
                     state := if u.size = 0 then .idle else .active, hdrDirty := decide (u.size ≠ 0) }

/-- The queue manager after a warm reset: QUE_CFG, the admin queue's registers and the twin's range-lock entries stay, every queue but 0 is struck (R623, R647). -/
def QueMgr.warm (m : QueMgr) : QueMgr :=
  { QueMgr.reset with
    burst := m.burst, admRing := m.admRing, admHdr := m.admHdr, admSize := m.admSize, admGutter := m.admGutter, admNotify := m.admNotify
    admQuota := m.admQuota, seqHi := m.seqHi
    queues := [(0, ((m.queues.find? 0).getD Queue.admin).restarted)]
    locks := m.locks.filter (fun l => !l.own), jobs := m.jobs }

/-- The half after a warm reset: gutters, interrupt concentrator, loop engine and DMA at their reset values (R620, R647). -/
def Half.warm (v : Variant) (x : Half) : Half :=
  { x with
    que := x.que.warm, dma := Dma.reset v, gut := Gutters.reset, irq := Irq.reset, loops := Loops.reset
    dec := { x.dec with watch := x.dec.watch.foldl (fun t e => Tab.modify Watch.free t e.1 (fun w => { w with active := false })) x.dec.watch } }

/-- The cleared queue state told to an attached twin (R579, R623). -/
def Block.tellWarm (b : Block) (h : HalfId) (old : QueMgr) : Block :=
  let own := (List.filter (fun e => decide (e.1 ≠ 0)) old.queues).map Prod.fst
  let b1 := b.each own (fun a q => a.send h (.queue false q .gone))
  let b2 := b1.each old.adopted (fun a e => a.send h (.queue true e.1 .gone))
  match (b.half h).que.queue? false 0 with
  | none => b2
  | some u => if u.size = 0 then b2 else b2.send h (.queue false 0 (.created u))

/-- A warm reset asked for: accepted only while the half holds no context and no hold (R623). -/
def Block.warmReset (b : Block) (h : HalfId) : Block :=
  let x := b.half h
  if x.que.ctxs.isEmpty && x.pool.holds.isEmpty then (b.onHalf h (fun y => y.warm b.variant)).tellWarm h x.que
  else b.refuseReset h

/-- WARM_RESET (R623). -/
def execWarmReset (h : HalfId) (key : BitVec 16) (s : State) : Host.Outcome State Fault Refusal :=
  portRun h causeRegister (.warmReset h key) (fun b => if key = resetKey then b.warmReset h else b.refuseReset h) s

/-! ### Channel reset (R392, R624) -/

/-- A DIE_RESET of KIND 2 held for a bound die: its other operations wait, and the reset goes once the die is quiet (R392, R624). -/
def Die.askReset (e : Die) : Die :=
  if e.held then e
  else { e with held := true, ops := { resetOp noSeq with phase := .queued, block := 2 } :: e.ops }

/-- A die whose READ ID has changed: left unbound, its operations ended, its members absent (R294, R624). -/
def Block.loseDie (b : Block) (h : HalfId) (f : DieFind) : Block :=
  let ops := ((b.half h).die f.ch f.die).allOps
  let b1 := b.onHalf h (fun x => x.onChan f.ch (fun k => (k.dropTasks f.die).onDie f.die (fun _ =>
    { Die.absent with readId := f.readId, retired := true })))
  ((b1.each ops (fun a o => a.endOp o)).allAbsent (fun j => decide (recCh j = f.ch) && decide (recDie j = f.die))).discoveryNotice h f.ch f.die f.readId

/-- The channel reset of a driven channel: `finds` are the dies that discovery reads again, the others being found as before. -/
def Block.channelReset (b : Block) (h : HalfId) (c : Nat) (finds : List DieFind) : Block :=
  if (b.half h).drivesCh c then
    let b1 := b.onHalf h (fun x => x.onChan c (fun k => k.bound.foldl (fun (m : Chan) e => m.onDie e.1 Die.askReset) k))
    b1.each (finds.filter (fun f => decide (f.ch = c) && decide (f.die < strapDies (b.half h).boot.strap))) (fun a f =>
      if ((a.half h).die c f.die).readId = f.readId then a.onHalf h (fun x => x.onChan c (fun k =>
          { (k.onDie f.die (fun e => { e with ext := f.ext.bind ExtPage.extension, zq := f.zq })) with cycles := k.cycles ++ discoverCycles f (k.die f.die).family }))
      else a.loseDie h f)
  else b

/-- CHANNEL_RESET (R624). -/
def execChannelReset (h : HalfId) (ch : Nat) (key : BitVec 16) (finds : List DieFind) (s : State) :
    Host.Outcome State Fault Refusal :=
  portRun h causeRegister (.channelReset h ch key finds) (fun b => if key = resetKey then b.channelReset h ch finds else b.refuseReset h) s

/-! ### FORMAT (R628, R634) -/

/-- A blank half let write its first checkpoint; at admin ready its WP_n rises (R628, R634). -/
def Block.formatHalf (b : Block) (h : HalfId) : Block :=
  let x := b.half h
  if x.boot.blank then
    let b1 := b.onHalf h (fun y => { y with boot := { y.boot with formatted := true } })
    if x.ready then b1.driveWp h true else b1
  else b

/-- FORMAT (R628, R634). -/
def execFormat (h : HalfId) (key : BitVec 16) (s : State) : Host.Outcome State Fault Refusal :=
  portRun h causeRegister (.format h key) (fun b => if key = resetKey then b.formatHalf h else b.refuseReset h) s

end Sys2Proof.Machine
end

