-- ==== Sys2Proof/Machine/RegWrite.lean ====
section
/-!
DEFINITION. What a write to every register does (R640): the tables of 20 and of each chapter. A write to an offset that no table maps is ignored
(R54), as is one to a unit that the configuration lacks (R648).
-/

namespace Sys2Proof.Machine

open Sys2Proof

/-- A field whose value 0 is stored as 1. -/
def atLeast1 (n : Nat) : Nat := if n = 0 then 1 else n

/-- The low word of a 64-bit register replaced, its `k` lowest bits reading zero. -/
def putLow (x : BitVec 64) (w : Word) (k : Nat) : BitVec 64 :=
  BitVec.ofNat 64 (x.toNat / 2 ^ 32 * 2 ^ 32 + w.toNat / 2 ^ k * 2 ^ k)

/-- The high word of a 64-bit register replaced. -/
def putHigh (x : BitVec 64) (w : Word) : BitVec 64 := BitVec.ofNat 64 (w.toNat * 2 ^ 32 + x.toNat % 2 ^ 32)

/-! ### GEN -/

/-- The general settings after a write of one of their registers (R27, R227, R413, R649). -/
def GenCfg.write (v : Variant) (g : GenCfg) (o : Nat) (w : Word) : GenCfg :=
  match o with
  | 0x014 => { g with scratch := w }
  | 0x210 => { g with bgMax := Nat.min (w.field 0 3) (Config.bgLimit v) }
  | 0x300 =>
    { g with progSusp := BitVec.ofNat 4 (w.field 0 4), ersSusp := BitVec.ofNat 4 (w.field 4 4),
             readsMax := atLeast1 (w.field 8 6), gapUs := w.field 16 8 }
  | 0x304 =>
    { g with openMax := clampTo 1 (Config.openLimit v) (w.field 0 9), holdMax := Nat.min (w.field 9 7) 64, ersMark := w.field 16 16 }
  | 0x30C => { g with ceiling := w.field 0 10 }
  | 0x400 => { g with wHost := w.field 0 4, wReclaim := w.field 4 4, wRecord := w.field 8 4, wMaint := w.field 12 4 }
  | _ => g

/-- GEN_RST written (R638): with the key, each bit that is 1 acts; without it, a bit that would act sets RST_REFUSED. -/
def Block.writeRst (b : Block) (h : HalfId) (w : Word) : Block :=
  if w.field 16 16 = resetKey.toNat then
    let b1 := if w.bit 0 then b.warmReset h else b
    let b2 := if w.bit 1 then b1.channelReset h (w.field 4 4) [] else b1
    if w.bit 2 then b2.formatHalf h else b2
  else if w.field 0 3 = 0 then b
  else b.refuseReset h

/-- The registers of GEN written: BG_MAX changes the roles of engines without a job at once, those of others as their jobs end (R27); a longer GAP_US must run anew (R213, R227). -/
def Block.writeGen (b : Block) (h : HalfId) (o : Nat) (w : Word) : Block :=
  match o with
  | 0x110 =>
    if w.bit 9 then b.onHalf h (fun x => { x with boot := { x.boot with rstRefused := false } }) else b
  | 0x114 => b.writeRst h w
  | 0x210 => ((b.onHalf h (fun x => { x with gen := x.gen.write b.variant o w }.fitRoles b.variant true)).placeJobs h).noteDegraded h
  | 0x300 => b.onHalf h (fun x =>
      let y := { x with gen := x.gen.write b.variant o w }
      if x.gen.gapUs < y.gen.gapUs then y.onDriven Chan.gapAnew else y)
  | _ => b.onHalf h (fun x => { x with gen := x.gen.write b.variant o w })

/-! ### QUE and DBL -/

/-- The queue manager's plain registers written; the admin queue's addresses hold only while SIZE is 0 (R351). -/
def QueMgr.write (m : QueMgr) (o : Nat) (w : Word) : QueMgr :=
  match o with
  | 0x1000 => { m with burst := atLeast1 (w.field 0 4) }
  | 0x1010 => if m.admSize = 0 then { m with admRing := putLow m.admRing w 6 } else m
  | 0x1014 => if m.admSize = 0 then { m with admRing := putHigh m.admRing w } else m
  | 0x1018 => if m.admSize = 0 then { m with admHdr := putLow m.admHdr w 6 } else m
  | 0x101C => if m.admSize = 0 then { m with admHdr := putHigh m.admHdr w } else m
  | 0x1030 => if w.bit 13 then { m with stray := false } else m
  | _ => m

/-- QUE_QCTLq or QUE_TQCTLq written: DISABLE where it changes, then RESTART where its bit is 1 (R335, R336, R640). -/
def Block.writeQctl (b : Block) (h : HalfId) (adopted : Bool) (q : Nat) (w : Word) : Block :=
  let b1 := if (b.half h).que.qctl adopted q = bitOf (w.bit 0) then b else b.control h adopted q (.disable (w.bit 0))
  if w.bit 1 then b1.control h adopted q .restart else b1

/-- The registers of QUE written. -/
def Block.writeQue (b : Block) (h : HalfId) (o : Nat) (w : Word) : Block :=
  let n := Config.queues b.variant
  if o = 0x1020 then b.writeAdmCfg h w
  else
    match famAt o 0x3000 n, famAt o 0x5000 n with
    | some q, _ => b.writeQctl h false q w
    | _, some q => b.writeQctl h true q w
    | _, _ => b.onHalf h (fun x => x.onQue (fun m => m.write o w))

/-- A doorbell register written; its upper word is unmapped (R323, R648). -/
def Block.writeDbl (b : Block) (h : HalfId) (o : Nat) (w : Word) : Block :=
  match blockAt o 0x10000 8 (Config.queues b.variant), blockAt o 0x11000 8 (Config.queues b.variant) with
  | some (q, 0), _ => b.doorbell h false q (w.field 0 16)
  | _, some (q, 0) => b.doorbell h true q (w.field 0 16)
  | _, _ => b

/-! ### CHN -/

/-- The settings of a channel after a write of one of its registers (04, *Channel registers*). -/
def ChanCfg.write (g : ChanCfg) (o : Nat) (w : Word) : ChanCfg :=
  match o with
  | 0x000 => { g with rateCap := clampTo 1 12 (w.field 0 4), monEn := w.bit 6 }
  | 0x008 => { g with periodMs := w.field 0 16, eyeMin := Nat.max 8 (w.field 16 6), monLimit := w.field 24 8 }
  | 0x00C =>
    { g with interval := Nat.max 40 (w.field 0 12), firstPct := clampTo 50 100 (w.field 12 7), timeoutX := clampTo 2 15 (w.field 19 4) }
  | _ => g

/-- A channel's own registers written; W1C bits clear. -/
def Chan.write (k : Chan) (o : Nat) (w : Word) : Chan :=
  if o = 0x004 then (if w.bit 7 then { k with alarm := false } else k)
  else
    match famAt o 0x40 8 with
    | some d => if w.bit 25 then k.onDie d (fun e => { e with starved := false }) else k
    | none => { k with cfg := k.cfg.write o w }

/-- The registers of CHN written; RETRAIN and QUICK act where their bits are 1 (R183). -/
def Block.writeChn (b : Block) (h : HalfId) (o : Nat) (w : Word) : Block :=
  match blockAt o 0x20000 0x1000 16 with
  | none => b
  | some (c, r) =>
    if (Config.pairChannels b.variant).contains c then
      let b1 := b.onHalf h (fun x => x.onChan c (fun k => k.write r w))
      if r = 0 then
        if w.bit 4 then b1.askRetrain h c true else if w.bit 5 then b1.askRetrain h c false else b1
      else b1
    else b

/-! ### DEC and PAR -/

/-- The decode registers written (R273). A statistics slot's THRESH may be rewritten while the slot is held. -/
def Dec.write (d : Dec) (o : Nat) (w : Word) : Dec :=
  match o with
  | 0x30000 =>
    { d with hardIter := atLeast1 (w.field 0 6), softIter := atLeast1 (w.field 8 6), erasedMax := w.field 16 8,
             stepEn := BitVec.ofNat 3 (w.field 24 3) }
  | 0x3000C => { d with llr := BitVec.ofNat 16 (w.field 0 16) }
  | 0x30040 => { d with inj := w &&& 0xFFFF007F }
  | 0x30044 => { d with injSoft := w &&& 0x0FFF0FFF }
  | _ =>
    match blockAt o 0x30100 0x10 16 with
    | some (n, 0) =>
      if (Tab.get Watch.free d.watch n).active then
        { d with watch := Tab.modify Watch.free d.watch n (fun t => { t with thresh := w.field 16 10 }) }
      else d
    | _ => d

/-- The registers of DEC written; REFUSED reads alike in both halves, and clears in both (R236). -/
def Block.writeDec (b : Block) (h : HalfId) (o : Nat) (w : Word) : Block :=
  if o = 0x30004 then b.writeSeed h w
  else if o = 0x30008 then
    if w.bit 0 then
      let clear := fun (x : Half) => { x with dec := { x.dec with refused := false } }
      (b.onHalf .a clear).onHalf .b clear
    else b
  else b.onHalf h (fun x => { x with dec := x.dec.write o w })

/-- The registers of PAR written (R304). -/
def Parity.write (p : Parity) (o : Nat) (w : Word) : Parity := if o = 0x30800 then { p with limit := w.field 0 14 } else p

/-! ### POOL and GUT -/

/-- POOL_CTL written (R650). -/
def Block.writePool (b : Block) (h : HalfId) (o : Nat) (w : Word) : Block :=
  if o = 0x40004 ∧ w.bit 0 then b.onHalf h (fun x => { x with pool := { x.pool with minFree := b.poolFree h } }) else b

/-- A gutter's plain registers written; the spill ring's base and size hold only while SPILL is 0 (R485). -/
def Gutter.write (u : Gutter) (o : Nat) (w : Word) : Gutter :=
  match o with
  | 0x04 => { u with tmoUs := w.field 0 16 }
  | 0x08 => if w.bit 15 then { u with spillErr := false } else u
  | 0x10 => u.control (w.bit 0) (w.bit 1) (w.bit 2)
  | 0x28 => if u.spill then u else { u with spBase := putLow u.spBase w 5 }
  | 0x2C => if u.spill then u else { u with spBase := putHigh u.spBase w }
  | 0x30 => if u.spill then u else { u with spSize := clampTo 6 16 (w.field 0 5) }
  | _ => u

/-- One gutter's register written. -/
def Half.writeGutter (v : Variant) (x : Half) (g o : Nat) (w : Word) : Half :=
  if o = 0x00 then x.writeGutCfg v g w
  else if o = 0x38 then x.spillFree g w
  else
    let y := x.onGutter g (fun u => u.write o w)
    if o = 0x10 ∧ w.bit 3 then y.unstall g else y

/-- The registers of GUT written; GUT_EVT keeps its gutter where the one named does not exist (R672). -/
def Half.writeGut (v : Variant) (x : Half) (o : Nat) (w : Word) : Half :=
  if o = 0x48804 then
    { x with gut := { x.gut with evt := if w.field 0 5 < Config.gutters v then w.field 0 5 else x.gut.evt, evtEn := w.bit 5 } }
  else
    match gutterAt v o with
    | some (g, r) => x.writeGutter v g r w
    | none => x

/-! ### IRQ -/

/-- The registers of IRQ written (R512-R527). -/
def Half.writeIrq (v : Variant) (x : Half) (o : Nat) (w : Word) : Half :=
  if o = 0x50500 then (if w.bit 0 then x.onIrq Irq.commit else x)
  else
    match famAt o 0x50000 256, famAt o 0x50400 8, famAt o 0x50420 8, famAt o 0x50440 8, famAt o 0x50460 8, blockAt o 0x51000 0x40 8 with
    | some s, _, _, _, _, _ => if srcExists v s then x.onIrq (fun i => i.writeCfg s w) else x
    | _, some n, _, _, _, _ => x.onIrq (fun i => i.pendSet v n w)
    | _, _, some n, _, _, _ => x.onIrq (fun i => i.pendClear v n w)
    | _, _, _, some n, _, _ => x.onIrq (fun i => i.maskSet v n w)
    | _, _, _, _, some n, _ => x.onIrq (fun i => i.maskClear v n w)
    | _, _, _, _, _, some (k, 4) => x.endIrq k w
    | _, _, _, _, _, some (k, 16) => if w.bit 0 then x.onIrq (fun i => i.onProc k (fun p => { p with eoiErr := false })) else x
    | _, _, _, _, _, _ => x

/-! ### LOOP -/

/-- A slot's gain-block shadow written (R491, R645). -/
def GainBlk.write (g : GainBlk) (o : Nat) (w : Word) : GainBlk :=
  match o with
  | 0x10 => { g with elim := w }
  | 0x14 => { g with umin := w }
  | 0x18 => { g with umax := w }
  | _ =>
    match blockAt o 0x20 0x10 4 with
    | some (r, 0) => { g with gains := Tab.modify Gain.reset g.gains r (fun k => { k with kp := w }) }
    | some (r, 4) => { g with gains := Tab.modify Gain.reset g.gains r (fun k => { k with ki := w }) }
    | some (r, 8) => { g with gains := Tab.modify Gain.reset g.gains r (fun k => { k with preset := w }) }
    | _ => g

/-- A slot's plain registers written (R506). -/
def Loop.write (y : Loop) (o : Nat) (w : Word) : Loop :=
  match o with
  | 0x08 => { y with tmrUs := w.field 0 24 }
  | 0x0C => { y with post := w.field 0 10 }
  | _ => { y with shadow := y.shadow.write o w }

/-- The fields of LOOP_SCFGn that a stopped slot takes (R490). -/
def Loop.configure (y : Loop) (w : Word) : Loop :=
  if y.en then y else { y with kind := w.field 1 2, zone := w.field 8 4, periodUs := clampTo 1 1000 (w.field 16 10) }

/-- LOOP_SCFGn written (R486, R489, R490): a write of EN = 1 that would break a limit of R486 is ignored and sets CONFLICT; otherwise a
stopped slot takes every field, TRC_MODE restarts recording, and EN starts or stops the slot. -/
def Block.writeScfg (b : Block) (h : HalfId) (n : Nat) (w : Word) : Block :=
  let l := (b.half h).loops
  let l1 := l.onSlot n (fun y => (y.configure w).setTrace (w.field 3 2))
  if w.bit 0 && !(l.slot n).en && l1.conflicts n then b.onHalf h (fun x => x.onLoops (fun l => { l with conflict := true }))
  else (b.onHalf h (fun x => x.onLoops (fun _ => l1))).writeEn h n (w.bit 0)

/-- A zone's register written (R506). -/
def Zone.write (z : Zone) (o : Nat) (w : Word) : Zone :=
  match o with
  | 0x04 => { z with set := w.field 0 19 }
  | 0x08 => { z with comf := w.field 0 19 }
  | 0x0C => { z with tight := w.field 0 19 }
  | 0x10 => { z with crit := w.field 0 19 }
  | _ => z

/-- The bucket holds at most DEPTH tokens (R500). -/
def Loops.capBucket (l : Loops) : Loops := { l with bucket := if fltLt l.full l.bucket then l.full else l.bucket }

/-- The loop engine's registers written, LOOP_SCFGn apart (R506). -/
def Loops.write (v : Variant) (l : Loops) (o : Nat) (w : Word) : Loops :=
  match o with
  | 0x60000 => if w.bit 0 then l.commit (Config.loops v) else l
  | 0x60004 =>
    { l with alarm := l.alarm.filter (fun n => !(decide (n < 8) && w.getLsbD n)), conflict := l.conflict && !w.bit 17 }
  | 0x60010 => { l with share := w.field 0 8, target := clampTo 50 100 (w.field 8 7), depth := atLeast1 (w.field 16 8) }.capBucket
  | 0x60014 => { l with spinMax := w.field 0 8, seekEdges := atLeast1 (w.field 8 8), seekWin := atLeast1 (w.field 16 8) }
  | 0x60020 => l.select (w.field 0 3) (w.field 16 10)
  | _ =>
    match blockAt o 0x60400 0x20 16, blockAt o 0x61000 0x100 (Config.loops v) with
    | some (z, r), _ => { l with zones := Tab.modify Zone.reset l.zones z (fun t => t.write r w) }
    | _, some (n, r) => l.onSlot n (fun y => y.write r w)
    | _, _ => l

/-- The registers of LOOP written. -/
def Block.writeLoop (b : Block) (h : HalfId) (o : Nat) (w : Word) : Block :=
  match blockAt o 0x61000 0x100 (Config.loops b.variant) with
  | some (n, 0) => b.writeScfg h n w
  | _ => b.onHalf h (fun x => x.onLoops (fun l => l.write b.variant o w))

/-! ### PWR and FLY -/

/-- The power controller's registers written (R547); WAKE acts as the access's own wake. -/
def Power.write (p : Power) (o : Nat) (w : Word) : Power :=
  match o with
  | 0x70000 => { p with psMax := Nat.min (w.field 0 3) 4 }
  | 0x70004 => if w.bit 7 then { p with declined := false } else p
  | 0x70010 => { p with idle1 := atLeast1 (w.field 0 24) }
  | 0x70014 => { p with idle2 := atLeast1 (w.field 0 24) }
  | 0x70018 => { p with idle3 := atLeast1 (w.field 0 24) }
  | 0x7001C => { p with idle4 := atLeast1 (w.field 0 24) }
  | _ => p

/-- The flysheet controller's registers written (R573). -/
def Fly.write (f : Fly) (o : Nat) (w : Word) : Fly :=
  match o with
  | 0x70100 => { f with ckptPct := clampTo 10 90 (w.field 0 7), bcStride := atLeast1 (w.field 16 16) }
  | 0x70104 => if w.bit 5 then { f with lost := false } else f
  | _ => f

/-! ### TWN and FRZ -/

/-- The twin registers written (R604, R672). -/
def Twin.write (v : Variant) (t : Twin) (o : Nat) (w : Word) : Twin :=
  match o with
  | 0x80004 =>
    { t with hbMiss := clampTo 2 15 (w.field 0 4), adoptGut := if w.field 8 5 < Config.gutters v then w.field 8 5 else t.adoptGut }
  | 0x80008 => if w.bit 3 then { t with linkAlarm := false } else t
  | _ => t

/-- The registers of TWN written. Which test of a self-test fails first is the half's own, a free value (R598). -/
def Block.writeTwn (b : Block) (h : HalfId) (o : Nat) (w : Word) : Block :=
  if o = 0x80000 then
    let b1 := if w.bit 0 then b.askYield h else b
    if w.bit 1 && decide ((b1.half h).twn.st = .standby) then
      { b1 with freeUses := b1.freeUses + 1 }.askSelftest h ((Config.freeValue b1.freeUses).toNat % 6)
    else b1
  else b.onHalf h (fun x => x.onTwn (fun t => t.write b.variant o w))

/-- FREEZE of FRZ_CTL written (R605, R607, R617). THAW acts only through the debug access port, whose own write says so. -/
def Block.writeFrzCtl (b : Block) (w : Word) (dbg : Bool) : Block :=
  if w.bit 0 then b.askFreeze (if dbg then 3 else 2) else b

/-- The registers of FRZ written (R614, R616, R619). -/
def Block.writeFrz (b : Block) (h : HalfId) (o : Nat) (w : Word) (dbg : Bool) : Block :=
  match o with
  | 0x90000 => b.writeFrzCtl w dbg
  | 0x90004 => if w.bit 4 then b.onPair (fun p => { p with boThaw := false }) else b
  | 0x90008 => b.onHalf h (fun x => { x with ro := { x.ro with mask := BitVec.ofNat 18 (w.field 0 18) ||| 1 } })
  | 0x9000C => b.onHalf h (fun x => x.writeRoCtl w)
  | _ => b

/-! ### RGN and the code window -/

/-- The registers of RGN and of the code window's control written (R128-R132). -/
def Window.write (t : Window) (o : Nat) (w : Word) : Window :=
  match o with
  | 0xA0240 => if w.bit 0 then { t with pend := some t.shadow }.boundary else t
  | 0xE0000 => { t with limit := w.field 0 13 }
  | 0xE0004 =>
    let t1 : Window := { t with prefetch := w.bit 1 }
    if w.bit 0 then { t1 with flushDue := true }.boundary else t1
  | _ =>
    match famAt o 0xA0200 16 with
    | some n => { t with shadow := Tab.set WinMap.off t.shadow n { base := w.field 0 12, en := w.bit 31 } }
    | none => t

/-! ### ARB and DMA -/

/-- A class's ticket shadow written. -/
def ArbCls.writeTkt (c : ArbCls) (n : Nat) (w : Word) : ArbCls := { c with shadow := { c.shadow with tkts := c.shadow.tkts.set n w } }

/-- A class's NTH shadow written, 2 to 64. -/
def ArbCls.writeNth (c : ArbCls) (n : Nat) : ArbCls := { c with shadow := { c.shadow with nth := clampTo 2 64 n } }

/-- The arbiter's registers written (R422-R425). -/
def Arb.write (a : Arb) (o : Nat) (w : Word) : Arb :=
  match o with
  | 0xB0000 => { a with pool := a.pool.writeNth (w.field 0 7), dec := a.dec.writeNth (w.field 8 7) }
  | 0xB0004 => if w.bit 0 then { a with pool := a.pool.commit, dec := a.dec.commit } else a
  | 0xB0008 => if w.bit 1 then { a with fired := false } else a
  | 0xB000C => { a with limitUs := atLeast1 (w.field 0 8) }
  | 0xB0010 => a.writeLfsr false w
  | 0xB0014 => a.writeLfsr true w
  | _ =>
    match famAt o 0xB0020 5, famAt o 0xB0040 4 with
    | some n, _ => { a with pool := a.pool.writeTkt n (if n = 4 then w &&& 0xFFF else w) }
    | _, some n => { a with dec := a.dec.writeTkt n w }
    | _, _ => a

/-- The DMA's plain registers written (R450, R453, R458). -/
def Dma.write (d : Dma) (o : Nat) (w : Word) : Dma :=
  match o with
  | 0xB0100 => { d with respWait := w.bit 0, readback := w.bit 1 }
  | 0xB0104 => { d with shareRd := clampTo 1 64 (w.field 0 7), shareWr := clampTo 1 64 (w.field 8 7) }
  | 0xB0108 => if w.bit 8 then { d with lateErr := false } else d
  | _ => d

/-- The registers of DMA written; a stream's control register may drop it (R456). -/
def Block.writeDma (b : Block) (h : HalfId) (o : Nat) (w : Word) : Block :=
  match blockAt o 0xB0200 0x10 (Config.streams b.variant) with
  | some (n, 12) => b.askDrop h n w
  | _ => b.onHalf h (fun x => x.onDma (fun d => d.write o w))

/-! ### REC and MEM -/

/-- The registers of the record access window written (R118, R124). -/
def Block.writeRec (b : Block) (h : HalfId) (o : Nat) (w : Word) : Block :=
  match o with
  | 0xC0000 => b.capture h (w.field 0 18)
  | 0xC0004 => if w.bit 4 then b.onHalf h (fun x => x.onStore (fun s => { s with underflow := false })) else b
  | 0xC0020 => b.onHalf h (fun x => x.onStore (fun s => { s with periodMs := w.field 0 16 }))
  | _ => b

/-- The registers of MEM written (R471, R473, R485). -/
def Half.writeMem (x : Half) (o : Nat) (w : Word) : Half :=
  match o with
  | 0xD0000 => { x with mems := { x.mems with ueLimit := atLeast1 (w.field 0 4) } }
  | 0xD0004 => ((List.range 5).filter w.getLsbD).foldl (fun y m => y.onMem m Mem.fill) x
  | 0xD0008 => { x with mems := { x.mems with interval := w.field 0 16 } }
  | _ =>
    match blockAt o 0xD0020 0x10 5 with
    | some (m, 12) => x.onMem m (fun y => y.clear (w.bit 0) (w.bit 1))
    | _ => x

/-! ### The window -/

/-- A write to the register at an offset of a half's window, by the blocks of 20 (R639, R640). -/
def Block.writeReg (b : Block) (h : HalfId) (o : Nat) (w : Word) (dbg : Bool) : Block :=
  if o < 0x1000 then b.writeGen h o w
  else if o < 0x10000 then b.writeQue h o w
  else if o < 0x20000 then b.writeDbl h o w
  else if o < 0x30000 then b.writeChn h o w
  else if o < 0x30800 then b.writeDec h o w
  else if o < 0x40000 then b.onHalf h (fun x => { x with par := x.par.write o w })
  else if o < 0x48000 then b.writePool h o w
  else if o < 0x50000 then b.onHalf h (fun x => x.writeGut b.variant o w)
  else if o < 0x60000 then b.onHalf h (fun x => x.writeIrq b.variant o w)
  else if o < 0x70000 then b.writeLoop h o w
  else if o < 0x70100 then b.onHalf h (fun x => { x with pwr := x.pwr.write o w })
  else if o < 0x80000 then b.onHalf h (fun x => x.onFly (fun f => f.write o w))
  else if o < 0x90000 then b.writeTwn h o w
  else if o < 0xA0000 then b.writeFrz h o w dbg
  else if o < 0xB0000 then b.onHalf h (fun x => x.onWin (fun t => t.write o w))
  else if o < 0xB0100 then b.onHalf h (fun x => x.onArb (fun a => a.write o w))
  else if o < 0xC0000 then b.writeDma h o w
  else if o < 0xD0000 then b.writeRec h o w
  else if o < 0xE0000 then b.onHalf h (fun x => x.writeMem o w)
  else if o < 0xF0000 then b.onHalf h (fun x => x.onWin (fun t => t.write o w))
  else b

end Sys2Proof.Machine
end

