-- ==== Sys2Proof/Machine/ReadOut.lean ====
section
/-!
DEFINITION. Read-out of a half: the freeze record, the register image, the frames, the freeze port's pins and FRZ_RO_DATA (18; R94-R98).
-/

namespace Sys2Proof.Machine

open Sys2Proof

/-! ### What the segments hold (R609, R610) -/

/-- The words of segment 0, the freeze record, but for words 3 and 4, whose CLK_CORE count is the held state's own: `image` (R610). -/
def Block.freezeRecord (b : Block) (h : HalfId) (image : Nat → Word) (n : Nat) : Word :=
  let x := b.half h
  match n with
  | 0 => 1
  | 1 => BitVec.ofNat 32 h.code
  | 2 => BitVec.ofNat 32 b.pair.frzCause
  | 3 => image 3
  | 4 => image 4
  | 5 => BitVec.ofNat 32 x.pwr.statWord
  | 6 => BitVec.ofNat 32 x.twn.statWord
  | 7 => BitVec.ofNat 32 (x.twinChan b.variant h)
  | 8 => BitVec.ofNat 32 x.strapWord
  | 9 => BitVec.ofNat 32 (b.flyStat h)
  | 10 => BitVec.ofNat 32 b.pair.frzCount
  | _ => 0

/-- A run of `n` register blocks of the given stride, with the offsets mapped inside each. -/
def regRun (base stride n : Nat) (inside : List Nat) : List Nat :=
  ((List.range n).map (fun k => inside.map (fun r => base + stride * k + r))).flatten

/-- `n` words from `base`. -/
def regWords (base n : Nat) : List Nat := (List.range n).map (fun k => base + 4 * k)

/-- The mapped offsets of a half's register window, ascending (20). -/
def regOffsets (v : Variant) : List Nat :=
  let q := Config.queues v
  [0x000, 0x004, 0x008, 0x00C, 0x010, 0x014, 0x100, 0x104, 0x110, 0x114] ++ regWords 0x200 5 ++ regWords 0x300 4 ++ [0x400, 0x1000] ++
    regWords 0x1010 5 ++ [0x1030, 0x1038, 0x103C, 0x1040] ++ regWords 0x1100 16 ++ regWords 0x2000 q ++ regWords 0x3000 q ++ regWords 0x4000 q ++
    regWords 0x5000 q ++ regRun 0x10000 8 q [0] ++ regRun 0x11000 8 q [0] ++
    ((Config.pairChannels v).map (fun c => (regWords 0 6 ++ regWords 0x20 8 ++ regWords 0x40 8 ++ regRun 0x100 0x40 8 (regWords 0 10)).map
      (fun r => 0x20000 + 0x1000 * c + r))).flatten ++
    regWords 0x30000 5 ++ regWords 0x30040 2 ++ regWords 0x30080 7 ++ regRun 0x30100 0x10 16 (regWords 0 4) ++ regWords 0x30800 2 ++
    regRun 0x30900 0x10 64 (regWords 0 3) ++ regRun 0x30D00 0x10 4 (regWords 0 4) ++ regWords 0x40000 5 ++ regWords 0x40100 16 ++
    regRun 0x48000 0x40 (Config.gutters v) (regWords 0 5 ++ [0x18, 0x1C, 0x20] ++ regWords 0x28 5) ++ regWords 0x48800 2 ++
    regWords 0x50000 256 ++ regWords 0x50400 48 ++ regWords 0x50500 2 ++ regWords 0x50600 64 ++ regRun 0x51000 0x40 8 (regWords 0 5) ++
    regWords 0x60000 2 ++ regWords 0x60010 3 ++ regWords 0x60020 5 ++ regRun 0x60400 0x20 16 (regWords 0 5) ++
    regRun 0x61000 0x100 (Config.loops v) (regWords 0 7 ++ regRun 0x20 0x10 4 (regWords 0 3) ++ regWords 0x60 4) ++ regWords 0x70000 2 ++
    regWords 0x70010 8 ++ regWords 0x70100 5 ++ regWords 0x70120 8 ++ regWords 0x80000 7 ++ regWords 0x80100 16 ++ regWords 0x90000 7 ++
    regRun 0xA0000 0x20 16 (regWords 0 5) ++ regWords 0xA0200 19 ++ regWords 0xB0000 7 ++ regWords 0xB0020 5 ++ regWords 0xB0040 4 ++
    regWords 0xB0100 4 ++ regRun 0xB0200 0x10 (Config.streams v) (regWords 0 4) ++ regWords 0xC0000 2 ++ regWords 0xC0010 4 ++
    regWords 0xC0020 2 ++ regWords 0xD0000 3 ++ regRun 0xD0020 0x10 5 (regWords 0 3) ++ regWords 0xD0080 (Config.banks v) ++ regWords 0xE0000 4

/-- Word `n` of segment 1, the register image: pairs of offset and value in ascending offset, unused pairs zero (R609). -/
def Block.registerImage (b : Block) (h : HalfId) (n : Nat) : Word :=
  match (regOffsets b.variant)[n / 2]? with
  | none => 0
  | some o => if n % 2 = 0 then BitVec.ofNat 32 o else BitVec.ofNat 32 (b.readWord h o)

/-- Data word `n` of a segment as the held state shows it: the freeze record and the register image from the state; of a chain or a memory whose layout the spec does not give, the word
`image` gives at that place (R609, R611). -/
def Block.segWord (b : Block) (h : HalfId) (seg : Nat) (image : Nat → Word) (n : Nat) : Word :=
  match seg with
  | 0 => b.freezeRecord h image n
  | 1 => b.registerImage h n
  | _ => image n

/-! ### Frames (R611-R613) -/

/-- A 32-bit word put through CRC-32, least significant byte first. -/
def crcWord (c : BitVec 32) (w : Word) : BitVec 32 :=
  (List.range 4).foldl (fun a i => crcByte a (w.toNat / 2 ^ (8 * i))) c

/-- A frame: its header, the segment's words, then the CRC-32 of them (R612). -/
def Block.frame (b : Block) (h : HalfId) (seg : Nat) (image : Nat → Word) : List Word :=
  let l := frameHeader b.variant h seg :: (List.range (segWords b.variant seg)).map (b.segWord h seg image)
  l ++ [~~~ (l.foldl crcWord 0xFFFFFFFF)]

/-- What the freeze port's pins carry for a frame, clock by clock: WE_n and DQ[3:0], each word least significant nibble first, WE_n low for the header's first (R94, R613). -/
def frameNibbles (l : List Word) : List (Bool × BitVec 4) :=
  ((List.range l.length).map (fun i => (List.range 8).map (fun j =>
    (!(decide (i = 0) && decide (j = 0)), BitVec.ofNat 4 ((l.getD i 0).toNat / 16 ^ j))))).flatten

/-- Pins of half-relative channel 0 while its half's freeze port drives them: a nibble and the frame marker on DQ[3:0] and WE_n, every other pin parked (R94). -/
def PadRing.portPins (r : PadRing) (weN : Bool) : Pins := { r.parkPins with dq := true, weN := weN }

/-- The half-relative channel 0 of a half, its freeze port while freeze is active (R82, R94). -/
def freezePort (h : HalfId) : Nat := 8 * h.code

/-- The freeze port of a half sends: freeze is active, its AON domain runs, SRC is 0 (R94, R97, R613, R616). -/
def Block.portSends (b : Block) (h : HalfId) : Bool := b.pair.frozen && b.alive h && !(b.half h).ro.src

/-- FREEZE_PORT_FRAME (R98, R613): the frame of the segment in turn goes out on the reader's clock, and the next selected segment follows. `image` gives the words of the segments whose layout
the spec leaves open. -/
def execFreezePortFrame (h : HalfId) (image : List Word) (s : State) : Host.Outcome State Fault Refusal :=
  run (fun b =>
    if b.portSends h then
      let l := b.frame h (b.half h).ro.seg (fun n => image.getD n 0)
      b.onHalf h (fun x => { x with ro := { x.ro with word := l.getLastD 0, frame := l, seg := nextSegment x.ro.mask x.ro.seg, pos := 0 } })
    else b) s

/-! ### FRZ_RO_DATA (R610, R612, R616) -/

/-- One read of FRZ_RO_DATA with the debug path selected (R612, R616): header, data words, CRC, then the header again. -/
def Readout.next (v : Variant) (h : HalfId) (data : Nat → Word) (r : Readout) : Readout :=
  let n := segWords v r.seg
  if r.pos = 0 then
    let w := frameHeader v h r.seg
    { r with word := w, pos := 1, crc := crcWord 0xFFFFFFFF w }
  else if r.pos ≤ n then
    let w := data (r.pos - 1)
    { r with word := w, pos := r.pos + 1, crc := crcWord r.crc w }
  else { r with word := ~~~ r.crc, pos := 0 }

/-- One read of FRZ_RO_DATA: zero while SRC is 0; otherwise the next word of the frame (R616). -/
def Block.roData (b : Block) (h : HalfId) (image : Word) : Block × Word :=
  let x := b.half h
  if x.ro.src then
    let r := x.ro.next b.variant h (b.segWord h x.ro.seg (fun _ => image))
    (b.onHalf h (fun x => { x with ro := r }), r.word)
  else (b, 0)

/-- FRZ_RO_DATA_READ (R616): through the register window outside freeze, through the debug access port at any time. -/
def execFrzRoDataRead (h : HalfId) (dbg : Bool) (image : Word) (s : State) : Host.Outcome State Fault Refusal :=
  if dbg then dbgRun h (fun b => (b.roData h image).1.dbgRespond (Resp.value (b.roData h image).2.toNat)) s
  else portRun h causeRegister (.frzRoDataRead h dbg image) (fun b => (b.roData h image).1.respond h (Resp.value (b.roData h image).2.toNat)) s

end Sys2Proof.Machine
end

