-- ==== Sys2Proof/Machine/RegCmds.lean ====
section
/-!
DEFINITION. The meaning of REGISTER_WRITE (20).
-/

namespace Sys2Proof.Machine

open Sys2Proof

/-! ### REGISTER_WRITE -/

/-- WAKE_CAUSE of a write: a doorbell, PWR_CTL.WAKE, or any other register access (R536, R547). -/
def causeOf (o : Nat) (w : Word) : Nat :=
  if 0x10000 ≤ o ∧ o < 0x12000 then causeDoorbell else if o = 0x70000 ∧ w.bit 3 then 8 else causeRegister

/-- REGISTER_WRITE (R640). An access of 8 bytes is two of these, the lower offset first (R642). -/
def execRegisterWrite (h : HalfId) (offset : Nat) (value : Word) (s : State) : Host.Outcome State Fault Refusal :=
  portRun h (causeOf offset value) (.registerWrite h offset value) (fun b => b.writeReg h offset value false) s

end Sys2Proof.Machine
end

