-- ==== Sys2Proof/Machine/ScrubWord.lean ====
section
/-!
DEFINITION. The scrubber's visit of a word, what an error found there does, and the thresholds of errors (12: R461-R474; R447, R448).
-/

namespace Sys2Proof.Machine

open Sys2Proof

/-- Words of a pool bank: 512 KiB of 64 bits (R459). -/
def bankWords : Nat := 65536

/-- The memory-error notice of an uncorrectable word (R484). -/
def Block.memNotice (b : Block) (h : HalfId) (m word : Nat) (repaired : Bool) : Block :=
  b.event h 0x19 m (word % 2 ^ 32 + at' 1 32 1 + at' (bitOf repaired) 33 1)

/-- What the word of the DMA buffer with stream byte `pos` does to its command when it is poisoned: one to be written out gives DATA_POISON (R448); a byte to be compared
counts as differing (R446); a program's page is affected, with SOURCE_POISON (R447); other host data gives XFER_ERROR (R446). -/
def Ctx.dmaPoisoned (c : Ctx) (t : Stream) (pos : Nat) : Ctx :=
  if c.writesOut then { c with flags := { c.flags with dataPoison := true } }
  else if c.compares then
    { c with flags := { c.flags with compareMiss := true }, cmpFirst := some (Nat.min (c.cmpFirst.getD pos) pos) }
  else if c.usesBuf then { c with flags := { c.flags with xferError := true } }
  else
    let i := if pos < t.total then pos / 16384 else (pos - t.total) / 128
    { c with flags := { c.flags with sourcePoison := true }
             pages := match c.pages[i]? with
               | none => c.pages
               | some p => if p.st = .waiting then c.pages.set i { p with affected := true } else c.pages }

/-- A word of the DMA buffer poisoned: one that is still to leave does so poisoned, its beat with POISON (R448). -/
def Half.loseDmaWord (x : Half) (slot pos : Nat) : Half :=
  let t := x.stream slot
  let p := pos / 8 * 8
  if !t.active || (t.dir && decide (p + 8 ≤ t.moved)) then x
  else (x.onStream slot (fun t => if t.dir then { t with lost := t.lost ++ [p] } else t)).onCtx t.seq (fun c => c.dmaPoisoned t p)

/-- A command whose context word is lost (R468): one that has issued nothing ends at once, one that runs ends with DATA_POISON. -/
def Block.loseCtx (b : Block) (h : HalfId) (seq : Nat) : Block :=
  match (b.half h).ctx? seq with
  | none => b
  | some c =>
    match c.phase with
    | .stalled | .left => b.finish h seq .dataPoison 0
    | .running => b.onCtx seq (fun c => { c with flags := { c.flags with dataPoison := true } })
    | .finished => b.finish h seq .dataPoison c.result.toNat
    | _ => b

/-- The word can be repaired: from a source the die or host still has, or from an attached twin's copy where that is not poisoned itself (R467, R557). -/
def Block.repairable (b : Block) (h : HalfId) (hit : MemHit) : Bool :=
  match hit with
  | .repairable => true
  | .record i high => b.linked && !(b.half h.twin).store.poisoned.contains (i, high)
  | .context _ _ => b.linked
  | .journal => b.linked
  | _ => false

/-- What an uncorrectable word that no source repairs does (R468; R557 for a word of the journal). -/
def Block.loseWord (b : Block) (h : HalfId) (hit : MemHit) : Block :=
  match hit with
  | .held tag page => b.onHalf h (fun x => { x with pool := { x.pool with holds := x.pool.holds.change tag (fun e => { e with poison := e.poison ++ [page] }) } })
  | .record i high => b.onHalf h (fun x => x.onStore (fun s => { s with poisoned := if s.poisoned.contains (i, high) then s.poisoned else s.poisoned ++ [(i, high)] }))
  | .context seq idWords => if idWords then b.halfFault h else b.loseCtx h seq
  | .gutItem g num word => b.onHalf h (fun x => x.onGutter g (fun u =>
      if word = 0 then u.loseItem num
      else { u with items := u.items.map (fun i => if i.num = num then { i with poison := i.poison ++ [word] } else i) }))
  | .journal => b.onHalf h (fun x => x.onFly (fun f => { f with jrnlBad := true }))
  | .dmaData slot pos => b.onHalf h (fun x => x.loseDmaWord slot pos)
  | _ => b

/-- The thresholds of R474, after an uncorrectable error at word `w` of memory `m`; `lost` names what its bank held. -/
def Block.ueLimit (b : Block) (h : HalfId) (m w : Nat) (lost : BankLoss) : Block :=
  if m = 0 then
    let k := w / bankWords
    let b1 := b.onHalf h (fun x => { x with mems := { x.mems with bankUe := Tab.modify 0 x.mems.bankUe k (fun n => satAdd 15 n 1) } })
    if (b1.half h).mems.ueLimit ≤ (b1.half h).bankUe k then b1.retireBank h k 6 lost else b1
  else if decide ((b.half h).mems.ueLimit ≤ ((b.half h).mem m).ue) && b.linked then b.halfFault h
  else b

/-- An uncorrectable error found at word `w` of memory `m`: counted, the word repaired or left poisoned, noticed, the thresholds looked at (R462,
R467-R469, R473, R474). -/
def Block.uncorrected (b : Block) (h : HalfId) (m w : Nat) (hit : MemHit) (lost : BankLoss) : Block :=
  let fixed := b.repairable h hit
  let b1 := b.onHalf h (fun x => x.onMem m (fun y =>
    let z := y.countError w true
    { z with poisoned := if fixed then z.poisoned else z.poisoned ++ [(w, hit)] }))
  let b2 := (if fixed then b1 else b1.loseWord h hit).memNotice h m w fixed
  b2.ueLimit h m w lost

/-- The scrubber's read of one word (R462, R465, R472): `error` is a corrected (false) or an uncorrectable (true) error; an unwritten word is skipped,
and a word stored as poisoned is not counted again while it holds what it held. -/
def Block.scrub (b : Block) (h : HalfId) (m : Nat) (error : Option Bool) (hit : MemHit) (lost : BankLoss) : Block :=
  let y := (b.half h).mem m
  let w := y.scrubAt
  let b1 := b.onHalf h (fun x =>
    let z := x.onMem m (Mem.scrubNext (Config.memWords b.variant m))
    if m = 0 then z.askPool 34 else z)
  if !y.isWritten hit || y.poisoned.contains (w, hit) then b1
  else
    match error with
    | none => b1
    | some false => b1.onHalf h (fun x => x.onMem m (fun z => z.countError w false))
    | some true => b1.uncorrected h m w hit lost

/-- SCRUB_WORD (R472): INTERVAL CLK_CORE cycles have passed at memory `m`; 0 stops every scrubber. -/
def execScrubWord (h : HalfId) (m : Nat) (error : Option Bool) (hit : MemHit) (lost : BankLoss) (s : State) :
    Host.Outcome State Fault Refusal :=
  run (fun b =>
    if b.coreRuns h && decide ((b.half h).mems.interval ≠ 0) && decide (m < 5) then b.scrub h m error hit lost else b) s

end Sys2Proof.Machine
end

