-- ==== Sys2Proof/Machine/Thaw.lean ====
section
/-!
DEFINITION. Thaw, what freeze held at the ports, and what ends a freeze: FRZ_CTL.THAW, the debug access port, a brown-out (18; R58, R69, R78).
-/

namespace Sys2Proof.Machine

open Sys2Proof

/-! ### What freeze held at the ports (R58) -/

/-- The meaning of an access through the target port, or of a response to the master port, that a freeze has kept waiting; any other command has none here. A FREEZE write that waited
there arrived during the freeze, which ignores it (R607). -/
def heldMeaning (i : Instr) (s : State) : Host.Outcome State Fault Refusal :=
  match i with
  | .frzCtlFreeze h dbg => portRun h causeRegister (.frzCtlFreeze h dbg) (fun b => b) s
  | .frzRoCtlWrite h dbg value => execFrzRoCtlWrite h dbg value s
  | .frzRoDataRead h dbg image => execFrzRoDataRead h dbg image s
  | .targetAccessOutside h => execTargetAccessOutside h s
  | .fetch h offset beats attr => execFetch h offset beats attr s
  | .registerWrite h offset value =>
    if offset = 0x90000 then portRun h causeRegister (.registerWrite h offset value) (fun b => b) s else execRegisterWrite h offset value s
  | .doorbell h q value => execDoorbell h q value s
  | .doorbellTakenOver h q value => execDoorbellTakenOver h q value s
  | .queueDisable h adopted q on => execQueueDisable h adopted q on s
  | .queueRestart h adopted q => execQueueRestart h adopted q s
  | .adminQueueConfig h value => execAdminQueueConfig h value s
  | .queSeqRead h => execQueSeqRead h s
  | .entryFetch h adopted q entries => execEntryFetch h adopted q entries s
  | .fetchError h adopted q good poisoned => execFetchError h adopted q good poisoned s
  | .replyAck h r => execReplyAck h r s
  | .replyError h r => execReplyError h r s
  | .headerWriteAck h adopted q => execHeaderWriteAck h adopted q s
  | .headerError h adopted q => execHeaderError h adopted q s
  | .fenceReadReturn h seq => execFenceReadReturn h seq s
  | .twnCtlYield h => execTwnCtlYield h s
  | .twnCtlSelftest h cause => execTwnCtlSelftest h cause s
  | .arbCommitGo h => execArbCommitGo h s
  | .arbLfsrWrite h dec value => execArbLfsrWrite h dec value s
  | .descriptorFetch h slot desc poison => execDescriptorFetch h slot desc poison s
  | .dmaReadReturn h slot data poison err => execDmaReadReturn h slot data poison err s
  | .dmaWriteResponse h slot err => execDmaWriteResponse h slot err s
  | .dmaStreamDrop h slot value => execDmaStreamDrop h slot value s
  | .memInitFill h mask => execMemInitFill h mask s
  | .memClr h m value => execMemClr h m value s
  | .gutRdRead h g => execGutRdRead h g s
  | .gutCtlMark h g => execGutCtlMark h g s
  | .gutCtlRewind h g => execGutCtlRewind h g s
  | .gutCtlRelease h g => execGutCtlRelease h g s
  | .gutCtlUnstall h g => execGutCtlUnstall h g s
  | .spillWriteAck h g => execSpillWriteAck h g s
  | .spillError h g => execSpillError h g s
  | .gutSprdWrite h g value => execGutSprdWrite h g value s
  | .loopEnable h n on => execLoopEnable h n on s
  | .loopCommitGo h => execLoopCommitGo h s
  | .trcModeWrite h n mode => execTrcModeWrite h n mode s
  | .loopTrcSelWrite h value => execLoopTrcSelWrite h value s
  | .irqClaim h k => execIrqClaim h k s
  | .irqEoi h k value => execIrqEoi h k value s
  | .irqPendSet h n value => execIrqPendSet h n value s
  | .irqPendClear h n value => execIrqPendClear h n value s
  | .irqMaskSet h n value => execIrqMaskSet h n value s
  | .irqMaskClear h n value => execIrqMaskClear h n value s
  | .irqCommitGo h => execIrqCommitGo h s
  | .rgnCommitGo h => execRgnCommitGo h s
  | .rgnLineFlush h => execRgnLineFlush h s
  | .recIndexWrite h value => execRecIndexWrite h value s
  | .recAgeWrite h value => execRecAgeWrite h value s
  | .decRandSeedWrite h value => execDecRandSeedWrite h value s
  | .chnCtlRetrain h ch => execChnCtlRetrain h ch s
  | .chnCtlQuick h ch => execChnCtlQuick h ch s
  | .pwrCtlWake h => execPwrCtlWake h s
  | .warmReset h key => execWarmReset h key s
  | .channelReset h ch key finds => execChannelReset h ch key finds s
  | .format h key => execFormat h key s
  | .poolMinClr h => execPoolMinClr h s
  | _ => .next s

/-- What one held access or response does as the handshakes resume. -/
def Block.perform (b : Block) (i : Instr) : Block :=
  match heldMeaning i { blk := b, pending := [] } with
  | .next t => t.blk
  | _ => b

/-- The handshakes of both ports resume: what waited there takes place in the order it came (R58, R618). -/
def Block.release (b : Block) : Block :=
  if b.pair.frozen then b else b.pair.held.foldl (fun a e => a.perform e.2.2) (b.onPair (fun p => { p with held := [] }))

/-! ### Thaw (R617, R618) -/

/-- The half refreshes its enable on channel `c`: it drives it, and has neither been reset nor lost (R35). -/
def Half.refreshes (x : Half) (c : Nat) : Bool :=
  x.drivesCh c && decide (2 ≤ x.boot.stage) && decide (x.boot.stage ≠ 15) && !x.boot.failed && !x.boot.heldReset && !x.boot.hrst

/-- The pads after a freeze: the refresh of R35 counts again, so that an enable its half no longer refreshes lapses, and the others select their half (R61, R69). -/
def Block.padsThawed (b : Block) : Block :=
  (b.each (b.pair.enable.filter (fun e => !(b.half e.2).refreshes e.1)) (fun a e => a.dropEnable e.2 e.1)).settlePads (List.range 16)

/-- The thaw of both halves (R545, R618); `ticks` is how long the freeze lasted, in AON cycles, saturating (R619). -/
def Block.thaw (b : Block) (ticks : Nat) : Block :=
  if b.pair.frozen then
    let b1 := (b.onPair (fun p => { p with frozen := false, frzTicks := Nat.min ticks (2 ^ 32 - 1), budget := p.budgetIn })).padsThawed
    let b2 := (((b1.onHalf .a Half.thawed).onHalf .b Half.thawed).syncUpdate .a).syncUpdate .b
    (((b2.resumeBring .a).resumeBring .b).wakeLatched .a).wakeLatched .b
  else b

/-- A thaw whose length nothing tells: FRZ_TIME takes a free value. -/
def Block.thawFree (b : Block) : Block := { b with freeUses := b.freeUses + 1 }.thaw (Config.freeValue b.freeUses).toNat

/-- FRZ_CTL_THAW (R617, R618): acts only through the debug access port, and only while frozen. -/
def execFrzCtlThaw (h : HalfId) (dbg : Bool) (ticks : Nat) (s : State) : Host.Outcome State Fault Refusal :=
  if dbg then dbgRun h (fun b => if b.pair.frozen then (b.thaw ticks).release else b) s
  else portRun h causeRegister (.frzCtlThaw h dbg ticks) (fun b => b) s

/-- BROWNOUT (R73, R78, R79, R544, R548, R550): HOLDUP_MS is captured at its rising edge; the event is latched once, ends a freeze, and from the pair's first run phase on
both halves drain. -/
def execBrownout (holdup : Nat) (s : State) : Host.Outcome State Fault Refusal :=
  run (fun b =>
    let inReset := decide (b.pair.phase = .reset)
    let b1 := b.onPair (fun p => { p with brownout := true, holdupMs := if p.brownout || inReset then p.holdupMs else holdup % 256 })
    if b.pair.latched || inReset then b1
    else
      let b2 := b1.onPair (fun p => { p with latched := true })
      let b3 := if b.pair.frozen then b2.thawFree.onPair (fun p => { p with boThaw := true }) else b2
      (if b.pair.ranPhase then b3.brownAll b3.pair.holdupMs else b3).release) s

/-! ### DEBUG_ACCESS (R615, R643, R644) -/

/-- The half and the offset of a debug address (R615). -/
def debugPlace (addr : Nat) : HalfId × Nat := (if addr < 0x100000 then .a else .b, addr % 0x100000)

/-- The offset is one of the FRZ block that the debug access port reaches during freeze (R615). -/
def inFrz (o : Nat) : Bool := decide (0x90000 ≤ o) && decide (o < 0x91000)

/-- A debug read of GUT_RDg: the word at the pointer, which moves; a read that finds none returns zero at once and clears TMO, since the port
has no stall (R478, R482, R615). -/
def Block.debugGut (b : Block) (h : HalfId) (g : Nat) : Block × Resp :=
  let u := (b.half h).gutter g
  (b.onHalf h (fun x => x.onGutter g (fun u => if u.spilling then { u with tmo := false } else { u.advance with tmo := false })), u.pkValue)

/-- A debug read, with the side effects that the read has through the target port (R643, R644). The data words of a frame are the held state's
own, a free value here; so are FRZ_TIME while a freeze lasts, since nothing counts its ticks here, and DMA_BUF.FREE while streams are in flight, since the spec does not state which lines they take. -/
def Block.debugRead (b : Block) (h : HalfId) (o : Nat) : Block × Resp :=
  match gutterAt b.variant o, blockAt o 0x51000 0x40 8 with
  | some (g, 0x18), _ => b.debugGut h g
  | some (g, 0x1C), _ => b.debugGut h g
  | _, some (k, 0) => (b.onHalf h (fun x => x.onIrq (fun i => i.claim k)), Resp.value ((b.half h).irq.claimValue k))
  | _, _ =>
    if o = 0x1038 then
      (b.onHalf h (fun x => x.onQue (fun m => { m with seqHi := BitVec.ofNat 32 (fieldOf b.pair.nextSeq 32 32) })),
        Resp.value (b.readWord h o))
    else if o = 0x90010 then
      let r := { b with freeUses := b.freeUses + 1 }.roData h (Config.freeValue b.freeUses)
      (r.1, Resp.value r.2.toNat)
    else if o = 0x90014 && b.pair.frozen then ({ b with freeUses := b.freeUses + 1 }, Resp.value (Config.freeValue b.freeUses).toNat)
    else if o = 0xB010C && List.any (b.half h).dma.streams (fun e => e.2.active) then
      ({ b with freeUses := b.freeUses + 1 }, Resp.value ((Config.freeValue b.freeUses).toNat % (Config.dmaLines b.variant + 1)))
    else (b, { ok := true, data := b.readWord h o, poison := b.readPoison h o })

/-- A write to FRZ_CTL through the debug access port while frozen: THAW ends the freeze, FREEZE is ignored (R607, R617). -/
def Block.debugThaw (b : Block) (w : Word) : Block := if w.bit 1 then b.thawFree.release else b

/-- What an access through the debug access port does (R615): during freeze it reaches only FRZ; a half held in reset answers zero. -/
def Block.debug (b : Block) (h : HalfId) (o : Nat) (write : Option Word) : Block :=
  if (b.pair.frozen || b.held h) && !inFrz o then b.dbgRespond (Resp.value 0)
  else
    let b1 := b.wake h (write.elim causeRegister (causeOf o))
    match write with
    | some w => (if b.pair.frozen && decide (o = 0x90000) then b1.debugThaw w else b1.writeReg h o w true).dbgRespond (Resp.value 0)
    | none =>
      let r := b1.debugRead h o
      r.1.dbgRespond r.2

/-- DEBUG_ACCESS (R615); an unpowered half answers nothing (R675). -/
def execDebugAccess (addr : Nat) (write : Option Word) (s : State) : Host.Outcome State Fault Refusal :=
  if s.blk.alive (debugPlace addr).1 then run (fun b => b.debug (debugPlace addr).1 (debugPlace addr).2 write) s else .fault .unpowered

end Sys2Proof.Machine
end

