-- ==== Sys2Proof/Machine/Dispatch.lean ====
section
/-!
DEFINITION. Which meaning each command has: one arm per constructor of Instr.
-/

namespace Sys2Proof.Machine

open Sys2Proof

/-- The effect of a command on everything but the queue of waiting commands. -/
def exec (i : Instr) (s : State) : Host.Outcome State Fault Refusal :=
  match i with
  | .porstNLow => Sys2Proof.Machine.execPorstNLow s
  | .pegPhaseStart => Sys2Proof.Machine.execPegPhaseStart s
  | .pegPhaseEnd h link => Sys2Proof.Machine.execPegPhaseEnd h link s
  | .halfReset h low => Sys2Proof.Machine.execHalfReset h low s
  | .pllLock h pll => Sys2Proof.Machine.execPllLock h pll s
  | .pllLockTimeout h pll => Sys2Proof.Machine.execPllLockTimeout h pll s
  | .groundsheetFill h => Sys2Proof.Machine.execGroundsheetFill h s
  | .dieDiscovery h finds table => Sys2Proof.Machine.execDieDiscovery h finds table s
  | .checkpointSearch h copies marks => Sys2Proof.Machine.execCheckpointSearch h copies marks s
  | .microcodeLoad h good badEng badHard badSoft table => Sys2Proof.Machine.execMicrocodeLoad h good badEng badHard badSoft table s
  | .channelTraining h ch found us => Sys2Proof.Machine.execChannelTraining h ch found us s
  | .recordRestore h slots leaves samples marks flash => Sys2Proof.Machine.execRecordRestore h slots leaves samples marks flash s
  | .mirrorSync => Sys2Proof.Machine.execMirrorSync s
  | .adminReady h t100us => Sys2Proof.Machine.execAdminReady h t100us s
  | .brownout holdup => Sys2Proof.Machine.execBrownout holdup s
  | .earlyBrownoutDiscard => Sys2Proof.Machine.execEarlyBrownoutDiscard s
  | .flysheetCommit h tHdr tSeal fails0 fails1 => Sys2Proof.Machine.execFlysheetCommit h tHdr tSeal fails0 fails1 s
  | .budgetTgl value => Sys2Proof.Machine.execBudgetTgl value s
  | .updateEnFall => Sys2Proof.Machine.execUpdateEnFall s
  | .frzReq => Sys2Proof.Machine.execFrzReq s
  | .frzCtlFreeze h dbg => Sys2Proof.Machine.execFrzCtlFreeze h dbg s
  | .frzCtlThaw h dbg ticks => Sys2Proof.Machine.execFrzCtlThaw h dbg ticks s
  | .freezePortFrame h image => Sys2Proof.Machine.execFreezePortFrame h image s
  | .frzRoCtlWrite h dbg value => Sys2Proof.Machine.execFrzRoCtlWrite h dbg value s
  | .frzRoDataRead h dbg image => Sys2Proof.Machine.execFrzRoDataRead h dbg image s
  | .debugAccess addr write => Sys2Proof.Machine.execDebugAccess addr write s
  | .targetAccessOutside h => Sys2Proof.Machine.execTargetAccessOutside h s
  | .fetch h offset beats attr => Sys2Proof.Machine.execFetch h offset beats attr s
  | .lineFill h => Sys2Proof.Machine.execLineFill h s
  | .registerWrite h offset value => Sys2Proof.Machine.execRegisterWrite h offset value s
  | .doorbell h q value => Sys2Proof.Machine.execDoorbell h q value s
  | .doorbellTakenOver h q value => Sys2Proof.Machine.execDoorbellTakenOver h q value s
  | .queueDisable h adopted q on => Sys2Proof.Machine.execQueueDisable h adopted q on s
  | .queueRestart h adopted q => Sys2Proof.Machine.execQueueRestart h adopted q s
  | .adminQueueConfig h value => Sys2Proof.Machine.execAdminQueueConfig h value s
  | .queSeqRead h => Sys2Proof.Machine.execQueSeqRead h s
  | .entryFetch h adopted q entries => Sys2Proof.Machine.execEntryFetch h adopted q entries s
  | .fetchError h adopted q good poisoned => Sys2Proof.Machine.execFetchError h adopted q good poisoned s
  | .sequenceNumberRequest h => Sys2Proof.Machine.execSequenceNumberRequest h s
  | .rangeLockLeave h seq => Sys2Proof.Machine.execRangeLockLeave h seq s
  | .replyWrite h r => Sys2Proof.Machine.execReplyWrite h r s
  | .replyAck h r => Sys2Proof.Machine.execReplyAck h r s
  | .replyError h r => Sys2Proof.Machine.execReplyError h r s
  | .headerWrite h adopted q => Sys2Proof.Machine.execHeaderWrite h adopted q s
  | .headerError h adopted q => Sys2Proof.Machine.execHeaderError h adopted q s
  | .read h seq => Sys2Proof.Machine.execRead h seq s
  | .readRaw h seq => Sys2Proof.Machine.execReadRaw h seq s
  | .patrol h seq => Sys2Proof.Machine.execPatrol h seq s
  | .program h seq => Sys2Proof.Machine.execProgram h seq s
  | .programAt h seq => Sys2Proof.Machine.execProgramAt h seq s
  | .offer h seq => Sys2Proof.Machine.execOffer h seq s
  | .copy h seq => Sys2Proof.Machine.execCopy h seq s
  | .erase h seq => Sys2Proof.Machine.execErase h seq s
  | .invalidate h seq => Sys2Proof.Machine.execInvalidate h seq s
  | .victim h seq => Sys2Proof.Machine.execVictim h seq s
  | .blankCheck h seq => Sys2Proof.Machine.execBlankCheck h seq s
  | .rebuild h seq => Sys2Proof.Machine.execRebuild h seq s
  | .rebuildSwap h n => Sys2Proof.Machine.execRebuildSwap h n s
  | .release h seq => Sys2Proof.Machine.execRelease h seq s
  | .groupCommit h seq => Sys2Proof.Machine.execGroupCommit h seq s
  | .fence h seq => Sys2Proof.Machine.execFence h seq s
  | .identify h seq => Sys2Proof.Machine.execIdentify h seq s
  | .pitch h seq => Sys2Proof.Machine.execPitch h seq s
  | .strike h seq => Sys2Proof.Machine.execStrike h seq s
  | .logGet h seq => Sys2Proof.Machine.execLogGet h seq s
  | .profileLoad h seq => Sys2Proof.Machine.execProfileLoad h seq s
  | .profileBind h seq => Sys2Proof.Machine.execProfileBind h seq s
  | .recUpdate h seq => Sys2Proof.Machine.execRecUpdate h seq s
  | .stripeOpen h seq => Sys2Proof.Machine.execStripeOpen h seq s
  | .regionOpen h seq => Sys2Proof.Machine.execRegionOpen h seq s
  | .regionClose h seq => Sys2Proof.Machine.execRegionClose h seq s
  | .dieFeature h seq values => Sys2Proof.Machine.execDieFeature h seq values s
  | .dieReset h seq => Sys2Proof.Machine.execDieReset h seq s
  | .retire h seq lost => Sys2Proof.Machine.execRetire h seq lost s
  | .restore h seq pass => Sys2Proof.Machine.execRestore h seq pass s
  | .detach h seq => Sys2Proof.Machine.execDetach h seq s
  | .attach h seq cause good table => Sys2Proof.Machine.execAttach h seq cause good table s
  | .mirrorAck h => Sys2Proof.Machine.execMirrorAck h s
  | .guyLinkMessage h => Sys2Proof.Machine.execGuyLinkMessage h s
  | .linkNak h => Sys2Proof.Machine.execLinkNak h s
  | .heartbeat h => Sys2Proof.Machine.execHeartbeat h s
  | .heartbeatLate h => Sys2Proof.Machine.execHeartbeatLate h s
  | .twinLoss h => Sys2Proof.Machine.execTwinLoss h s
  | .interlockWaitEnd h => Sys2Proof.Machine.execInterlockWaitEnd h s
  | .takeover h us flash => Sys2Proof.Machine.execTakeover h us flash s
  | .beaconLoss h => Sys2Proof.Machine.execBeaconLoss h s
  | .padEnableLapse h => Sys2Proof.Machine.execPadEnableLapse h s
  | .twnCtlYield h => Sys2Proof.Machine.execTwnCtlYield h s
  | .yieldedChannelsTake h ckpt flash => Sys2Proof.Machine.execYieldedChannelsTake h ckpt flash s
  | .twnCtlSelftest h cause => Sys2Proof.Machine.execTwnCtlSelftest h cause s
  | .channelMove h ch cause => Sys2Proof.Machine.execChannelMove h ch cause s
  | .engineFailure h engine cause word => Sys2Proof.Machine.execEngineFailure h engine cause word s
  | .backgroundEngineFailure h engine cause word => Sys2Proof.Machine.execBackgroundEngineFailure h engine cause word s
  | .backgroundJobEnd h engine => Sys2Proof.Machine.execBackgroundJobEnd h engine s
  | .poolBankRetire h bank cause lost => Sys2Proof.Machine.execPoolBankRetire h bank cause lost s
  | .schedulerChoice h ch die => Sys2Proof.Machine.execSchedulerChoice h ch die s
  | .busTask h ch busy data => Sys2Proof.Machine.execBusTask h ch busy data s
  | .resume h ch die => Sys2Proof.Machine.execResume h ch die s
  | .pollDue h ch die => Sys2Proof.Machine.execPollDue h ch die s
  | .rbNRise h ch => Sys2Proof.Machine.execRbNRise h ch s
  | .lunReady h ch die status => Sys2Proof.Machine.execLunReady h ch die status s
  | .suspendReady h ch die status => Sys2Proof.Machine.execSuspendReady h ch die status s
  | .operationTimeout h ch die => Sys2Proof.Machine.execOperationTimeout h ch die s
  | .suspendTimeout h ch die => Sys2Proof.Machine.execSuspendTimeout h ch die s
  | .codewordArrival h seq n raw => Sys2Proof.Machine.execCodewordArrival h seq n raw s
  | .decodeArbitration h soft => Sys2Proof.Machine.execDecodeArbitration h soft s
  | .decodeDone h soft core final => Sys2Proof.Machine.execDecodeDone h soft core final s
  | .stripeReconstruction h seq n => Sys2Proof.Machine.execStripeReconstruction h seq n s
  | .parityProgram h slot => Sys2Proof.Machine.execParityProgram h slot s
  | .poolArbitration h => Sys2Proof.Machine.execPoolArbitration h s
  | .holdWatchdog h dec who => Sys2Proof.Machine.execHoldWatchdog h dec who s
  | .arbCommitGo h => Sys2Proof.Machine.execArbCommitGo h s
  | .arbLfsrWrite h dec value => Sys2Proof.Machine.execArbLfsrWrite h dec value s
  | .dmaStreamStart h => Sys2Proof.Machine.execDmaStreamStart h s
  | .descriptorFetch h slot desc poison => Sys2Proof.Machine.execDescriptorFetch h slot desc poison s
  | .dmaBurst h slot => Sys2Proof.Machine.execDmaBurst h slot s
  | .dmaReadReturn h slot data poison err => Sys2Proof.Machine.execDmaReadReturn h slot data poison err s
  | .dmaWriteResponse h slot err => Sys2Proof.Machine.execDmaWriteResponse h slot err s
  | .dmaStreamComplete h slot => Sys2Proof.Machine.execDmaStreamComplete h slot s
  | .dmaStreamDrop h slot value => Sys2Proof.Machine.execDmaStreamDrop h slot value s
  | .scrubWord h m error hit lost => Sys2Proof.Machine.execScrubWord h m error hit lost s
  | .memInitFill h mask => Sys2Proof.Machine.execMemInitFill h mask s
  | .memClr h m value => Sys2Proof.Machine.execMemClr h m value s
  | .gutRdRead h g => Sys2Proof.Machine.execGutRdRead h g s
  | .gutCtlMark h g => Sys2Proof.Machine.execGutCtlMark h g s
  | .gutCtlRewind h g => Sys2Proof.Machine.execGutCtlRewind h g s
  | .gutCtlRelease h g => Sys2Proof.Machine.execGutCtlRelease h g s
  | .gutCtlUnstall h g => Sys2Proof.Machine.execGutCtlUnstall h g s
  | .gutterTimeout h g => Sys2Proof.Machine.execGutterTimeout h g s
  | .spillWriteAck h g => Sys2Proof.Machine.execSpillWriteAck h g s
  | .spillError h g => Sys2Proof.Machine.execSpillError h g s
  | .gutSprdWrite h g value => Sys2Proof.Machine.execGutSprdWrite h g value s
  | .loopSample h n => Sys2Proof.Machine.execLoopSample h n s
  | .loopEnable h n on => Sys2Proof.Machine.execLoopEnable h n on s
  | .loopCommitGo h => Sys2Proof.Machine.execLoopCommitGo h s
  | .trcModeWrite h n mode => Sys2Proof.Machine.execTrcModeWrite h n mode s
  | .loopTrcSelWrite h value => Sys2Proof.Machine.execLoopTrcSelWrite h value s
  | .irqFilterPass h src => Sys2Proof.Machine.execIrqFilterPass h src s
  | .irqClaim h k => Sys2Proof.Machine.execIrqClaim h k s
  | .irqEoi h k value => Sys2Proof.Machine.execIrqEoi h k value s
  | .irqPendSet h n value => Sys2Proof.Machine.execIrqPendSet h n value s
  | .irqPendClear h n value => Sys2Proof.Machine.execIrqPendClear h n value s
  | .irqMaskSet h n value => Sys2Proof.Machine.execIrqMaskSet h n value s
  | .irqMaskClear h n value => Sys2Proof.Machine.execIrqMaskClear h n value s
  | .irqCommitGo h => Sys2Proof.Machine.execIrqCommitGo h s
  | .rgnCommitGo h => Sys2Proof.Machine.execRgnCommitGo h s
  | .rgnLineFlush h => Sys2Proof.Machine.execRgnLineFlush h s
  | .recIndexWrite h value => Sys2Proof.Machine.execRecIndexWrite h value s
  | .recAgeWrite h value => Sys2Proof.Machine.execRecAgeWrite h value s
  | .ageingWalk h => Sys2Proof.Machine.execAgeingWalk h s
  | .decRandSeedWrite h value => Sys2Proof.Machine.execDecRandSeedWrite h value s
  | .chnCtlRetrain h ch => Sys2Proof.Machine.execChnCtlRetrain h ch s
  | .chnCtlQuick h ch => Sys2Proof.Machine.execChnCtlQuick h ch s
  | .retrainPeriod h ch => Sys2Proof.Machine.execRetrainPeriod h ch s
  | .marginAlarm h ch die counts => Sys2Proof.Machine.execMarginAlarm h ch die counts s
  | .eraseAgeTick h ch die => Sys2Proof.Machine.execEraseAgeTick h ch die s
  | .checkpointStart h => Sys2Proof.Machine.execCheckpointStart h s
  | .checkpointSealed h bad => Sys2Proof.Machine.execCheckpointSealed h bad s
  | .idleTimerExpiry h => Sys2Proof.Machine.execIdleTimerExpiry h s
  | .wakeEvent h cause => Sys2Proof.Machine.execWakeEvent h cause s
  | .pwrCtlWake h => Sys2Proof.Machine.execPwrCtlWake h s
  | .sleepMessage h => Sys2Proof.Machine.execSleepMessage h s
  | .awakeMessage h => Sys2Proof.Machine.execAwakeMessage h s
  | .wakeMessage h => Sys2Proof.Machine.execWakeMessage h s
  | .clkDecGate h => Sys2Proof.Machine.execClkDecGate h s
  | .warmReset h key => Sys2Proof.Machine.execWarmReset h key s
  | .channelReset h ch key finds => Sys2Proof.Machine.execChannelReset h ch key finds s
  | .format h key => Sys2Proof.Machine.execFormat h key s
  | .poolMinClr h => Sys2Proof.Machine.execPoolMinClr h s
  | .brownoutFall => Sys2Proof.Machine.execBrownoutFall s
  | .updateEnRise => Sys2Proof.Machine.execUpdateEnRise s
  | .supplyLoss half => Sys2Proof.Machine.execSupplyLoss half s
  | .pllLockLoss h => Sys2Proof.Machine.execPllLockLoss h s
  | .twinAnswerTimeout h => Sys2Proof.Machine.execTwinAnswerTimeout h s
  | .pegCycleEnd h lines => Sys2Proof.Machine.execPegCycleEnd h lines s
  | .beaconToggle h => Sys2Proof.Machine.execBeaconToggle h s
  | .suspendGapElapsed h ch die => Sys2Proof.Machine.execSuspendGapElapsed h ch die s
  | .headerWriteAck h adopted q => Sys2Proof.Machine.execHeaderWriteAck h adopted q s
  | .fenceReadReturn h seq => Sys2Proof.Machine.execFenceReadReturn h seq s

end Sys2Proof.Machine
end

