-- ==== Sys2Proof/Safety.lean ====
section
/-!
DEFINITION. What counts as a safe run: no fault, no refusal, and the settings of every register inside the limits at which it stores
them.
-/

namespace Sys2Proof.Machine

open Sys2Proof

/-- The stored limits of the general settings (R27, R227, R640). -/
def GenCfg.inLimits (v : Variant) (g : GenCfg) : Bool :=
  decide (g.bgMax ≤ Config.bgLimit v) && decide (1 ≤ g.readsMax) && decide (g.readsMax ≤ 63) && decide (g.gapUs ≤ 255) &&
    decide (1 ≤ g.openMax) && decide (g.openMax ≤ Config.openLimit v) && decide (g.holdMax ≤ 64) &&
    decide (g.ersMark < 65536) && decide (g.ceiling < 1024) &&
    decide (g.wHost < 16) && decide (g.wReclaim < 16) && decide (g.wRecord < 16) && decide (g.wMaint < 16)

/-- Both halves hold their general settings inside the limits at which they are stored. -/
def Block.SettingsOk (b : Block) : Prop := ∀ h, (b.half h).gen.inLimits b.variant = true

/-- The interlock holds at most one enable for each channel: its table is in its canonical form, channels strictly rising (R34). -/
def Block.EnablesOk (b : Block) : Prop := Tab.risingFrom 0 b.pair.enable = true

/-- The invariant of the block that every command keeps. -/
def Block.Inv (b : Block) : Prop := b.SettingsOk ∧ b.EnablesOk

/-- A brown-out latched once the pair has run: nothing but a cold reset clears it (R548, R549). -/
def Block.LatchedForGood (b : Block) : Prop := b.pair.latched = true ∧ b.pair.ranPhase = true ∧ b.pair.bringHold = false

/-! ### Where a command takes effect -/

/-- The state with the block `b` and the same commands waiting. -/
def State.withBlock (s : State) (b : Block) : State := { blk := b, pending := s.pending }

/-- The target port of half `h` takes accesses: its VDD_AON stands, the pair is not frozen, the half is not held in reset (R57, R58, R675). -/
def Block.Takes (b : Block) (h : HalfId) : Prop := b.alive h = true ∧ b.pair.frozen = false ∧ b.held h = false

/-- The block as an access through the target port of `h` finds it: the half awake, woken with the cause given where it slept (R57, R537), and the
OKAY response standing. -/
def Block.taken (b : Block) (h : HalfId) (cause : Nat) : Block := (b.wake h cause).respond h (Resp.value 0)

/-- A command of opcode `o` and number `seq` has left the range-lock table of half `h`, whose CLK_CORE runs and whose journal takes changes
(R116, R381, R407). -/
def Block.Left (b : Block) (h : HalfId) (seq : Nat) (o : Opcode) (c : Ctx) : Prop :=
  (b.half h).leftCtx seq o = some c ∧ b.coreRuns h = true ∧ b.journalOpen h = true

/-- The half whose target port a command goes through, with the cause with which it wakes that half (R57, R547). -/
def accessOf : Instr → Option (HalfId × Nat)
  | .frzCtlFreeze h false => some (h, causeRegister)
  | .frzCtlThaw h false _ => some (h, causeRegister)
  | .frzRoCtlWrite h false _ => some (h, causeRegister)
  | .frzRoDataRead h false _ => some (h, causeRegister)
  | .targetAccessOutside h => some (h, causeRegister)
  | .fetch h _ _ _ => some (h, causeFetch)
  | .registerWrite h offset value => some (h, causeOf offset value)
  | .doorbell h _ _ | .doorbellTakenOver h _ _ => some (h, causeDoorbell)
  | .queueDisable h _ _ _ | .queueRestart h _ _ | .adminQueueConfig h _ | .queSeqRead h => some (h, causeRegister)
  | .twnCtlYield h | .twnCtlSelftest h _ | .arbCommitGo h | .arbLfsrWrite h _ _ | .dmaStreamDrop h _ _ => some (h, causeRegister)
  | .memInitFill h _ | .memClr h _ _ => some (h, causeRegister)
  | .gutRdRead h _ | .gutCtlMark h _ | .gutCtlRewind h _ | .gutCtlRelease h _ | .gutCtlUnstall h _ => some (h, causeRegister)
  | .gutSprdWrite h _ _ => some (h, causeRegister)
  | .loopEnable h _ _ | .loopCommitGo h | .trcModeWrite h _ _ | .loopTrcSelWrite h _ => some (h, causeRegister)
  | .irqClaim h _ | .irqEoi h _ _ | .irqPendSet h _ _ | .irqPendClear h _ _ | .irqMaskSet h _ _ => some (h, causeRegister)
  | .irqMaskClear h _ _ | .irqCommitGo h | .rgnCommitGo h | .rgnLineFlush h => some (h, causeRegister)
  | .recIndexWrite h _ | .recAgeWrite h _ | .decRandSeedWrite h _ | .chnCtlRetrain h _ | .chnCtlQuick h _ => some (h, causeRegister)
  | .pwrCtlWake h => some (h, 8)
  | .warmReset h _ | .channelReset h _ _ _ | .format h _ | .poolMinClr h => some (h, causeRegister)
  | _ => none

/-- The half whose master port a command answers (R46, R58). -/
def responseOf : Instr → Option HalfId
  | .entryFetch h _ _ _ | .fetchError h _ _ _ _ | .replyAck h _ | .replyError h _ | .headerWriteAck h _ _ | .headerError h _ _ => some h
  | .fenceReadReturn h _ | .descriptorFetch h _ _ _ | .dmaReadReturn h _ _ _ _ | .dmaWriteResponse h _ _ => some h
  | .spillWriteAck h _ | .spillError h _ => some h
  | _ => none

/-- The commands that come through the debug access port (R615). -/
def onDebug : Instr → Bool
  | .frzCtlFreeze _ true | .frzCtlThaw _ true _ | .frzRoCtlWrite _ true _ | .frzRoDataRead _ true _ | .debugAccess _ _ => true
  | _ => false

end Sys2Proof.Machine
end

