-- ==== Sys2Proof/Certificates/Slice0/Obligations.lean ====
section
/-!
DEFINITION. The statements for the provers: the queue of commands, the invariants, what the port answers, the encodings, and for every
command of the table where it completes and with what effect.
-/

open Sys2Proof Sys2Proof.Machine

/-! ### The queue and the whole machine -/

/-- One step takes the command at the front of the queue and is that command's effect on the state with the queue's rest. The second clause is the
model's choice (log entry 2): with no command waiting a step changes nothing. -/
def Obligations.StepRunsFrontCommand : Prop :=
  (∀ (c : Instr) (rest : List Instr) (s : State), step { s with pending := c :: rest } = exec c { s with pending := rest }) ∧
  (∀ s : State, s.pending = [] → step s = .next s)

/-- No command changes the queue of waiting commands. -/
def Obligations.CommandsLeaveTheQueue : Prop := ∀ (c : Instr) (s t : State), exec c s = .next t → t.pending = s.pending

/-- Nothing stops a supplied pair: every command answers a next state; a command that is no access through a port does so without supply too. -/
def Obligations.PoweredPairNeverStops : Prop :=
  ∀ (c : Instr) (s : State), ((∀ h, s.blk.alive h = true) ∨ (accessOf c = none ∧ onDebug c = false)) → ∃ t, exec c s = .next t

/-- What becomes of an access that takes no effect at once: a half without VDD_AON answers nothing; a half held in reset answers with an error response, and nothing
else changes; while freeze is active the access waits at the target port, and so does a response to the master port there (R58, R675). -/
def Obligations.AccessesWithoutEffect : Prop :=
  (∀ (c : Instr) (h : HalfId) (cause : Nat) (s : State), accessOf c = some (h, cause) →
    (s.blk.alive h = false → exec c s = .fault .unpowered) ∧
    (s.blk.alive h = true → s.blk.held h = true →
      exec c s = .next (s.withBlock (s.blk.respond h { ok := false, data := 0, poison := false }))) ∧
    (s.blk.alive h = true → s.blk.held h = false → s.blk.pair.frozen = true →
      exec c s = .next (s.withBlock (s.blk.onPair (fun p => { p with held := p.held ++ [(h, true, c)] }))))) ∧
  (∀ (c : Instr) (h : HalfId) (s : State), responseOf c = some h → s.blk.pair.frozen = true →
    exec c s = .next (s.withBlock (s.blk.onPair (fun p => { p with held := p.held ++ [(h, false, c)] }))))

/-- The state right after reset, in both configurations: no command waits; no enable active, no freeze, no brown-out; every interrupt masked and every output
low (R71, R514); the fields of the general registers, the pool's banks, the gutters' limits, the queues, the journal and the arbiter's LFSRs as listed, at the reset values of the
register map; every record blank (the model's choice, log entry 8). -/
def Obligations.StateAfterReset : Prop :=
  ∀ (v : Variant) (h : HalfId),
    let b := (State.resetOf v).blk
    let x := b.half h
    (State.resetOf v).pending = [] ∧ b.variant = v ∧ b.pair.phase = .reset ∧ b.pair.frozen = false ∧ b.pair.latched = false ∧
    (∀ c, b.pair.enable.find? c = none) ∧
    (∀ n, (x.irq.src n).mask = true ∧ (x.irq.src n).targetSh = 1 ∧ (x.irq.src n).count = 0) ∧
    (∀ k, (x.irq.proc k).run = 0 ∧ (x.irq.proc k).out = false) ∧
    x.gen.readsMax = 8 ∧ x.gen.gapUs = 40 ∧ x.gen.holdMax = 32 ∧ x.gen.ersMark = 200 ∧ x.gen.ceiling = 128 ∧
    x.gen.wHost = 8 ∧ x.gen.wReclaim = 4 ∧ x.gen.wRecord = 8 ∧ x.gen.wMaint = 1 ∧
    x.gen.openMax = (match v with | .brx16T => 256 | .brx4T => 64) ∧
    x.pool.live = List.range (match v with | .brx16T => 16 | .brx4T => 4) ∧
    (∀ g, (x.gutter g).limit = 256 ∧ (x.gutter g).items = [] ∧ (x.gutter g).tmoUs = 50) ∧
    (∀ q, q ≠ 0 → x.que.queue? false q = none) ∧ (∀ seq, x.ctx? seq = none) ∧ x.que.locks = [] ∧
    (∀ i, x.rec? i = Rec.blank) ∧ x.fly.journal = [] ∧ x.arb.pool.lfsr = 0x4B1D27 ∧ x.arb.dec.lfsr = 0x2C90E3

/-- The state after reset meets the invariant. -/
def Obligations.ResetMeetsInvariant : Prop := ∀ v : Variant, (State.resetOf v).blk.Inv ∧ State.reset.blk.Inv

/-- Every step keeps the general settings inside the limits at which the registers store them, keeps at most one half's enable for each
channel, and leaves the configuration alone. -/
def Obligations.StepKeepsInvariant : Prop :=
  ∀ s t : State, s.blk.Inv → step s = .next t → t.blk.Inv ∧ t.blk.variant = s.blk.variant

/-- A brown-out latched once the pair has run stays latched, and the invariant stands, through every step but a cold reset or the loss of the pair's supply. -/
def Obligations.LatchedBrownoutIsFinal : Prop :=
  ∀ s t : State, s.blk.Inv → s.blk.LatchedForGood → s.pending.head? ≠ some .porstNLow → s.pending.head? ≠ some (.supplyLoss none) →
    step s = .next t → t.blk.Inv ∧ t.blk.LatchedForGood

/-! ### Encodings and definitions -/

/-- A block record spelled in its 16 bytes reads back as the record. -/
def Obligations.RecordBytesReadBack : Prop := ∀ r : Rec, recOfBytes r.bytes = r

/-- An address inside its fields' widths, spelled as a PADDR, reads back field by field, and a PADDR with bits 63 to 37 zero is the word of
the address read from it. -/
def Obligations.PaddrFieldsReadBack : Prop :=
  (∀ a : Addr, a.slot < 4 → a.page < 4096 → a.block < 4096 → a.plane < 8 → a.lun < 4 → a.target < 4 → a.channel < 16 →
    addrOf a.word = a) ∧
  (∀ p : Paddr, p.toNat < 2 ^ 37 → (addrOf p).word = p)

/-- The record index of unit `u` of die `d` on channel `c`; it is 18 bits wide, and its channel, die and unit are read back from it. -/
def Obligations.RecordIndexOfUnit : Prop :=
  ∀ c d u : Nat, c < 16 → d < 8 → u < 2048 →
    recIndex c d u = c * 16384 + d * 2048 + u ∧ recIndex c d u < 2 ^ 18 ∧
    recCh (recIndex c d u) = c ∧ recDie (recIndex c d u) = d ∧ recUnit (recIndex c d u) = u

/-- The seven codes of STATE, as the bits [2:0] of a record's first byte hold them; 0b111 is never stored. -/
def Obligations.StateCodesOfRecords : Prop :=
  (∀ r : Rec, fieldOf r.bytes 0 3 = (match r.state with
    | .free => 0b000 | .erasing => 0b001 | .erased => 0b010 | .opened => 0b011 | .full => 0b100 | .retired => 0b101 | .region => 0b110)) ∧
  (∀ r : Rec, fieldOf r.bytes 0 3 ≠ 0b111)

/-- A source is eligible for a processor exactly when it is pending, unmasked and not active, the processor's bit of TARGET is set, and its
PRIO exceeds the processor's running priority. -/
def Obligations.EligibleSources : Prop :=
  ∀ (i : Irq) (n k : Nat), i.eligible n (i.src n) k = true ↔
    (Src.pending n (i.src n) = true ∧ (i.src n).mask = false ∧ (i.src n).active = none ∧ (i.src n).target.getLsbD k = true ∧
      (i.proc k).run < (i.src n).prio)

/-- READ, READ_RAW, PATROL and BLANK_CHECK enter the range-lock table in the shared mode, every other opcode in the exclusive mode; two entries conflict
exactly when one of them is exclusive and their keys overlap. -/
def Obligations.RangeLockConflicts : Prop :=
  (∀ (seq : Nat) (e : Entry) (o : Opcode) (own : Bool),
    (lockOf seq e o own).excl = false ↔ (o = .read ∨ o = .readRaw ∨ o = .patrol ∨ o = .blankCheck)) ∧
  (∀ p q : Lock, p.conflicts q = true ↔
    ((p.excl = true ∨ q.excl = true) ∧ p.start < q.start + q.len ∧ q.start < p.start + p.len))


/-! ### Resets and bring-up -/

/-- PORST_n low, and a loss of the whole supply, put both halves at their reset values, but for the level of HRST and the answer at the port, clear the
enables, the freeze, the brown-out latch and what waited at the ports, park every channel with WP_n low, and keep the configuration; the levels of the input pins stand (the model's choice, log
entry 30). A half that loses its VDD_AON alone holds no enable afterwards and nothing of its registers, queues and records, and answers nothing (R62, R620, R673, R675). -/
def Obligations.ColdResetsClearThePair : Prop :=
  (∀ (s : State) (on : Bool),
    exec (if on then .porstNLow else .supplyLoss none) s = .next (s.withBlock (s.blk.cold on)) ∧
    let c := s.blk.cold on
    c.variant = s.blk.variant ∧ c.pair.powered = on ∧ c.pair.phase = .reset ∧ c.pair.frozen = false ∧ c.pair.latched = false ∧ c.pair.enable = [] ∧
    c.pair.held = [] ∧ c.pair.brownout = s.blk.pair.brownout ∧ c.pair.budgetIn = s.blk.pair.budgetIn ∧ c.pair.updateEn = s.blk.pair.updateEn ∧
    (∀ ch, (c.pair.pad ch).wp = false ∧ (c.pair.pad ch).source = none) ∧
    (∀ h, c.half h = { Half.reset s.blk.variant with
      boot := { Boot.reset with hrst := (s.blk.half h).boot.hrst }, port := s.blk.portEnded h })) ∧
  (∀ (h : HalfId) (s : State), s.blk.pair.frozen = false → s.blk.EnablesOk →
    ∃ t, exec (.supplyLoss (some h)) s = .next t ∧ t.pending = s.pending ∧ t.blk.alive h = false ∧ (∀ c, t.blk.enabled h c = false) ∧
      (t.blk.half h).que = QueMgr.reset ∧ (t.blk.half h).store.recs = [] ∧ (t.blk.half h).gen = GenCfg.reset s.blk.variant)

/-- HRST low resets the half and holds it: its registers, queues, holds, gutters, interrupts, loops, stripes, records, journal and code
window are at their reset values, its latched straps stand, and the other half keeps its queues and records. As HRST rises the pin's level is taken and bring-up goes on from there
(the operation resumeBring). A loss of CLK_CORE's lock resets a half whose CLK_CORE ran, and holds it (R620, R621, R647, R675). -/
def Obligations.HalfResetClearsTheHalf : Prop :=
  ∀ (h : HalfId) (s : State),
    (s.blk.alive h = true → s.blk.pair.phase ≠ .reset → ∃ t, exec (.halfReset h true) s = .next t ∧ t.pending = s.pending ∧ t.blk.held h = true ∧
      let x := t.blk.half h
      let r := Half.reset s.blk.variant
      x.gen = r.gen ∧ x.que = r.que ∧ x.pool = r.pool ∧ x.gut = r.gut ∧ x.irq = r.irq ∧ x.loops = r.loops ∧ x.par = r.par ∧
      x.store.recs = [] ∧ x.fly = r.fly ∧ x.win = r.win ∧ x.arb = r.arb ∧ x.dec = r.dec ∧ x.mems = r.mems ∧
      x.boot.strap = (s.blk.half h).boot.strap ∧ x.boot.latched = (s.blk.half h).boot.latched ∧
      (t.blk.half h.twin).que = (s.blk.half h.twin).que ∧ (t.blk.half h.twin).store = (s.blk.half h.twin).store) ∧
    (s.blk.alive h = true → s.blk.pair.phase ≠ .reset → exec (.halfReset h false) s = .next (s.withBlock
      ((s.blk.onHalf h (fun x => { x with boot := { x.boot with hrst := false } })).resumeBring h))) ∧
    ((s.blk.half h).boot.coreLock = true → (s.blk.half h).pwr.state ≤ 2 →
      ∃ t, exec (.pllLockLoss h) s = .next t ∧ t.pending = s.pending ∧
        (t.blk.half h).boot.coreLock = false ∧ (t.blk.half h).boot.heldReset = true ∧
        (t.blk.half h).que = QueMgr.reset ∧ (t.blk.half h).gen = GenCfg.reset s.blk.variant)

/-- The peg phase: it starts at the end of the reset of a powered pair; each of its first three cycles samples the strap lines of a supplied half; its end
latches bit by bit the majority of the three samples, as the configuration reads them, and the bits whose samples were not unanimous, and
parks the pins (R82, R88, R93). -/
def Obligations.PegPhaseLatchesStraps : Prop :=
  (∀ s : State, s.blk.pair.powered = true → s.blk.pair.phase = .reset →
    exec .pegPhaseStart s = .next (s.withBlock (s.blk.onPair (fun p => { p with phase := .peg })))) ∧
  (∀ (h : HalfId) (lines : BitVec 16) (s : State), s.blk.pair.phase ≠ .reset → s.blk.alive h = true → (s.blk.half h).boot.latched = false →
    (s.blk.half h).boot.samples.length < 3 →
    exec (.pegCycleEnd h lines) s = .next (s.withBlock (s.blk.onHalf h (fun x =>
      { x with boot := { x.boot with samples := x.boot.samples ++ [lines] } })))) ∧
  (∀ (h : HalfId) (link : Bool) (s : State) (p q r : BitVec 16), (s.blk.half h).boot.samples = [p, q, r] → (s.blk.half h).boot.latched = false →
    ∃ t, exec (.pegPhaseEnd h link) s = .next t ∧ t.pending = s.pending ∧ t.blk.pair.phase = .parked ∧
      (t.blk.half h).boot.latched = true ∧
      (∀ k, (t.blk.half h).boot.strap.getLsbD k =
        (((p.getLsbD k && q.getLsbD k) || (p.getLsbD k && r.getLsbD k) || (q.getLsbD k && r.getLsbD k)) &&
          (strapMask s.blk.variant).getLsbD k)) ∧
      (∀ k, (t.blk.half h).boot.split.getLsbD k = !((p.getLsbD k == q.getLsbD k) && (q.getLsbD k == r.getLsbD k))))

/-- The clocks of bring-up, at a supplied half with its straps latched and no fault of the whole half. A lock of CLK_DEC or of a channel's CLK_PHY shows its PLL available. A lock of
CLK_CORE ends a hold in reset by a lost lock, unless a brown-out latched for good holds it, takes BUDGET afresh outside a freeze, and there brings a half whose HRST is high and whose
groundsheet fill is to come to stage 1, the fill step. A start that times out a first time is remembered and raises source 115; a second time it drops every enable of the half
and marks the whole half failed (R73, R530, R620, R626). -/
def Obligations.ClocksAndFill : Prop :=
  (∀ (h : HalfId) (s : State), (s.blk.half h).boot.latched = true → s.blk.alive h = true → (s.blk.half h).boot.failed = false →
    exec (.pllLock h .dec) s = .next (s.withBlock (s.blk.onHalf h (fun x => { x with boot := { x.boot with decLock := true } }))) ∧
    (∀ c, (s.blk.half h).boot.phyLock.contains c = false →
      exec (.pllLock h (.phy c)) s = .next (s.withBlock (s.blk.onHalf h (fun x =>
        { x with boot := { x.boot with phyLock := x.boot.phyLock ++ [c] } })))) ∧
    ((s.blk.half h).boot.coreLock = false → ((s.blk.half h).boot.heldReset = false ∨ s.blk.pair.latched = false ∨ s.blk.earlyLatch = true) →
      ∃ t, exec (.pllLock h .core) s = .next t ∧ t.pending = s.pending ∧ (t.blk.half h).boot.coreLock = true ∧
        (t.blk.half h).boot.heldReset = false ∧
        (s.blk.pair.frozen = false → t.blk.pair.budget = s.blk.pair.budgetIn) ∧
        (s.blk.pair.frozen = false → (s.blk.half h).boot.hrst = false → (s.blk.half h).boot.stage ≤ 1 →
          groundsheet (s.blk.half h).boot.strap = true → (s.blk.half h).boot.filled = false → (t.blk.half h).boot.stage = 1)) ∧
    (∀ p : Pll, s.blk.pair.frozen = false → Tab.get 0 (s.blk.half h).boot.pllTries (pllKey p) = 0 →
      exec (.pllLockTimeout h p) s = .next (s.withBlock ((s.blk.onHalf h (fun x =>
        { x with boot := { x.boot with pllTries := Tab.set 0 x.boot.pllTries (pllKey p) 1 } })).raise h 115))) ∧
    (∀ p : Pll, s.blk.pair.frozen = false → Tab.get 0 (s.blk.half h).boot.pllTries (pllKey p) ≠ 0 →
      exec (.pllLockTimeout h p) s = .next (s.withBlock ((s.blk.dropAll h).onHalf h (fun x =>
        { x with boot := { x.boot with failed := true } }))))) ∧
  (∀ (h : HalfId) (s : State), groundsheet (s.blk.half h).boot.strap = true → (s.blk.half h).boot.filled = false →
    s.blk.coreRuns h = true → ((s.blk.half h).boot.stage = 1 ∨ (s.blk.half h).boot.stage = 5) →
    exec (.groundsheetFill h) s = .next (s.withBlock ((s.blk.onHalf h (fun x =>
      { x.fillAll with boot := { x.boot with filled := true } })).goDiscover h))) ∧
  (∀ (x : Half) (m : Nat), m < 5 → (x.fillAll.mem m).allWritten = true ∧ (x.fillAll.mem m).poisoned = [])

/-- The input pins. BROWNOUT falling is only taken where no bring-up is held for it; UPDATE_EN is taken at each edge, and by each half whose CLK_CORE runs, a fall stopping the
updates of such a half; an edge of BUDGET_TGL captures BUDGET and gives both loop engines an edge, or under freeze only stands at the pins (R73, R139, R498, R548).
A half that has its straps, without a strap fault, and no answer of its twin takes the twin's channels too, as populated, notes the twin absent, and goes on to
discovery where it may (R91, R92); an early brown-out is discarded where BROWNOUT is low, and holds bring-up where it is high (R549). -/
def Obligations.InputPins : Prop :=
  (∀ s : State, s.blk.pair.bringHold = false →
    exec .brownoutFall s = .next (s.withBlock (s.blk.onPair (fun p => { p with brownout := false })))) ∧
  (∀ (s : State) (on : Bool), let c : Instr := if on then .updateEnRise else .updateEnFall
    let b := s.blk.onPair (fun p => { p with updateEn := on })
    exec c s = .next (s.withBlock ((b.syncUpdate .a).syncUpdate .b))) ∧
  (∀ (b : Block) (h : HalfId), (b.coreRuns h = false → b.syncUpdate h = b) ∧
    (b.coreRuns h = true → ((b.half h).win.updateEn = false ∨ b.pair.updateEn = true) →
      b.syncUpdate h = b.onHalf h (fun x => { x with win := { x.win with updateEn := b.pair.updateEn } })) ∧
    (b.coreRuns h = true → (b.half h).win.updateEn = true → b.pair.updateEn = false →
      b.syncUpdate h = (b.onHalf h (fun x => { x with win := { x.win with updateEn := false } })).stopUpdates h)) ∧
  (∀ (value : Nat) (s : State), s.blk.pair.frozen = false →
    exec (.budgetTgl value) s = .next (s.withBlock
      (((s.blk.onPair (fun p => { p with budgetIn := value % 256, budgetTgl := !p.budgetTgl, budget := value % 256 })).onHalf .a
        Half.countEdge).onHalf .b Half.countEdge))) ∧
  (∀ (value : Nat) (s : State), s.blk.pair.frozen = true →
    exec (.budgetTgl value) s = .next (s.withBlock
      (s.blk.onPair (fun p => { p with budgetIn := value % 256, budgetTgl := !p.budgetTgl })))) ∧
  (∀ (h : HalfId) (s : State), (s.blk.half h).boot.latched = true → (s.blk.half h).boot.strapErr = false → (s.blk.half h).boot.answered = false →
    (s.blk.half h).boot.twinAbsent = false → (s.blk.half h).boot.startedDetached = false → s.blk.pair.frozen = false →
    exec (.twinAnswerTimeout h) s = .next (s.withBlock ((s.blk.onHalf h (fun x => { x with
      twn := { x.twn with drives := populated s.blk.variant h x.boot.strap ++ Config.homeChannels s.blk.variant h.twin }
      boot := { x.boot with twinAbsent := true } })).goDiscover h))) ∧
  (∀ s : State, s.blk.pair.latched = true → s.blk.pair.ranPhase = false → s.blk.ha.fillDone = true ∨ s.blk.hb.fillDone = true →
    (s.blk.pair.brownout = true →
      exec .earlyBrownoutDiscard s = .next (s.withBlock (s.blk.onPair (fun p => { p with bringHold := true })))) ∧
    (s.blk.pair.brownout = false → ∃ t, exec .earlyBrownoutDiscard s = .next t ∧ t.pending = s.pending ∧ t.blk.pair.latched = false))

/-- The stages of bring-up at a half whose CLK_CORE runs. Discovery, at stage 2, takes in the dies found, in their order, on channels whose enable the half holds and within what the straps
allow. The newest sealed checkpoint of the half gives the region descriptors and a drive seed to compare, and stage 3; without one the half is blank and takes the records of its factory
marks. Microcode load answers stage 4 or the halt, 15. Record restore of a blank half has nothing to restore; of another it is the operation restoreFirst. Admin ready is stage 7, with T_READY
(R145, R627-R629, R634). The mirrors of two halves at the sync step become current, and both are in state attached (R580, R633). -/
def Obligations.BringupStages : Prop :=
  (∀ (h : HalfId) (s : State), s.blk.coreRuns h = true →
      (∀ finds table, (s.blk.half h).boot.stage = 2 →
        exec (.dieDiscovery h finds table) s = .next (s.withBlock
          ((finds.filter (fun f => s.blk.enabled h f.ch && decide (f.die < strapDies (s.blk.half h).boot.strap))).foldl
            (fun a f => a.takeFind h table f) (s.blk.onHalf h (fun x => x.onDriven (fun k => { k with cycles := [] })))))) ∧
      (∀ copies marks c, (s.blk.half h).boot.stage = 2 → newestSealed (copies.filter (fun c => decide (c.half = h))) = some c →
        exec (.checkpointSearch h copies marks) s = .next (s.withBlock
          (((s.blk.showMarks h marks).onHalf h (fun x => { x with boot := { x.boot with stage := 3 }, win := { x.win with desc := c.regions } })).onPair
            (fun p => p.takeSeed (c.seed, c.nextSeq.toNat))))) ∧
      (∀ copies marks, (s.blk.half h).boot.stage = 2 → newestSealed (copies.filter (fun c => decide (c.half = h))) = none →
        ∃ t, exec (.checkpointSearch h copies marks) s = .next t ∧ t.pending = s.pending ∧ (t.blk.half h).boot.stage = 3 ∧
          (t.blk.half h).boot.blank = true ∧
          (t.blk.half h).store.recs = marks.foldl (fun m e => applyMark (((s.blk.showMarks h marks).half h).familyProfile e.ch e.die) [] m e)
            (s.blk.half h).store.recs) ∧
      (∀ good badEng badHard badSoft table, (s.blk.half h).boot.stage = 3 → (s.blk.half h).twn.st ≠ .standby →
        ∃ t, exec (.microcodeLoad h good badEng badHard badSoft table) s = .next t ∧ t.pending = s.pending ∧
          ((t.blk.half h).boot.stage = 4 ∨ (t.blk.half h).boot.stage = 15)) ∧
      (∀ slots leaves samples marks flash, s.blk.pair.latched = false → (s.blk.half h).boot.stage = 4 → (s.blk.half h).boot.blank = true →
        exec (.recordRestore h slots leaves samples marks flash) s = .next (s.withBlock (s.blk.onHalf h (fun x =>
          { x with boot := { x.boot with stage := 6 }, store := { x.store with written := true } })))) ∧
      (∀ slots leaves samples marks flash, s.blk.pair.latched = false → (s.blk.half h).boot.stage = 4 → (s.blk.half h).boot.blank = false →
        exec (.recordRestore h slots leaves samples marks flash) s = .next (s.withBlock
          (s.blk.restoreFirst h slots (flyRecords leaves) samples marks flash))) ∧
      (∀ us, (s.blk.half h).boot.stage = 6 → (s.blk.half h).twn.st = .attached → (s.blk.half h).fly.phase ≠ 4 →
        ∃ t, exec (.adminReady h us) s = .next t ∧ t.pending = s.pending ∧ (t.blk.half h).boot.stage = 7 ∧
          (t.blk.half h).boot.tReady = Nat.min us 65535 ∧ t.blk.half h.twin = s.blk.half h.twin)) ∧
  (∀ s : State, s.blk.ha.boot.stage = 6 → s.blk.hb.boot.stage = 6 → s.blk.pair.frozen = false → s.blk.ha.boot.coreLock = true →
      s.blk.hb.boot.coreLock = true →
      exec .mirrorSync s = .next (s.withBlock ((s.blk.attachBoth.serveUnbound .a).serveUnbound .b)) ∧
      s.blk.attachBoth.ha.twn.st = .attached ∧ s.blk.attachBoth.hb.twn.st = .attached)

/-! ### Power loss -/

/-- A brown-out is latched once, with HOLDUP_MS of its rising edge. Before the first run phase of an unfrozen pair nothing more happens (R73, R79); after it both halves
are browned out: each that is not in PS4 and whose flysheet controller does not replay goes to phase 1, its checkpoint given up (R550). One that comes during a freeze ends the freeze (R78). A
commit at a half whose LUNs are all ready assembles the record and seals each copy that copySealed lets be sealed with its page failures; with both sealed the phase is 3, otherwise 2 (R562, R563). -/
def Obligations.BrownoutIsLatched : Prop :=
  (∀ (holdup : Nat) (s : State), s.blk.pair.latched = false → s.blk.pair.phase ≠ .reset → s.blk.pair.brownout = false → s.blk.pair.held = [] →
    (s.blk.pair.ranPhase = false → s.blk.pair.frozen = false →
      exec (.brownout holdup) s = .next (s.withBlock (s.blk.onPair (fun p =>
        { p with brownout := true, latched := true, holdupMs := holdup % 256 })))) ∧
    (s.blk.pair.ranPhase = true → s.blk.pair.frozen = false →
      exec (.brownout holdup) s = .next (s.withBlock ((s.blk.onPair (fun p =>
        { p with brownout := true, latched := true, holdupMs := holdup % 256 })).brownAll (holdup % 256)).release)) ∧
    (s.blk.pair.ranPhase = false → s.blk.pair.frozen = true → ∃ t, exec (.brownout holdup) s = .next t ∧ t.pending = s.pending ∧
      t.blk.pair.frozen = false ∧ t.blk.pair.latched = true ∧ t.blk.pair.boThaw = true ∧ t.blk.pair.holdupMs = holdup % 256)) ∧
  (∀ (b : Block) (holdup : Nat) (h : HalfId), (b.half h).pwr.state ≠ 4 → (b.half h).fly.phase ≠ 4 →
    ((b.brownAll holdup).half h).fly.phase = 1 ∧ ((b.brownAll holdup).half h).fly.ckptFrom = none) ∧
  (∀ (h : HalfId) (tHdr tSeal : BitVec 32) (fails0 fails1 : Nat) (s : State), s.blk.pair.latched = true → (s.blk.half h).fly.phase = 1 →
    s.blk.coreRuns h = true → (s.blk.half h).lunsReady = true →
    ∃ t, exec (.flysheetCommit h tHdr tSeal fails0 fails1) s = .next t ∧ t.pending = s.pending ∧
      let s0 := (s.blk.half h).copySealed 0 fails0
      let s1 := (s.blk.half h).copySealed 1 fails1
      (t.blk.half h).fly.record = s.blk.flyRecord h tHdr tSeal ∧ (t.blk.half h).fly.phase = (if s0 && s1 then 3 else 2) ∧
      (t.blk.half h).fly.sealed = BitVec.ofNat 2 (bitOf s0 + 2 * bitOf s1) ∧
      (t.blk.half h).fly.journal = (s.blk.half h).fly.journal ∧ (t.blk.half h).store = (s.blk.half h).store)

/-- A checkpoint that is due starts at the journal's length of that moment, with the contents ckptNow gives; its sealing puts it into its slot as sealed, takes the entries before it out of the journal, but
for those of groups still open, which it marks as old, and advances CKPT_SEQ (R555, R556). -/
def Obligations.CheckpointsTrimTheJournal : Prop :=
  (∀ (h : HalfId) (s : State), s.blk.coreRuns h = true → s.blk.pair.latched = false → (s.blk.half h).twn.st ≠ .yielding →
    (s.blk.half h).ready = true → (s.blk.half h).boot.recovering = false → (s.blk.half h).fly.ckptFrom = none →
    (s.blk.half h).ckptDue = true → (s.blk.half h).boot.blank = false →
    exec (.checkpointStart h) s = .next (s.withBlock (s.blk.onHalf h (fun x => { x with fly := { x.fly with
      ckptFrom := some x.fly.journal.length, ckptNew := some (s.blk.ckptNow h false), copies := 0, clean := false, phase := 5, jrnlBad := false } })))) ∧
  (∀ (h : HalfId) (j0 : Nat) (c : Ckpt) (s : State), s.blk.coreRuns h = true → s.blk.pair.latched = false →
    (s.blk.half h).fly.ckptFrom = some j0 → (s.blk.half h).fly.ckptNew = some c → (s.blk.half h).pwr.entering = false →
    (s.blk.half h).twn.st ≠ .yielding → (s.blk.half h).fly.waiting = [] →
    ∃ t, exec (.checkpointSealed h []) s = .next t ∧ t.pending = s.pending ∧
      (t.blk.half h).fly.ckptSeq = (s.blk.half h).fly.ckptSeq + 1 ∧ (t.blk.half h).fly.ckptFrom = none ∧
      (t.blk.half h).fly.ckptSlots.find? c.slot = some { c with sealed := 2 } ∧
      (t.blk.half h).fly.journal =
        (((s.blk.half h).fly.journal.take j0).filter s.blk.pair.carries).map (fun e => { e with old := true, count := 1 }) ++
          (s.blk.half h).fly.journal.drop j0 ∧
      (t.blk.half h).store = (s.blk.half h).store ∧ (t.blk.half h).que.ctxs = (s.blk.half h).que.ctxs)

/-! ### Freeze -/

/-- A freeze begins at a rising edge of FRZ_REQ, at a write of FRZ_CTL.FREEZE through a register window, which answers before the stop, and
at such a write through the debug access port; it covers both halves. An edge during reset or the peg phase waits for the peg phase's end. -/
def Obligations.FreezeBegins : Prop :=
  ∀ s : State, s.blk.pair.frozen = false → s.blk.pair.latched = false →
    (s.blk.pair.phase = .parked → ∃ t, exec .frzReq s = .next t ∧ t.pending = s.pending ∧ t.blk.pair.frozen = true ∧
      t.blk.pair.frzCause = 1 ∧ (∀ h, t.blk.coreRuns h = false)) ∧
    (s.blk.pair.phase ≠ .parked → exec .frzReq s = .next (s.withBlock (s.blk.onPair (fun p => { p with frzPend := true })))) ∧
    (∀ h, s.blk.Takes h → ∃ t, exec (.frzCtlFreeze h false) s = .next t ∧ t.pending = s.pending ∧ t.blk.pair.frozen = true ∧
      t.blk.pair.frzCause = 2 ∧ (t.blk.half h).port = { ok := true, data := 0, poison := false } ∧ (∀ k, t.blk.coreRuns k = false)) ∧
    (∀ h, s.blk.alive h = true → ∃ t, exec (.frzCtlFreeze h true) s = .next t ∧ t.pending = s.pending ∧ t.blk.pair.frozen = true ∧
      t.blk.pair.frzCause = 3 ∧ (∀ k, t.blk.coreRuns k = false))

/-- During a freeze a FRZ_REQ edge changes nothing, a FREEZE write through the debug port nothing but that port's answer, and one through a target port waits there and, once it is taken, does no
more than any access: it finds its half awake and is answered. While a brown-out is latched a FREEZE write through the debug access port does no more than any access of that port: it wakes a sleeping
half and is answered. -/
def Obligations.FreezeIsNotTakenTwice : Prop :=
  ∀ s : State, (∀ h, s.blk.alive h = true) →
    (s.blk.pair.frozen = true →
      exec .frzReq s = .next s ∧
      (∀ h, s.blk.held h = false →
        exec (.frzCtlFreeze h false) s = .next (s.withBlock (s.blk.onPair (fun p => { p with held := p.held ++ [(h, true, .frzCtlFreeze h false)] })))) ∧
      (∀ h, exec (.frzCtlFreeze h true) s = .next (s.withBlock (s.blk.onPair (fun p => { p with dbg := { ok := true, data := 0, poison := false } }))))) ∧
    (∀ h, s.blk.Takes h → s.blk.perform (.frzCtlFreeze h false) = s.blk.taken h causeRegister) ∧
    (s.blk.pair.latched = true → s.blk.pair.frozen = false → ∀ h, exec (.frzCtlFreeze h true) s = .next (s.withBlock
      ((s.blk.wake h causeRegister).onPair (fun p => { p with dbg := { ok := true, data := 0, poison := false } }))))

/-- FRZ_CTL.THAW acts only through the debug access port: it is the operation thaw, after which what waited at the ports takes place. A thaw ends the freeze, records its length in AON cycles, saturating, and takes
BUDGET as it stands; a sleeping half past its fill step that latched an event of an unmasked source wakes; a THAW write through a register window of an unfrozen pair changes
nothing but the port's answer (R511, R545, R617, R618, R619). -/
def Obligations.ThawThroughTheDebugPort : Prop :=
  (∀ (h : HalfId) (ticks : Nat) (s : State), s.blk.alive h = true → s.blk.pair.frozen = true →
    exec (.frzCtlThaw h true ticks) s = .next (s.withBlock (((s.blk.dbgRespond { ok := true, data := 0, poison := false }).thaw ticks).release))) ∧
  (∀ (b : Block) (ticks : Nat), b.pair.frozen = true →
    let t := b.thaw ticks
    t.pair.frozen = false ∧ t.pair.frzTicks = Nat.min ticks (2 ^ 32 - 1) ∧ t.pair.budget = b.pair.budgetIn ∧
      (∀ k n, 2 ≤ (b.half k).pwr.state → 2 ≤ (b.half k).boot.stage → n ∈ (b.half k).irq.latched → srcExists b.variant n = true →
        ((b.half k).irq.src n).mask = false → (t.half k).pwr.state = 0)) ∧
  (∀ b : Block, b.pair.frozen = false → b.pair.held = [] → b.release = b) ∧
  (∀ (h : HalfId) (ticks : Nat) (s : State), s.blk.Takes h →
    exec (.frzCtlThaw h false ticks) s = .next (s.withBlock (s.blk.taken h causeRegister)))

/-- Read-out. A frame of the freeze port is the header word, the words of the segment in turn, and their CRC word, and the port goes on to the next segment of FRZ_RO_MASK; the header has the segment's number
in bits [7:0], the half in bit 8 and the segment's size in words in bits [31:9] (R612, R613); the words of segments whose layout the spec leaves open are the operand's (the model's choice, log entry 16). FRZ_RO_CTL and
FRZ_RO_DATA act through either port; while SRC is 0 FRZ_RO_DATA reads zero (R614-R616). -/
def Obligations.ReadOutOfAFrozenPair : Prop :=
  (∀ (h : HalfId) (image : List Word) (s : State), s.blk.pair.frozen = true → s.blk.alive h = true → (s.blk.half h).ro.src = false →
    let l := s.blk.frame h (s.blk.half h).ro.seg (fun n => image.getD n 0)
    exec (.freezePortFrame h image) s = .next (s.withBlock (s.blk.onHalf h (fun x => { x with ro := { x.ro with
      word := l.getLastD 0, frame := l, seg := nextSegment x.ro.mask x.ro.seg, pos := 0 } }))) ∧
    l.head? = some (frameHeader s.blk.variant h (s.blk.half h).ro.seg) ∧ l.length = segWords s.blk.variant (s.blk.half h).ro.seg + 2) ∧
  (∀ (v : Variant) (h : HalfId) (n : Nat), n < 18 → fieldOf (frameHeader v h n) 0 8 = n ∧
    fieldOf (frameHeader v h n) 8 1 = (match h with | .a => 0 | .b => 1) ∧ fieldOf (frameHeader v h n) 9 23 = segWords v n) ∧
  (∀ (h : HalfId) (value : Word) (s : State), s.blk.alive h = true → s.blk.pair.frozen = true →
    exec (.frzRoCtlWrite h true value) s = .next (s.withBlock
      ((s.blk.onPair (fun p => { p with dbg := { ok := true, data := 0, poison := false } })).onHalf h (fun x => x.writeRoCtl value)))) ∧
  (∀ (h : HalfId) (value : Word) (s : State), s.blk.Takes h →
    exec (.frzRoCtlWrite h false value) s = .next (s.withBlock ((s.blk.taken h causeRegister).onHalf h (fun x => x.writeRoCtl value)))) ∧
  (∀ (h : HalfId) (image : Word) (s : State), s.blk.alive h = true → s.blk.pair.frozen = true →
    let b := s.blk.onPair (fun p => { p with dbg := { ok := true, data := 0, poison := false } })
    exec (.frzRoDataRead h true image) s = .next (s.withBlock ((b.roData h image).1.onPair (fun p =>
      { p with dbg := { ok := true, data := (b.roData h image).2.toNat, poison := false } })))) ∧
  (∀ (h : HalfId) (image : Word) (s : State), s.blk.Takes h →
    let b := s.blk.taken h causeRegister
    exec (.frzRoDataRead h false image) s = .next (s.withBlock ((b.roData h image).1.respond h
      { ok := true, data := (b.roData h image).2.toNat, poison := false }))) ∧
  (∀ (b : Block) (h : HalfId) (image : Word), (b.half h).ro.src = false → b.roData h image = (b, 0))

/-! ### The register window and the code window -/

/-- A register write through a port that takes accesses finds the half awake and the OKAY answer standing, and is the write of the one register (writeReg); SCRATCH keeps what is written. A debug
access outside FRZ while a freeze is active or the half is held in reset is answered with zero and changes nothing else (for the half in reset the model's choice, log entry 13); another wakes the half and
writes the register, but for FRZ_CTL of a frozen pair, or gives what debugRead reads (R54, R615, R640, R643). -/
def Obligations.RegisterAccess : Prop :=
  (∀ (h : HalfId) (offset : Nat) (value : Word) (s : State), s.blk.Takes h →
    exec (.registerWrite h offset value) s = .next (s.withBlock ((s.blk.taken h (causeOf offset value)).writeReg h offset value false))) ∧
  (∀ (h : HalfId) (value : Word) (s : State), s.blk.Takes h →
    exec (.registerWrite h 0x14 value) s = .next (s.withBlock ((s.blk.taken h causeRegister).onHalf h (fun x =>
      { x with gen := { x.gen with scratch := value } })))) ∧
  (∀ (addr : Nat) (write : Option Word) (s : State),
    let h := (debugPlace addr).1
    let o := (debugPlace addr).2
    s.blk.alive h = true →
    ((s.blk.pair.frozen = true ∨ s.blk.held h = true) → inFrz o = false →
      exec (.debugAccess addr write) s = .next (s.withBlock (s.blk.dbgRespond (Resp.value 0)))) ∧
    ((s.blk.pair.frozen = false ∧ s.blk.held h = false) ∨ inFrz o = true →
      (∀ w, write = some w → (s.blk.pair.frozen = false ∨ o ≠ 0x90000) → exec (.debugAccess addr write) s = .next (s.withBlock
        (((s.blk.wake h (causeOf o w)).writeReg h o w true).dbgRespond (Resp.value 0)))) ∧
      (write = none → exec (.debugAccess addr write) s = .next (s.withBlock
        (((s.blk.wake h causeRegister).debugRead h o).1.dbgRespond ((s.blk.wake h causeRegister).debugRead h o).2)))))

/-- The code window. An access outside every window is answered with an error. A fetch that is no burst of the window, or has a beat in no mapped region, is answered with an error; one whose lines are all
held makes them the most recently used, counts a hit and is answered from them; another stalls and asks for its lines' fills, or is answered with an error once a brown-out is latched (prefetch apart). A
fill whose read of copy 0 gave its codeword puts its line first in the buffer of 32 (R52, R55, R128, R131, R222). At a line boundary RGN_COMMIT.GO puts the shadow in force, and drops the lines of the
regions whose mapping changed, unless R130 refuses it, and a refused shadow returns to the mapping in force with the cause; a flush empties the line buffer; away from a boundary both wait (R129, R130, R131). -/
def Obligations.CodeWindow : Prop :=
  (∀ (h : HalfId) (s : State), s.blk.Takes h →
    exec (.targetAccessOutside h) s = .next (s.withBlock ((s.blk.taken h causeRegister).respond h Resp.error))) ∧
  (∀ (h : HalfId) (offset beats : Nat) (attr : Bool) (s : State), s.blk.Takes h →
    let b := s.blk.taken h causeFetch
    let w := (b.half h).win
    ((burstOk offset beats attr = false ∨ w.burstLines offset beats = none) →
      exec (.fetch h offset beats attr) s = .next (s.withBlock (b.respond h Resp.error))) ∧
    (∀ l, burstOk offset beats attr = true → w.burstLines offset beats = some l →
      (w.holds l = true → w.prefetch = false → exec (.fetch h offset beats attr) s = .next (s.withBlock ((b.onHalf h (fun x =>
        { x with win := x.win.served l })).respond h (w.answer offset beats)))) ∧
      (w.holds l = false → b.pair.latched = true → exec (.fetch h offset beats attr) s = .next (s.withBlock (b.respond h Resp.error))) ∧
      (w.holds l = false → w.prefetch = false → b.pair.latched = false →
        exec (.fetch h offset beats attr) s = .next (s.withBlock (l.foldl (fun z e => z.askFill h e.1 e.2) (b.onHalf h (fun x =>
          { x with win := { x.win with stalled := x.win.stalled ++ [(offset, beats)] } }))))))) ∧
  (∀ (h : HalfId) (r n : Nat) (k : Cw) (s : State), s.blk.coreRuns h = true → (s.blk.half h).win.fills.find? (s.blk.fillDue h) = some (r, n) →
    s.blk.fillRead h r n false = some k → k.unc = false →
    exec (.lineFill h) s = .next (s.withBlock (s.blk.onHalf h (fun x =>
      x.fillLine h { region := r, line := n, data := k.data.user, poison := false })))) ∧
  (∀ (x : Half) (h : HalfId) (l : FLine), x.win.pend = none → x.win.flushDue = false → (x.fillLine h l).win.lines = (l :: x.win.lines).take 32) ∧
  (∀ (h : HalfId) (s : State), s.blk.Takes h →
      let b := s.blk.taken h causeRegister
      let w := (b.half h).win
      (w.fills = [] → w.stalled = [] → w.flushDue = false → w.mapFault w.shadow = none →
        exec (.rgnCommitGo h) s = .next (s.withBlock (b.onHalf h (fun x => { x with win := { w with
          pend := none, map := w.shadow, refused := false
          lines := w.lines.filter (fun l => decide (Tab.get WinMap.off w.map l.region = Tab.get WinMap.off w.shadow l.region)) } })))) ∧
      (∀ c, w.fills = [] → w.stalled = [] → w.flushDue = false → w.mapFault w.shadow = some c →
        exec (.rgnCommitGo h) s = .next (s.withBlock (b.onHalf h (fun x => { x with win := { w with
          pend := none, shadow := w.map, refused := true, cause := c } })))) ∧
      (w.fills = [] → w.stalled = [] → w.pend = none →
        exec (.rgnLineFlush h) s = .next (s.withBlock (b.onHalf h (fun x => { x with win := { w with lines := [], flushDue := false } })))) ∧
      ((w.fills ≠ [] ∨ w.stalled ≠ []) →
        exec (.rgnCommitGo h) s = .next (s.withBlock (b.onHalf h (fun x => { x with win := { w with pend := some w.shadow } }))) ∧
        exec (.rgnLineFlush h) s = .next (s.withBlock (b.onHalf h (fun x => { x with win := { w with flushDue := true } })))))

/-! ### Queues -/

/-- A doorbell, to an own queue or an adopted one: stray where the half takes no doorbells, the queue does not exist, has no ring or is not live; it stops
the queue with cause 6 for a tail past the ring, 7 for more than the free slots, changes no field of the queue where it claims nothing new, and otherwise sets T, and sends the tail to an
attached twin (R306, R307, R323-R326, R348). -/
def Obligations.DoorbellsMoveTheTail : Prop :=
  ∀ (h : HalfId) (ad : Bool) (q : Nat) (value : Word) (s : State), s.blk.Takes h → q < Config.queues s.blk.variant →
    let cmd : Instr := if ad then .doorbellTakenOver h q value else .doorbell h q value
    let b := s.blk.taken h causeDoorbell
    let x := b.half h
    let t := value.field 0 16
    ((x.takesDoorbells = false ∨ x.que.queue? ad q = none) →
      exec cmd s = .next (s.withBlock (b.onHalf h (fun x => x.stray ad q)))) ∧
    (∀ u, x.takesDoorbells = true → x.que.queue? ad q = some u → (u.size = 0 ∨ u.live = false) →
      exec cmd s = .next (s.withBlock (b.onHalf h (fun x => x.stray ad q)))) ∧
    (∀ u, x.takesDoorbells = true → x.que.queue? ad q = some u → u.size ≠ 0 → u.live = true → u.state ≠ .error →
      (u.ringSize ≤ t → exec cmd s = .next (s.withBlock ((b.onHalf h (fun x => x.onQueue ad q (fun _ => u.stop 6 t))).tellStop h ad q false))) ∧
      (t < u.ringSize → u.free < u.claimed t →
        exec cmd s = .next (s.withBlock ((b.onHalf h (fun x => x.onQueue ad q (fun _ => u.stop 7 t))).tellStop h ad q false))) ∧
      (t < u.ringSize → u.claimed t = 0 → exec cmd s = .next (s.withBlock (b.onHalf h (fun x => x.onQueue ad q (fun _ => u))))) ∧
      (t < u.ringSize → u.claimed t ≠ 0 → u.claimed t ≤ u.free → b.linked = false →
        exec cmd s = .next (s.withBlock ((b.onHalf h (fun x => x.onQueue ad q (fun _ => { u with tail := t }.dirty))).onHalf h
          (fun x => x.onQueue ad q (fun u => { u with seen := t }))))) ∧
      (t < u.ringSize → u.claimed t ≠ 0 → u.claimed t ≤ u.free → b.linked = true →
        exec cmd s = .next (s.withBlock ((b.onHalf h (fun x => x.onQueue ad q (fun _ => { u with tail := t }.dirty))).send h
          (.tail ad q t)))))

/-- A doorbell to a queue in the error state sets its DB_IGNORED and does nothing else (R334). -/
def Obligations.DoorbellOfAStoppedQueue : Prop :=
  ∀ (h : HalfId) (ad : Bool) (q : Nat) (value : Word) (u : Queue) (s : State), s.blk.Takes h → q < Config.queues s.blk.variant →
    let b := s.blk.taken h causeDoorbell
    (b.half h).takesDoorbells = true → (b.half h).que.queue? ad q = some u → u.size ≠ 0 → u.live = true → u.state = .error →
    exec (if ad then .doorbellTakenOver h q value else .doorbell h q value) s =
      .next (s.withBlock (b.onHalf h (fun x => x.onQueue ad q (fun u => { u with dbIgnored := true }))))

/-- Control of a queue that exists: DISABLE and RESTART take effect at once where no twin is attached, and go to the twin first where one is (R335,
R336, R575, R579); a queue in the error state is taken out of it by RESTART, into active or draining. The first write of a SIZE from 4 to 14 is taken as the ring's,
with the ring's and header's addresses as they stand; another write changes GUTTER, NOTIFY and QUOTA alone (R306, R351). A read of QUE_SEQ_LO returns the low half of the next number and keeps the high half. -/
def Obligations.QueueControl : Prop :=
  (∀ (h : HalfId) (ad : Bool) (q : Nat) (on : Bool) (u : Queue) (s : State), s.blk.Takes h →
    let b := s.blk.taken h causeRegister
    (b.half h).que.queue? ad q = some u →
    (b.linked = false →
      exec (.queueDisable h ad q on) s = .next (s.withBlock (b.onHalf h (fun x => x.onQueue ad q (fun u => u.setDisable on)))) ∧
      (u.state = .error → exec (.queueRestart h ad q) s = .next (s.withBlock (b.onHalf h (fun x =>
        (x.onQue (fun m => m.retryReplies ad q)).onQueue ad q Queue.restart)))) ∧
      (u.state ≠ .error → exec (.queueRestart h ad q) s = .next (s.withBlock (b.onHalf h id)))) ∧
    (b.linked = true →
      exec (.queueDisable h ad q on) s = .next (s.withBlock (b.send h (.queue ad q (.disable on)))) ∧
      exec (.queueRestart h ad q) s = .next (s.withBlock (b.send h (.queue ad q .restart))))) ∧
  (∀ u : Queue, u.state = .error →
    u.restart.state = (if u.disable then .draining else .active) ∧ u.restart.errCause = 0 ∧ u.restart.errIndex = 0 ∧
      u.restart.dbIgnored = false ∧ u.restart.fetch = u.fetch ∧ u.restart.tail = u.tail) ∧
  (∀ (h : HalfId) (value : Word) (s : State), s.blk.Takes h →
    let b := s.blk.taken h causeRegister
    ((b.half h).que.admSize ≠ 0 ∨ value.field 0 4 < 4 ∨ 14 < value.field 0 4 →
      exec (.adminQueueConfig h value) s = .next (s.withBlock (b.onHalf h (fun x => x.onQue (fun m => { m with
        admGutter := if value.field 4 5 < Config.gutters s.blk.variant then value.field 4 5 else m.admGutter
        admNotify := value.bit 9, admQuota := quotaLimits s.blk.variant (value.field 16 12) }))))) ∧
    ((b.half h).que.admSize = 0 → 4 ≤ value.field 0 4 → value.field 0 4 ≤ 14 →
      ∃ t, exec (.adminQueueConfig h value) s = .next t ∧ t.pending = s.pending ∧ (t.blk.half h).que.admSize = value.field 0 4 ∧
        (t.blk.half h).que.admRing = (b.half h).que.admRing ∧ (t.blk.half h).que.admHdr = (b.half h).que.admHdr)) ∧
  (∀ (h : HalfId) (s : State), s.blk.Takes h →
    let b := s.blk.taken h causeRegister
    exec (.queSeqRead h) s = .next (s.withBlock (b.onHalf h (fun x =>
      { x.onQue (fun m => { m with seqHi := BitVec.ofNat 32 (fieldOf b.pair.nextSeq 32 32) }) with
        port := { ok := true, data := fieldOf b.pair.nextSeq 0 32, poison := false } }))))

/-- Fetching, in a queue's turn, with room for the read at the port. At a half that allocates its numbers a burst's entries are taken one by one (takeEntries): one that passes the checks takes the next number, one that fails
stops the queue with its cause; an error response stops the queue with cause 8. At the other half a burst's entries go to the owner. The owner of the counter answers the twin's request; a stalled command whose changes are acknowledged leaves the
range-lock table once no conflicting entry of a lower number stands before it, and takes the next place in the order of leaving (R328-R333, R398-R400, R407). -/
def Obligations.EntryFetching : Prop :=
  (∀ (h : HalfId) (ad : Bool) (q : Nat) (entries : List Entry) (u : Queue) (s : State), (s.blk.half h).que.queue? ad q = some u →
    s.blk.fetches h = true → (s.blk.half h).canRead = true → (s.blk.half h).fetchTurn s.blk.variant = some (turnKey ad q) →
    let b := s.blk.onHalf h (fun x => x.onQue (fun m => { m with turn := turnKey ad q + 1 }))
    let es := entries.take ((s.blk.half h).burstLen s.blk.variant ad q u)
    (s.blk.allocates h = true → exec (.entryFetch h ad q entries) s = .next (s.withBlock (b.takeEntries h ad q es))) ∧
    (s.blk.allocates h = false → exec (.entryFetch h ad q entries) s = .next (s.withBlock (b.askEntries h q u.cls es none))) ∧
    (s.blk.allocates h = true → u.state ≠ .error → exec (.fetchError h ad q entries false) s = .next (s.withBlock (b.stopFetch h ad q 8 0)))) ∧
  (∀ (b : Block) (h : HalfId) (ad : Bool) (q : Nat) (e : Entry) (rest : List Entry) (u : Queue), (b.half h).que.queue? ad q = some u →
    (∀ c, entryCause u.cls q e = some c → b.takeEntries h ad q (e :: rest) = b.stopFetch h ad q c e) ∧
    (entryCause u.cls q e = none → b.takeEntries h ad q (e :: rest) =
      ((b.onPair (fun p => { p with nextSeq := p.nextSeq + 1 })).acceptEntry h ad q b.pair.nextSeq.toNat e).takeEntries h ad q rest)) ∧
  (∀ (h : HalfId) (q index : Nat) (e : Entry) (s : State), s.blk.incoming h = some (.seqAsk q index e) → s.blk.coreRuns h = true →
    s.blk.pair.owner = h → exec (.sequenceNumberRequest h) s = .next (s.withBlock (s.blk.giveNumber h q index e))) ∧
  (∀ (h : HalfId) (seq : Nat) (c : Ctx) (s : State), (s.blk.half h).ctx? seq = some c → s.blk.coreRuns h = true → c.phase = .stalled →
    (s.blk.half h).que.mayLeave seq = true → c.waitAck = [] →
    exec (.rangeLockLeave h seq) s = .next (s.withBlock ((s.blk.onPair (fun p => { p with leaves := p.leaves + 1 })).onHalf h (fun x =>
      x.onCtx seq (fun d => { d with phase := .left, order := s.blk.pair.leaves + 1, took := x.takesHold c })))))

/-- Replies and headers, at a half whose CLK_CORE runs, with room for a write at the port. A finished command's reply goes out as one ORDERED write to its entry's last 16 bytes (writeReply), and so does MALFORMED; its
acknowledgement counts it in its queue, gives the completion notice, releases the command's context and range-lock entry, tells the twin, and ends a STRIKE that waits; an error response stops the queue with cause 10 and the
entry's index, and the reply stays to be written. A header that is due goes out once; its acknowledgement lets the next go and completes what waited for it; its error stops the queue (headerFailed) (R314-R320, R332, R333, R340, R343, R344, R408). -/
def Obligations.RepliesAndHeaders : Prop :=
  ∀ (h : HalfId) (s : State), s.blk.coreRuns h = true →
    let b := s.blk
    let x := b.half h
    (∀ seq c u st, x.canWrite = true → x.ctx? seq = some c → x.que.queue? c.adopted c.queue = some u → c.final = some st → c.mayReply = true →
      exec (.replyWrite h (.cmd seq)) s = .next (s.withBlock ((b.onHalf h (fun x => x.writeReply seq c u st)).onPair (fun p =>
        p.memberEnds c.entry.group seq (decide (st = .doneOk)))))) ∧
    (∀ ad q i u, x.canWrite = true → x.que.queue? ad q = some u → x.outWrite (.malformedReply q ad i) = false →
      x.que.malformed.any (fun m => decide (m.adopted = ad) && decide (m.queue = q) && decide (m.index = i) && !m.failed) = true →
      exec (.replyWrite h (.bad ad q i)) s = .next (s.withBlock (b.onHalf h (fun x => x.issue
        { kind := .malformedReply q ad i, addr := u.ring.toNat + 64 * i + 48, len := 16, data := replyBytes .malformed 0,
          poison := 0, ordered := true })))) ∧
    (∀ seq c, x.ctx? seq = some c → x.outWrite (.reply seq) = true →
      exec (.replyAck h (.cmd seq)) s = .next (s.withBlock
        ((((((b.onHalf h (fun x => (x.landed (.reply seq)).onQueue c.adopted c.queue (fun u => u.replied c.index true))).completionNotice h
          c.adopted c.queue c.index (c.final.elim 0 statusCode) c.entry.cmdId).onHalf h (fun x => x.releaseCtx seq)).tellRelease h
            c.adopted c.queue seq)).struck h c.adopted c.queue)) ∧
      exec (.replyError h (.cmd seq)) s = .next (s.withBlock
        ((b.onHalf h (fun x => (x.landed (.reply seq)).onCtx seq (fun c => { c with phase := .replyFailed }))).stopQueue h c.adopted c.queue
          10 (fun _ => c.index)))) ∧
    (∀ ad q u, x.que.queue? ad q = some u → u.hdrDirty = true → u.hdrOut = false → x.canWrite = true →
      exec (.headerWrite h ad q) s = .next (s.withBlock (b.onHalf h (fun x => x.writeHeader ad q u)))) ∧
    (∀ ad q, x.outWrite (.header q ad) = true →
      exec (.headerWriteAck h ad q) s = .next (s.withBlock
        (((b.onHalf h (fun x => (x.landed (.header q ad)).onQueue ad q (fun u => { u with hdrOut := false }))).headerWaiter h ad q).struck h
          ad q)) ∧
      exec (.headerError h ad q) s = .next (s.withBlock
        (((b.onHalf h (fun x => (x.landed (.header q ad)).onQueue ad q Queue.headerFailed)).headerWaiter h ad q).tellStop h ad q false)))

/-! ### Commands that have left the range-lock table -/

/-- READ, PATROL and READ_RAW. A PADDR that names no codeword ends the command with ADDRESS_RANGE, and of a READ and a PATROL each check that fails ends it with its status; otherwise its codewords are started (startCws) at
the retry entry of the unit's TENSION, for a READ with NRU set (touchNru) and a stream wanted, for a PATROL with neither and a background engine asked, for a READ_RAW with the entry it
names where its flag 0 is set (R102, R115, R122, R134, R258, R262, R269, R362-R365). -/
def Obligations.ReadsStartTheLadder : Prop :=
  ∀ (h : HalfId) (seq : Nat) (c : Ctx) (s : State),
    let b := s.blk
    let slot := (addrOf c.entry.paddr).slot
    let n := c.entry.bytes 44 2
    (b.Left h seq .read c →
      (b.locate c.entry.paddr = none → exec (.read h seq) s = .next (s.withBlock (b.finish h seq .addressRange 0))) ∧
      (∀ t, b.locate c.entry.paddr = some t →
        (∀ st, b.readFault t slot n = some st → exec (.read h seq) s = .next (s.withBlock (b.finish h seq st 0))) ∧
        (b.readFault t slot n = none → exec (.read h seq) s = .next (s.withBlock
          ((((b.touchNru seq (b.servedPlace t)).onCtx seq (fun c => { c with phase := .running, xfer := .wanted })).startCws seq t
            (b.servedPlace t) slot n (b.recAt (b.servedPlace t)).tension.toNat .read .main).settle seq))))) ∧
    (b.Left h seq .patrol c →
      (b.locate c.entry.paddr = none → exec (.patrol h seq) s = .next (s.withBlock ((b.finish h seq .addressRange 0).placeJobs h))) ∧
      (∀ t, b.locate c.entry.paddr = some t →
        (∀ st, b.readFault t slot n = some st → exec (.patrol h seq) s = .next (s.withBlock ((b.finish h seq st 0).placeJobs h))) ∧
        (b.readFault t slot n = none → exec (.patrol h seq) s = .next (s.withBlock
          ((((b.onCtx seq (fun c => { c with phase := .running, xfer := .none })).startCws seq t (b.servedPlace t) slot n
            (b.recAt (b.servedPlace t)).tension.toNat .read .main).settle seq).placeJobs h))))) ∧
    (b.Left h seq .readRaw c →
      (b.locate c.entry.paddr = none → exec (.readRaw h seq) s = .next (s.withBlock (b.finish h seq .addressRange 0))) ∧
      (∀ t, b.locate c.entry.paddr = some t → b.readFault t slot 1 = none → b.goneUnit t = false →
        exec (.readRaw h seq) s = .next (s.withBlock
          ((b.onCtx seq (fun c => { c with phase := .running, xfer := .wanted })).startCws seq t (b.servedPlace t) slot 1
            (if c.entry.flag 0 then c.entry.byte 46 % 16 else (b.recAt (b.servedPlace t)).tension.toNat) .raw .main))))

/-- The commands that return data through BUF: VICTIM gives the best candidates of its zone (victims), at most MAX of them, 8 bytes each, and their number in RESULT; IDENTIFY 4,096 bytes (identifyData); LOG_GET
LENGTH bytes of the log (logFields) from OFFSET, with the log's size in RESULT. BLANK_CHECK senses its sample pages: one codeword of each, as a raw read of its page (R374, R375, R383, R385). -/
def Obligations.QueriesAnswer : Prop :=
  ∀ (h : HalfId) (seq : Nat) (c : Ctx) (s : State),
    let b := s.blk
    let e := c.entry
    let l := ((b.half h).victims (e.byte 20 % 16)).take (e.byte 21)
    let log := (b.half h).logFields (e.byte 20)
    (b.Left h seq .victim c → exec (.victim h seq) s = .next (s.withBlock ((b.onCtx seq (fun c => { c with
      phase := .running, buf := packed (l.map victimEntry) % 2 ^ (8 * (8 * l.length)), bufLen := 8 * l.length
      result := BitVec.ofNat 112 (atByte 49 l.length 8), xfer := if 8 * l.length = 0 then .none else .wanted })).tryFinish seq))) ∧
    (b.Left h seq .identify c → exec (.identify h seq) s = .next (s.withBlock ((b.onCtx seq (fun c => { c with
      phase := .running, buf := b.identifyData h e % 2 ^ 32768, bufLen := 4096, result := 0, xfer := .wanted })).tryFinish seq))) ∧
    (b.Left h seq .logGet c → 0 < e.bytes 28 4 → exec (.logGet h seq) s = .next (s.withBlock ((b.onCtx seq (fun c => { c with
      phase := .running, buf := packed log / 2 ^ (8 * e.bytes 24 4) % 2 ^ (8 * e.bytes 28 4), bufLen := e.bytes 28 4
      result := BitVec.ofNat 112 (atByte 49 (log.map Prod.snd).sum 32), xfer := .wanted })).tryFinish seq))) ∧
    (b.Left h seq .blankCheck c → b.pair.latched = false → ∀ t : Place, b.locateUnit e.paddr = some t → b.lostRec t.keep t.idx = false →
      (b.recAt t).fly = false → b.dieRetired t.idx = false → (b.recAt t).rgnOwn = false →
      let u := { t with slc := e.flag 0 }
      let l := (samplePages (t.prof.capacity u.slc) (e.bytes 28 2)).map (fun n =>
        { b.freshCw u u n 0 0 .sample false with st := .sensing, step := 1, bits := 0, fin := none, poison := false })
      exec (.blankCheck h seq) s = .next (s.withBlock ((b.onCtx seq (fun c => { c with phase := .running, cws := l })).pushOps t.idx
        (l.map (fun k => mkOp .raw seq c.cls t.idx [k.page] u.slc 0)))))

/-- PROGRAM, PROGRAM_AT and OFFER at a place in order whose checks pass: the pages from WP are reserved and started (programStart), their data wanted from the stream, or, for a program that names a hold it has taken,
that hold's; an OFFER to a tight zone is declined. Without a hold the start is the reservation of the entry's pages, its stream wanted, and the first data-ins (pump). A COPY whose source's checks pass starts its source's reads, without a
stream, and asks for a background engine. A reservation of n pages advances WP by n and opens or fills the unit, and leaves VALID and ERASE_CNT (R114, R187-R191, R284, R368-R370). -/
def Obligations.ProgramsReserveTheirPages : Prop :=
  (∀ (h : HalfId) (seq : Nat) (c : Ctx) (p : Place) (s : State),
    let b := s.blk
    let e := c.entry
    b.orderHeld h seq c p.idx = false →
    (b.Left h seq .program c → b.locateUnit e.paddr = some p → c.opcode = .program → b.programFault p (e.byte 44) none true = none →
      (e.flag 2 = false → exec (.program h seq) s = .next (s.withBlock ((b.programStart h seq c p false).tryFinish seq))) ∧
      (e.flag 2 = true → c.redo = false → (b.half h).holdFault c = none →
        exec (.program h seq) s = .next (s.withBlock ((b.programStart h seq c p true).tryFinish seq)))) ∧
    (b.Left h seq .programAt c → b.locatePage e.paddr = some p → e.flag 2 = false → c.redo = false → c.opcode = .programAt →
      b.programFault p (e.byte 44) (some p.page) true = none →
      exec (.programAt h seq) s = .next (s.withBlock ((b.programStart h seq c p false).tryFinish seq))) ∧
    (b.Left h seq .offer c → b.locateUnit e.paddr = some p → c.opcode = .offer → b.programFault p (e.byte 44) none false = none →
      (b.declines c p = true → exec (.offer h seq) s = .next (s.withBlock ((b.finish h seq .declined 0).tryFinish seq))) ∧
      (b.declines c p = false → exec (.offer h seq) s = .next (s.withBlock ((b.programStart h seq c p false).tryFinish seq))))) ∧
  (∀ (b : Block) (h : HalfId) (seq : Nat) (c : Ctx) (p : Place), b.programStart h seq c p false =
    ((b.reserve seq p (c.entry.byte 44) true (c.entry.flag 1) none).onCtx seq (fun c => { c.padPoisoned [] with
      phase := .running, xfer := .wanted })).pump p.idx) ∧
  (∀ (h : HalfId) (seq : Nat) (c : Ctx) (p : Place) (s : State), s.blk.Left h seq .copy c → s.blk.locatePage c.entry.paddr = some p →
    s.blk.readFault p 0 (4 * c.entry.byte 44) = none →
    exec (.copy h seq) s = .next (s.withBlock ((((s.blk.onCtx seq (fun c => { c with readLeft := true })).readFrom seq p 0
      (4 * c.entry.byte 44) false false).placeJobs h).tryFinish seq))) ∧
  (∀ (r : Rec) (cap n : Nat) (touch stream : Bool), r.wp.toNat + n < 2 ^ 16 →
    (r.reserve cap n touch stream).wp.toNat = r.wp.toNat + n ∧
    (r.reserve cap n touch stream).state = (if r.wp.toNat + n < cap then .opened else .full) ∧
    (r.reserve cap n touch stream).valid = r.valid ∧ (r.reserve cap n touch stream).eraseCnt = r.eraseCnt)

/-- ERASE and INVALIDATE. An ERASE whose checks fail ends with their status; that of a unit of no stripe whose checks pass puts it in erasing, with SUSP_CNT 0 and the mode asked, and queues the die's erase;
an INVALIDATE whose checks fail ends with their status; another lowers VALID by its count, clamped at zero with UNDERFLOW, frees a full unit left without valid pages, and returns what it made
(R113, R114, R207-R209, R372, R373). -/
def Obligations.ErasesAndInvalidations : Prop :=
  (∀ (h : HalfId) (seq : Nat) (c : Ctx) (p : Place) (s : State),
    let b := s.blk
    let slc := (b.recAt p).rgnOwn || c.entry.flag 0
    b.locateUnit c.entry.paddr = some p → c.redo = false →
    (b.Left h seq .erase c →
      (∀ st, b.eraseFault p = some st → exec (.erase h seq) s = .next (s.withBlock (b.finish h seq st 0))) ∧
      (b.eraseFault p = none → (b.recAt p).role = .none →
        exec (.erase h seq) s = .next (s.withBlock ((((b.updRec p.keep (some seq) p.idx 0 0 false (fun r =>
          { r with state := .erasing, suspCnt := 0, slc := slc })).onCtx seq (fun c => { c with
            phase := .running, before := if (b.recAt p).rgnOwn then some (b.recAt p) else none })).pushOps p.idx
            [mkOp .erase seq c.cls p.idx [] slc 0]))))) ∧
    (b.Left h seq .invalidate c → b.lostRec p.keep p.idx = false →
      let n := c.entry.bytes 28 2
      let new := invalidated (b.recAt p) n
      (∀ st, invalidateFault (b.recAt p) = some st → exec (.invalidate h seq) s = .next (s.withBlock (b.finish h seq st 0))) ∧
      (invalidateFault (b.recAt p) = none →
        exec (.invalidate h seq) s = .next (s.withBlock
          (((b.updRec p.keep (some seq) p.idx (b.groupOf c).1 (b.groupOf c).2
            (decide ((b.recAt p).state = .full) && decide (new.state = .free)) (fun _ => new)).underflow p.keep
              (decide ((b.recAt p).valid.toNat < n))).finish h seq .doneOk
                (invalidateResult new (decide ((b.recAt p).valid.toNat < n)))))))) ∧
  (∀ (r : Rec) (n : Nat), (invalidated r n).valid.toNat = r.valid.toNat - n ∧ (invalidated r n).wp = r.wp ∧
    (invalidated r n).state = (if r.state = .full ∧ r.valid.toNat ≤ n then .free else r.state))

/-- RELEASE frees the hold it names, where that is there and no command before it took it, and otherwise ends with HOLD_INVALID; a GROUP_COMMIT waits until every member has ended, and then closes the group: done, with its close entry journalled, where R380's conditions hold, and otherwise undone (undoGroup) with
GROUP_VOID; a FENCE waits for what stands before it and then completes, with FENCE_ADDR only at the return of its read (R378, R380-R382). -/
def Obligations.HoldsGroupsAndFences : Prop :=
  ∀ (h : HalfId) (seq : Nat) (c : Ctx) (s : State),
    let b := s.blk
    let e := c.entry
    (b.Left h seq .release c → c.redo = false →
      (∀ x, c.took = true → (b.half h).pool.holds.find? (e.byte 20 % 64) = some x → exec (.release h seq) s = .next (s.withBlock
        ((b.onHalf h (fun y => { y with pool := { y.pool with holds := y.pool.holds.drop (e.byte 20 % 64) } })).finish h seq .doneOk 0))) ∧
      ((c.took = false ∨ (b.half h).pool.holds.find? (e.byte 20 % 64) = none) →
        exec (.release h seq) s = .next (s.withBlock (b.finish h seq .holdInvalid 0)))) ∧
    (b.Left h seq .groupCommit c → c.redo = false → ∀ g, b.pair.groups.find? e.group = some g →
      (g.members.all (fun m => g.ended.contains m) = false → exec (.groupCommit h seq) s = .next s) ∧
      (g.members.all (fun m => g.ended.contains m) = true →
        let good := decide (g.members.length = e.byte 20) && decide (g.ok.length = g.members.length) && !g.isVoid &&
          !b.pair.voidMarks.contains e.group && !e.flag 0
        exec (.groupCommit h seq) s = .next (s.withBlock
          (((if good then b.journal h (some seq) [closeEntry e.group g.gseq false] else b.undoGroup h seq e.group g).onPair (fun p => { p with
            groups := p.groups.drop e.group
            voidMarks := p.voidMarks.filter (fun t => decide (t ≠ e.group)) })).finish h seq (if good then .doneOk else .groupVoid) 0)))) ∧
    (b.Left h seq .fence c →
      ((b.half h).fenceHeld seq c = true → exec (.fence h seq) s = .next s) ∧
      ((b.half h).fenceHeld seq c = false → e.bytes 20 8 = 0 → exec (.fence h seq) s = .next (s.withBlock (b.finish h seq .doneOk 0))) ∧
      ((b.half h).fenceHeld seq c = false → e.bytes 20 8 ≠ 0 → exec (.fence h seq) s = .next (s.withBlock ((b.onHalf h (fun x => x.issueRead
        { slot := none, descNo := 0, pos := 0, back := false, fence := some seq, addr := e.bytes 20 8, len := 64 })).onCtx seq (fun c =>
          { c with phase := .running }))))) ∧
    (b.coreRuns h = true → (b.half h).dma.reads.any (fun r => decide (r.fence = some seq)) = true →
      exec (.fenceReadReturn h seq) s = .next (s.withBlock ((b.onHalf h (fun x => { x with
        dma := x.dma.endRead (fun r => decide (r.fence = some seq)) })).finish h seq .doneOk 0)))

/-- PITCH without WATCH creates the queue it asks for and tells the twin, or ends with the status of R340's checks; STRIKE without ABORT disables its queue and goes on once that is idle (struck), or ends with QUEUE_INVALID; PROFILE_LOAD asks for 512 bytes; PROFILE_BIND
binds the die and tells the twin, or ends with its checks' status; REC_UPDATE, whose checks pass, writes one record and returns it, and a retirement adds a grown-defect entry and leaves a stripe member absent (R307-R309, R338, R340, R386-R388). -/
def Obligations.AdminCommands : Prop :=
  ∀ (h : HalfId) (seq : Nat) (c : Ctx) (s : State),
    let b := s.blk
    let e := c.entry
    (b.Left h seq .pitch c →
      (∀ st, (b.half h).pitchFault b.variant c.adopted e = some st → exec (.pitch h seq) s = .next (s.withBlock (b.finish h seq st 0))) ∧
      ((b.half h).pitchFault b.variant c.adopted e = none → fieldOf e 178 1 = 0 →
        exec (.pitch h seq) s = .next (s.withBlock (((b.onHalf h (fun x => x.onQue (fun m =>
          m.putQueue c.adopted (e.bytes 20 2) (pitched e none seq)))).send h (.queue c.adopted (e.bytes 20 2)
            (.created (pitched e none seq)))).onCtx seq (fun c => { c with phase := .running }))))) ∧
    (b.Left h seq .strike c → ∀ u, (b.half h).que.queue? c.adopted (e.bytes 20 2) = some u →
      (e.bytes 20 2 ≠ 0 → u.strikeBy = none → u.state ≠ .struck → u.live = true → e.flag 0 = false →
        exec (.strike h seq) s = .next (s.withBlock
          ((((b.onHalf h (fun x => x.onQueue c.adopted (e.bytes 20 2) (fun u => { u.setDisable true with strikeBy := some seq }))).send h
            (.queue c.adopted (e.bytes 20 2) (.disable true))).onCtx seq (fun c => { c with phase := .running })).struck h c.adopted
              (e.bytes 20 2)))) ∧
      ((e.bytes 20 2 = 0 ∨ u.strikeBy ≠ none ∨ u.state = .struck ∨ u.live = false) →
        exec (.strike h seq) s = .next (s.withBlock (b.finish h seq .queueInvalid 0)))) ∧
    (b.Left h seq .profileLoad c → exec (.profileLoad h seq) s = .next (s.withBlock (b.onCtx seq (fun c =>
      { c with phase := .running, buf := 0, bufLen := 512, xfer := .wanted })))) ∧
    (b.Left h seq .profileBind c →
      let ch := e.byte 20
      let d := e.byte 21 % 8
      let n := e.byte 22 % 16
      (∀ st, b.bindFault h ch d n = some st → exec (.profileBind h seq) s = .next (s.withBlock (b.finish h seq st 0))) ∧
      (b.bindFault h ch d n = none → exec (.profileBind h seq) s = .next (s.withBlock
        (((b.onHalf h (fun x => x.onDie ch d (fun e => { e with slot := some n, credit := [], pulseDue := true, featDue := true }))).send h (.bind ch d n)).finish h seq
          .doneOk 0)))) ∧
    (b.Left h seq .recUpdate c → c.redo = false →
      let i := e.bytes 20 3 % 2 ^ 18
      ∀ k, b.keeper (recCh i) = some k → b.lostRec k i = false → b.recFault i (e.byte 23) ((b.half k).rec? i) = none →
        (e.byte 23 = 1 → exec (.recUpdate h seq) s = .next (s.withBlock
          ((b.updRec k (some seq) i 0 0 false (fun _ => { (b.half k).rec? i with zone := BitVec.ofNat 4 (e.byte 24) })).finish h seq .doneOk
            (fieldOf ({ (b.half k).rec? i with zone := BitVec.ofNat 4 (e.byte 24) } : Rec).bytes 0 112)))) ∧
        (e.byte 23 = 2 → exec (.recUpdate h seq) s = .next (s.withBlock
          ((((b.updRec k (some seq) i 0 0 false (fun _ => { (b.half k).rec? i with state := .retired })).addDefect k (some seq)
            { index := i, cause := 2, eraseCnt := ((b.half k).rec? i).eraseCnt }).allAbsent (fun j => decide (j = i))).finish h seq .doneOk
              (fieldOf ({ (b.half k).rec? i with state := .retired } : Rec).bytes 0 112)))) ∧
        (e.byte 23 = 3 → exec (.recUpdate h seq) s = .next (s.withBlock
          ((b.updRec k (some seq) i 0 0 false (fun _ => { (b.half k).rec? i with grownBad := false })).finish h seq .doneOk
            (fieldOf ({ (b.half k).rec? i with grownBad := false } : Rec).bytes 0 112)))))

/-- REGION_OPEN and REGION_CLOSE. An open whose checks fail ends with their status; otherwise (openRegion) the descriptor and the records of its units change in one journal record, and the lines of a region of the half's own
leave the line buffer. A close whose checks fail ends with their status; otherwise the reads of both copies start (closeStart); once they are read and their CRCs agree, the operation closeRegion makes the units of such a region region, the
descriptor closed with the CRC and a COMMIT_SEQ one above the half's highest, in one journal record (R136-R138, R390). -/
def Obligations.RegionsOpenAndClose : Prop :=
  (∀ (h : HalfId) (seq : Nat) (c : Ctx) (s : State),
    let b := s.blk
    let e := c.entry
    let n := e.byte 20 % 16
    let old := (b.half h).regionOf (!c.adopted) n
    c.redo = false →
    (b.Left h seq .regionOpen c →
      (∀ st, b.regionFault h (!c.adopted) n (regionAsked old e) = some st →
        exec (.regionOpen h seq) s = .next (s.withBlock (b.finish h seq st 0))) ∧
      (b.regionFault h (!c.adopted) n (regionAsked old e) = none →
        exec (.regionOpen h seq) s = .next (s.withBlock (b.openRegion h (!c.adopted) seq n (regionAsked old e))))) ∧
    (b.Left h seq .regionClose c →
      (old.state ≠ .opened → exec (.regionClose h seq) s = .next (s.withBlock (b.finish h seq .regionState 0))) ∧
      (old.state = .opened → (b.half h).win.updateEn = false →
        exec (.regionClose h seq) s = .next (s.withBlock (b.finish h seq .regionLocked 0))) ∧
      (b.closeFault h (!c.adopted) n = none → b.pair.latched = false →
        exec (.regionClose h seq) s = .next (s.withBlock (b.closeStart h seq))))) ∧
  (∀ (b : Block) (h : HalfId) (seq n : Nat) (d : RgnDesc), b.openRegion h true seq n d =
    ((b.updRecs h (some seq) (b.regionRecs h true n d) [plainEntry (.region n d)]).onHalf h (fun x => { x with win := { x.win with
      desc := x.win.desc.put n d, lines := x.win.lines.filter (fun l => decide (l.region ≠ n)) } })).finish h seq .doneOk 0) ∧
  (∀ (b : Block) (h : HalfId) (seq n : Nat) (crc : BitVec 32),
    let d := (b.half h).win.region n
    let next := nextClose (b.half h).win.desc
    let new : RgnDesc := { d with state := .closed, imageCrc := crc, commitSeq := next }
    b.closeRegion h true seq n crc =
      ((b.updRecs h (some seq) ((b.regionUnits h d).map (fun i => (i, { (b.half h).rec? i with state := .region })))
        [plainEntry (.region n new)]).onHalf h (fun y => { y with win := { y.win with desc := y.win.desc.put n new } })).finish h seq .doneOk
          (atByte 49 next.toNat 32))

/-- DIE_FEATURE ends with the status of its checks; on a served channel, at an idle LUN and with power in the budget, it puts its cycles on the bus and returns what the die answers (featureCmd). DIE_RESET holds the die it names and, with no operation
of its LUN under way, issues the reset. RETIRE and RESTORE: each refusal in its order, and the retirement (retireUnit) or the return to service (restoreUnit) where none applies (R391-R394). -/
def Obligations.DiesAndUnitsInService : Prop :=
  ∀ (h : HalfId) (seq : Nat) (c : Ctx) (s : State),
    let b := s.blk
    let e := c.entry
    let x := b.half h
    (b.Left h seq .dieFeature c → ∀ values : BitVec 32,
      (∀ st, x.featureFault e = some st → exec (.dieFeature h seq values) s = .next (s.withBlock (b.finish h seq st 0))) ∧
      (x.featureFault e = none → (x.die (e.byte 20) (e.byte 21 % 8)).op = none → b.pair.latched = false → b.anyBudget = true →
        b.serving h (e.byte 20) = true → ∀ p, x.profile? (e.byte 20) (e.byte 21 % 8) = some p →
        exec (.dieFeature h seq values) s = .next (s.withBlock ((b.onHalf h (fun x => x.onChan (e.byte 20) (fun k => { k with
          cycles := selectCycles k (k.die (e.byte 21 % 8)) p (e.byte 21 % 8) ++ featureOpCycles p e (e.byte 21 % 8)
          volSel := k.selects p { kind := .arrayCmd, die := e.byte 21 % 8 }, odtDie := none, odtPad := false
          burst := k.burst.map (fun u => u.yields p (e.byte 21 % 8)) }))).finish h seq .doneOk (atByte 49 values.toNat 32))))) ∧
    (b.Left h seq .dieReset c → b.pair.latched = false → x.namesDie (e.byte 20) (e.byte 21 % 8) = true →
      (x.die (e.byte 20) (e.byte 21 % 8)).op = none →
      exec (.dieReset h seq) s = .next (s.withBlock (((b.onHalf h (fun x => x.onDie (e.byte 20) (e.byte 21 % 8) (fun e =>
        { e with held := true }))).onHalf h (fun x => x.onChan (e.byte 20) (fun k => (k.onDie (e.byte 21 % 8) (fun u => { u with
          op := some { mkOp .reset seq 3 (recIndex (e.byte 20) (e.byte 21 % 8) 0) [] false 0 with block := e.byte 22, phase := .issue } })).addTask
            .reset (e.byte 21 % 8)))).onCtx seq (fun c => { c with phase := .running })))) ∧
    (b.Left h seq .retire c → c.redo = false → ∀ lost : BankLoss,
      let kind := e.byte 20
      let index := e.byte 21
      let die := e.byte 22 % 8
      ((x.unitHere b.variant kind index die = false ∨ x.unitRetired kind index die = true) → exec (.retire h seq lost) s = .next (s.withBlock
        (b.finish h seq .unitAbsent (atByte 49 (bitOf (x.unitRetired kind index die)) 8)))) ∧
      (x.unitHere b.variant kind index die = true → x.unitRetired kind index die = false → b.retireLimit h kind index die = true →
        exec (.retire h seq lost) s = .next (s.withBlock (b.finish h seq .retireLimit 0))) ∧
      (x.unitHere b.variant kind index die = true → x.unitRetired kind index die = false → b.retireLimit h kind index die = false →
        exec (.retire h seq lost) s = .next (s.withBlock ((b.retireUnit h kind index die lost).finish h seq .doneOk (atByte 49 1 8))))) ∧
    (b.Left h seq .restore c → c.redo = false → ∀ pass : Bool,
      let kind := e.byte 20
      let index := e.byte 21
      let die := e.byte 22 % 8
      x.unitHere b.variant kind index die = true → x.unitRetired kind index die = true →
      (b.restoreBlocked kind index die = true → exec (.restore h seq pass) s = .next (s.withBlock (b.finish h seq .restoreBlocked (atByte 49 1 8)))) ∧
      (b.restoreBlocked kind index die = false → pass = false →
        exec (.restore h seq pass) s = .next (s.withBlock (b.finish h seq .restoreFail (atByte 49 1 8)))) ∧
      (b.restoreBlocked kind index die = false → pass = true →
        exec (.restore h seq pass) s = .next (s.withBlock ((b.restoreUnit h kind index die).finish h seq .doneOk 0))))

/-- STRIPE_OPEN ends with the status of its checks, or takes the slot they give, links its members in a ring in one journal record and charges its cells; a row's parity is issued once every
present data member's program of it has ended (issueRow); a REBUILD ends with the status of its checks, or starts at row 0 and asks for a background engine; the swap of one whose rows are all written is the operation swap
(R277, R278, R281, R295-R298). -/
def Obligations.StripesAndRebuilds : Prop :=
  ∀ (h : HalfId) (s : State),
    let b := s.blk
    (∀ seq c, b.Left h seq .stripeOpen c → c.redo = false →
      let t := stripeAsked c.entry
      (∀ st, b.stripeCheck h (c.entry.byte 22) t = .error st → exec (.stripeOpen h seq) s = .next (s.withBlock (b.finish h seq st 0))) ∧
      (∀ n, b.stripeCheck h (c.entry.byte 22) t = .ok n → exec (.stripeOpen h seq) s = .next (s.withBlock
        ((((b.updRecs h (some seq) ((b.half h).linked' t) [plainEntry (.stripe n (some t))]).onHalf h (fun x => { x with par := { x.par with
          stripes := x.par.stripes.put n t, used := x.par.used + t.cells } })).notePool h).finish h seq .doneOk (atByte 49 n 5))))) ∧
    (∀ slot t, b.coreRuns h = true → b.pair.latched = false → (b.half h).par.stripes.find? slot = some t →
      let row := (b.half h).nextRow slot t.parityRow ((b.half h).rowsHeld slot)
      row < (b.half h).stripeCap t → t.rowEnded ((b.half h).row slot row t) = true →
      exec (.parityProgram h slot) s = .next (s.withBlock (b.issueRow h slot row t))) ∧
    (∀ seq c, b.Left h seq .rebuild c → c.redo = false →
      let src := c.entry.bytes 20 3 % 2 ^ 18
      let dst := c.entry.bytes 24 3 % 2 ^ 18
      (∀ st, b.rebuildFault h src dst false = some st → exec (.rebuild h seq) s = .next (s.withBlock (b.finish h seq st 0))) ∧
      (b.rebuildFault h src dst false = none → exec (.rebuild h seq) s = .next (s.withBlock ((b.rebuildStart h seq src dst).placeJobs h)))) ∧
    (∀ n r, b.coreRuns h = true → b.journalOpen h = true → (b.half h).par.rebuilds.find? n = some r → b.rebuilt h r = true →
      exec (.rebuildSwap h n) s = .next (s.withBlock (b.swap h n r)))

/-! ### The twin -/

/-- DETACH ends with TWIN_STATE where it names this half, the pair is not linked or it is executed anew; otherwise its twin fetches nothing more, the command waits, and once the twin is drained the operation detach takes what the
twin holds. ATTACH ends with TWIN_STATE where it names this half, the other is no standby half or it is executed anew; otherwise it takes the self-test of the standby half where that has not passed, ends with ATTACH_FAIL where the test finds a cause, and
puts both halves in syncing, the model's state between its two looks (log entry 114); then the operation attach joins the halves and the command ends, or, with HANDBACK, waits: with the link lost it fails, and once the adopted queues are drained the operation handBack
gives the home channels back and the command ends (R395, R597, R599). -/
def Obligations.DetachAndAttach : Prop :=
  ∀ (h : HalfId) (seq : Nat) (c : Ctx) (s : State), (s.blk.half h).ctx? seq = some c → s.blk.coreRuns h = true → s.blk.pair.latched = false →
    let b := s.blk
    let y := b.half h.twin
    let sync := fun (x : Half) => x.onTwn (fun t => { t with st := .syncing })
    (c.opcode = .detach →
      (c.phase = .left → (namesSelf h c.entry = true ∨ b.linked = false ∨ c.redo = true) →
        exec (.detach h seq) s = .next (s.withBlock (b.finish h seq .twinState 0))) ∧
      (c.phase = .left → namesSelf h c.entry = false → b.linked = true → c.redo = false →
        exec (.detach h seq) s = .next (s.withBlock ((b.onCtx seq (fun c => { c with phase := .running })).onHalf h.twin (fun x =>
          x.onTwn (fun t => { t with holdOwn := true, holdAdopt := true }))))) ∧
      (c.phase = .running → b.linked = true → y.drained = false → exec (.detach h seq) s = .next s) ∧
      (c.phase = .running → b.linked = true → y.drained = true →
        exec (.detach h seq) s = .next (s.withBlock (b.detach h seq)))) ∧
    (c.opcode = .attach → ∀ (cause : Nat) (good : List (Nat × Bool × Bool)) (table : List Family),
      (c.phase = .left → (namesSelf h c.entry = true ∨ y.twn.st ≠ .standby ∨ c.redo = true) →
        exec (.attach h seq cause good table) s = .next (s.withBlock (b.finish h seq .twinState 0))) ∧
      (c.phase = .left → namesSelf h c.entry = false → y.twn.st = .standby → c.redo = false → b.coreRuns h.twin = true →
        (y.twn.stDone = true → y.twn.stFail = false → exec (.attach h seq cause good table) s = .next (s.withBlock
          (((b.onCtx seq (fun c => { c with phase := .running })).onHalf h sync).onHalf h.twin sync))) ∧
        ((y.twn.stDone = false ∨ y.twn.stFail = true) → cause = 0 → exec (.attach h seq cause good table) s = .next (s.withBlock
          ((((b.onHalf h.twin (fun x => x.tested 0)).onCtx seq (fun c => { c with phase := .running })).onHalf h sync).onHalf h.twin sync))) ∧
        ((y.twn.stDone = false ∨ y.twn.stFail = true) → cause ≠ 0 → exec (.attach h seq cause good table) s = .next (s.withBlock
          ((b.onHalf h.twin (fun x => x.tested cause)).finish h seq .attachFail 0)))) ∧
      (c.phase = .running → (b.half h).twn.st = .syncing → y.twn.st = .syncing → b.coreRuns h.twin = true →
        (c.entry.flag 0 = false → exec (.attach h seq cause good table) s = .next (s.withBlock
          (((b.attach h good table).finish h seq .doneOk 0).event h 0x25 2 0))) ∧
        (c.entry.flag 0 = true → exec (.attach h seq cause good table) s = .next (s.withBlock
          ((b.attach h good table).onHalf h (fun x => x.onTwn (fun t => { t with holdAdopt := true })))))) ∧
      (c.phase = .running → (b.half h).twn.st ≠ .syncing → b.linked = false →
        exec (.attach h seq cause good table) s = .next (s.withBlock (b.failAttach h))) ∧
      (c.phase = .running → b.linked = true → (b.half h).adoptedDrained = true →
        exec (.attach h seq cause good table) s = .next (s.withBlock (((b.handBack h).finish h seq .doneOk 0).event h 0x25 3 0))))

/-- YIELD and the self-test. Of a half in link fault a YIELD sets the state yielding, disables every queue of it, own and adopted, and lets it fetch nothing more; in another state it changes nothing. A self-test is
run by a standby half alone, with its result kept and told to its twin by source 107 and an event. A half takes the channels of a twin that holds no enable (takeAfterYield) from a sealed checkpoint of the twin, and becomes the counter's owner: from the CLEAN one the
twin announced where it is in link fault, and from any where it is solo at stage 7 and its twin has halted without a strap error, some of its channels not yet taken (R585, R598). -/
def Obligations.YieldAndSelftest : Prop :=
  (∀ (h : HalfId) (s : State), s.blk.Takes h →
    let b := s.blk.taken h causeRegister
    ((b.half h).twn.st = .linkFault → ∃ t, exec (.twnCtlYield h) s = .next t ∧ t.pending = s.pending ∧ (t.blk.half h).twn.st = .yielding ∧
      (t.blk.half h).twn.holdOwn = true ∧ (t.blk.half h).twn.holdAdopt = true ∧
      (t.blk.half h).que.queues = (b.half h).que.queues.map (fun e => (e.1, e.2.setDisable true)) ∧
      (t.blk.half h).que.adopted = (b.half h).que.adopted.map (fun e => (e.1, e.2.setDisable true)) ∧
      (t.blk.half h).que.ctxs = (b.half h).que.ctxs ∧ (t.blk.half h).store = (b.half h).store) ∧
    ((b.half h).twn.st ≠ .linkFault → exec (.twnCtlYield h) s = .next (s.withBlock b)) ∧
    (∀ cause : Nat,
      ((b.half h).twn.st = .standby → exec (.twnCtlSelftest h cause) s = .next (s.withBlock
        (((b.onHalf h (fun x => { x with twn := { x.twn with stDone := true, stFail := decide (cause ≠ 0), stCause := cause % 256 } })).raise
          h.twin 107).event h.twin 0x24 (cause % 256) 0))) ∧
      ((b.half h).twn.st ≠ .standby → exec (.twnCtlSelftest h cause) s = .next (s.withBlock b)))) ∧
  (∀ (h : HalfId) (ckpt : Ckpt) (flash : List FlashPage) (s : State),
    let b := s.blk
    b.coreRuns h = true → b.holdsEnable h.twin = false → ckpt.half = h.twin → 0 < ckpt.sealed →
    (((b.half h).twn.st = .linkFault ∧ ckpt.clean = true ∧ (b.half h.twin).twn.yieldSeq.all (fun q => decide (q = ckpt.seq)) = true) ∨
      ((b.half h).twn.st = .solo ∧ (b.half h).boot.stage = 7 ∧ (b.half h.twin).boot.stage = 15 ∧ (b.half h.twin).boot.strapErr = false ∧
        (b.toTake h).isEmpty = false)) →
    exec (.yieldedChannelsTake h ckpt flash) s = .next (s.withBlock (b.takeAfterYield h ckpt flash)) ∧
    (b.takeAfterYield h ckpt flash).pair.owner = h)

/-- The guy link. An acknowledgement takes the oldest applied message off its sender (ackOldest), leaving the others; a message is accepted and then applied, and one that asks for a number is answered by the counter's owner with it; a message that tells of
sleep or a wake is taken whether or not CLK_CORE runs. A negative acknowledgement counts as far as the seventh, and the eighth declares a link fault; a heartbeat is one more message, and a period without a message is counted with
source 110 (R576-R579, R582). -/
def Obligations.LinkMessages : Prop :=
  ∀ (h : HalfId) (s : State), s.blk.pair.frozen = false →
    let b := s.blk
    let w := (b.half h).twn
    (∀ e r, w.sent = e :: r → w.applied ≠ 0 → exec (.mirrorAck h) s = .next (s.withBlock (b.ackOldest h)) ∧
      (e.2 ≠ .sleep 2 → ((b.ackOldest h).half h).twn.sent = r ∧ ((b.ackOldest h).half h).twn.applied = w.applied - 1)) ∧
    (∀ m, b.incoming h = some m → (b.coreRuns h = true ∨ m.passes = true) → (∀ q i e, m ≠ .seqAsk q i e) →
      exec (.guyLinkMessage h) s = .next (s.withBlock ((b.accepted h).applyMsg h m))) ∧
    (∀ q i e, b.incoming h = some (.seqAsk q i e) → b.coreRuns h = true →
      (b.pair.owner = h → exec (.guyLinkMessage h) s = .next (s.withBlock (b.giveNumber h q i e))) ∧
      (b.pair.owner ≠ h → exec (.guyLinkMessage h) s = .next (s.withBlock (b.accepted h)))) ∧
    (w.applied < w.sent.length → w.fails < 7 → exec (.linkNak h) s = .next (s.withBlock (b.onHalf h (fun x => x.onTwn (fun t => { t with
      fails := t.fails + 1, retryCnt := satAdd 65535 t.retryCnt (t.sent.length - t.applied) }))))) ∧
    (w.applied < w.sent.length → 7 ≤ w.fails → exec (.linkNak h) s = .next (s.withBlock ((b.linkFault h 2).failAttach h))) ∧
    (b.coreRuns h = true → b.linked = true → (b.half h).pwr.twinState < 2 →
      exec (.heartbeat h) s = .next (s.withBlock (b.onHalf h (fun x => x.onTwn (fun t => { t with
        sent := t.sent ++ [(t.linkNum, Msg.heartbeat)], linkNum := (t.linkNum + 1) % 65536 }))))) ∧
    (b.coreRuns h = true → w.st = .attached → (b.half h).pwr.watching = false →
      exec (.heartbeatLate h) s = .next (s.withBlock ((b.onHalf h (fun x => x.onTwn (fun t => { t with
        late := t.late + 1, lateCnt := satAdd 65535 t.lateCnt 1 }))).raise h 110)))

/-- Loss and takeover. HB_MISS silent periods, or the loss of the beacon (which wakes the half first), declare the twin lost; the wait for the interlock ends with the survivor owning the
counter, or in a link fault while an enable of the twin is active; the takeover (takeOver) ends in state solo; a lapse drops every enable of the half (dropAll), with source 105 to a twin in link fault where the half held one
(R35, R539, R582, R583, R586). -/
def Obligations.LossAndTakeover : Prop :=
  ∀ (h : HalfId) (s : State),
    let b := s.blk
    let x := b.half h
    (b.coreRuns h = true → x.twn.st = .attached → x.pwr.watching = false → x.twn.hbMiss ≤ x.twn.late →
      ∃ t, exec (.twinLoss h) s = .next t ∧ t.pending = s.pending ∧ (t.blk.half h).twn.st = .takingOver ∧ (t.blk.half h).twn.waitLock = true ∧
        (t.blk.half h).twn.sent = [] ∧ (t.blk.half h).twn.late = 0 ∧ t.blk.pair = b.pair) ∧
    (b.pair.frozen = false → x.twn.st = .attached → x.pwr.watching = true → x.boot.failed = false →
      exec (.beaconLoss h) s = .next (s.withBlock ((b.wake h 5).declareLoss h)) ∧
      (((b.wake h 5).declareLoss h).half h).twn.st = .takingOver ∧ (((b.wake h 5).declareLoss h).half h).pwr.watching = false) ∧
    (b.coreRuns h = true → x.twn.st = .takingOver → x.twn.waitLock = true →
      (b.holdsEnable h.twin = false → exec (.interlockWaitEnd h) s = .next (s.withBlock ((b.onHalf h (fun x =>
        x.onTwn (fun t => { t with waitLock := false }))).onPair (fun p => { p with owner := h })))) ∧
      (b.holdsEnable h.twin = true → exec (.interlockWaitEnd h) s = .next (s.withBlock ((b.linkFault h 1).failAttach h)))) ∧
    (∀ us flash, b.coreRuns h = true → x.twn.st = .takingOver → x.twn.waitLock = false →
      exec (.takeover h us flash) s = .next (s.withBlock (b.takeOver h us flash)) ∧
      ((b.takeOver h us flash).half h).twn.st = .solo) ∧
    (b.pair.frozen = false →
      exec (.padEnableLapse h) s = .next (s.withBlock (if b.holdsEnable h = true ∧ (b.half h.twin).twn.st = .linkFault then
        (b.dropAll h).raise h.twin 105 else b.dropAll h)))

/-! ### Engines, banks and channels -/

/-- A channel moves to a twin that can take it, for the reasons R595 gives (moveDue); a bound engine that fails is retired and its channel served again (serveChannel: by a candidate of the half, or by the
twin, or the channel is retired); a spare or background engine waiting for no channel that fails is retired and the roles are fitted to what is left; the end of a background engine's job frees it (jobEnded); a live bank that is
retired leaves the live ones (retireBank) (R21-R30, R39-R42, R595). -/
def Obligations.RepairsInService : Prop :=
  ∀ (h : HalfId) (s : State), s.blk.coreRuns h = true →
    let b := s.blk
    let x := b.half h
    let fitted := fun (a : Block) => ((a.onHalf h (fun x => x.fitRoles b.variant false)).placeJobs h).noteDegraded h
    (∀ ch cause, b.linked = true → x.drivesCh ch = true → (x.chan ch).retired = false → (b.half h.twin).canTake b.variant = true →
      b.moveDue h ch cause = true → exec (.channelMove h ch cause) s = .next (s.withBlock (b.moveChan h ch cause))) ∧
    (∀ e cause word, (x.engine e).role = .bound →
      exec (.engineFailure h e cause word) s = .next (s.withBlock ((b.dropEngine h e cause word).serveChannel h (x.engine e).chan cause))) ∧
    (∀ e cause word, (x.engine e).role = .spare → (x.engine e).next = none →
      exec (.engineFailure h e cause word) s = .next (s.withBlock (fitted (b.dropEngine h e cause word)))) ∧
    (∀ e cause word, (x.engine e).role = .background →
      ((x.engine e).next = none → exec (.backgroundEngineFailure h e cause word) s = .next (s.withBlock (fitted (b.dropEngine h e cause word)))) ∧
      (∀ c, (x.engine e).next = some c → exec (.backgroundEngineFailure h e cause word) s = .next (s.withBlock
        ((fitted (b.dropEngine h e cause word)).serveChannel h c cause))) ∧
      (x.jobOver e = true → exec (.backgroundJobEnd h e) s = .next (s.withBlock (b.jobEnded h e)))) ∧
    (∀ bank cause lost, x.pool.live.contains bank = true →
      exec (.poolBankRetire h bank cause lost) s = .next (s.withBlock (b.retireBank h bank cause lost)))

/-- The scheduler and the bus. An idle die served by the half issues the operation chosen, or first the pulse limit it waits for, or takes the credits of the choice; a die whose operation is suspended issues a chosen operation that may run under it. A bus moves the next codeword of its burst (burstStep), or runs
another task (plainTask), the one next in precedence; with none it stands; a suspended operation is resumed once its die is held, a training is due, or no waiting read may run under it and no started read has operations to come, the ceiling allowing; a busy LUN
is polled when its poll falls due, and every busy LUN of a channel when its RB_n rises, which is latched where no core runs or the enable is not held (R146, R156, R160, R162, R163, R169, R215, R216, R227, R410-R414). -/
def Obligations.BusAndSchedule : Prop :=
  ∀ (h : HalfId) (ch die : Nat) (s : State),
    let b := s.blk
    let x := b.half h
    (∀ p, b.serving h ch = true → b.pair.latched = false → x.profile? ch die = some p →
      ((x.die ch die).op = none →
        (∀ m o, b.choose h p (x.die ch die) (x.die ch die).ops = (m, some o) →
          ((o.writes && (x.die ch die).pulseWaits p) = false →
            exec (.schedulerChoice h ch die) s = .next (s.withBlock (b.onHalf h (fun y => y.issueOp ch die p m o none)))) ∧
          ((o.writes && (x.die ch die).pulseWaits p) = true →
            exec (.schedulerChoice h ch die) s = .next (s.withBlock (b.onHalf h (fun y => y.issueSetup ch die noSeq p))))) ∧
        (∀ m, b.choose h p (x.die ch die) (x.die ch die).ops = (m, none) →
          exec (.schedulerChoice h ch die) s = .next (s.withBlock (b.onHalf h (fun y => y.onDie ch die (fun e => { e with credit := m })))))) ∧
      (∀ o m r, (x.die ch die).op = some o → o.phase = .suspended → (x.die ch die).under = none →
        b.choose h p (x.die ch die) ((x.die ch die).ops.filter (fun r => b.mayRun o r)) = (m, some r) →
        exec (.schedulerChoice h ch die) s = .next (s.withBlock (b.onHalf h (fun y => y.issueOp ch die p m r (some (b.senseStep r))))))) ∧
    (b.coreRuns h = true → b.enabled h ch = true →
      (∀ busy data, (x.engineOf b.variant ch).isSome = true →
        ((x.chan ch).nextTask (b.mayTask h ch) = none → exec (.busTask h ch busy data) s = .next (s.withBlock (b.bindDue h))) ∧
        (∀ t p, (x.chan ch).nextTask (b.mayTask h ch) = some t →
          ((((x.chan ch).die t.die).current.bind DieOp.prof).or (x.profile? ch t.die)) = some p →
          (∀ o, ((x.chan ch).die t.die).current = some o → (t.kind = .dataOut ∨ t.kind = .dataIn ∨ t.kind = .fillOut) →
            exec (.busTask h ch busy data) s = .next (s.withBlock ((b.burstStep h ch busy data t p o
              (((x.chan ch).burst.filter (fun u => decide (u.task = t))).getD (b.freshBurst o t))).bindDue h))) ∧
          ((((x.chan ch).die t.die).current = none ∨ (t.kind ≠ .dataOut ∧ t.kind ≠ .dataIn ∧ t.kind ≠ .fillOut)) →
            exec (.busTask h ch busy data) s = .next (s.withBlock
              ((b.plainTask h ch busy data t p (!(x.chan ch).mustPoll.isEmpty)).bindDue h))))) ∧
      (∀ o, (x.die ch die).op = some o → o.phase = .suspended → (x.die ch die).under = none →
        ((x.die ch die).held = true ∨ (x.chan ch).trainDue = true ∨ b.suspOver o (x.die ch die).ops = true) → b.mayResume h ch die = true →
        exec (.resume h ch die) s = .next (s.withBlock (b.onHalf h (fun y => y.onChan ch (fun k =>
          (k.onDie die (fun e => { e with op := some { o with phase := .resuming } })).addTask .resume die))))) ∧
      ((x.die ch die).busy = true →
        exec (.pollDue h ch die) s = .next (s.withBlock (b.onHalf h (fun y => y.onChan ch (fun k => k.needTask .poll die))))) ∧
      exec (.rbNRise h ch) s = .next (s.withBlock (b.onHalf h (fun y => y.onChan ch (fun k =>
        (List.filter (fun e => e.2.busy) k.dies).foldl (fun m e => m.needTask .poll e.1) k))))) ∧
    ((b.coreRuns h = false ∨ b.enabled h ch = false) →
      exec (.rbNRise h ch) s = .next (s.withBlock (b.onHalf h (fun y => y.onChan ch (fun k => { k with rbLatch := true })))))

/-- How a LUN's operation ends, with the engine bindings that are due then made (bindDue) and the status byte's WP_n bit looked at (checkWp). A sense that reads ready, RDY and ARDY set, goes on to its data-out and any other operation ends with its status; a status that is not ready ends nothing; a suspension completes, or finds
the operation ended; an operation that times out is ended with what it ran above, and RESET LUN is asked; a suspension that times out leaves the operation unsuspendable; the gap of a
program or erase elapses; an erase ages by one tick, and starves its die at the mark, once (R157-R159, R165-R169, R213, R223). -/
def Obligations.LunOperationsEnd : Prop :=
  ∀ (h : HalfId) (ch die : Nat) (s : State), s.blk.coreRuns h = true → s.blk.enabled h ch = true →
    let b := s.blk
    let e := (b.half h).die ch die
    (∀ o status, e.current = some o → (o.phase = .busy ∨ o.phase = .unsuspendable) → statusReady status = true →
      (o.isRead = true → b.pair.latched = false →
        exec (.lunReady h ch die status) s = .next (s.withBlock (((b.onHalf h (fun x => x.onChan ch (fun k =>
          (k.onDie die (fun e => { (e.onCurrent (fun o => { o with phase := .dataOut })) with timeouts := 0 })).addTask
            (if o.kind = .fill then .fillOut else .dataOut) die))).checkWp h ch status).bindDue h))) ∧
      (o.isRead = false →
        exec (.lunReady h ch die status) s = .next (s.withBlock (((b.opEnded h ch die o (!status.getLsbD 0)).checkWp h ch status).bindDue h)))) ∧
    (∀ status, statusReady status = false → exec (.lunReady h ch die status) s = .next (s.withBlock ((b.checkWp h ch status).bindDue h))) ∧
    (∀ o status, e.op = some o → o.phase = .suspending →
      (statusReady status = true → e.showsSuspended status = true →
        exec (.suspendReady h ch die status) s = .next (s.withBlock (((b.onHalf h (fun x => x.onDie ch die (fun e =>
          { e with timeouts := 0, op := some { o with phase := .suspended, begun := [] } }))).checkWp h ch status).bindDue h))) ∧
      (statusReady status = true → e.showsSuspended status = false →
        exec (.suspendReady h ch die status) s = .next (s.withBlock (((b.opEnded h ch die o (!status.getLsbD 0)).checkWp h ch status).bindDue h))) ∧
      exec (.suspendTimeout h ch die) s = .next (s.withBlock ((b.onHalf h (fun x => x.onDie ch die (fun e =>
        { e with op := some { o with phase := .unsuspendable } }))).countTimeout h ch die))) ∧
    (∀ o, e.current = some o → (o.phase = .busy ∨ o.phase = .unsuspendable) → o.kind ≠ .reset → o.kind ≠ .setup →
      exec (.operationTimeout h ch die) s = .next (s.withBlock
        ((((e.op.toList ++ e.under.toList).foldl (fun a q => a.endOp q) (b.onHalf h (fun x => x.onChan ch (fun k =>
          ((k.dropTasks die).onDie die (fun e => { e with op := some (resetOp noSeq), under := none, eraseActive := false })).addTask
            .reset die)))).countTimeout h ch die).bindDue h))) ∧
    (∀ o, e.op = some o → exec (.suspendGapElapsed h ch die) s = .next (s.withBlock (b.onHalf h (fun x => x.onDie ch die (fun e =>
      { e with op := e.op.map (fun o =>
        if o.phase = .busy && (o.writes || decide (o.kind = .erase)) then { o with gapDone := true } else o) }))))) ∧
    (e.eraseActive = true →
      let n := satAdd 65535 e.eraseAge 1
      ((b.half h).gen.ersMark = 0 ∨ n < (b.half h).gen.ersMark ∨ e.ageMarked = true →
        exec (.eraseAgeTick h ch die) s = .next (s.withBlock (b.onHalf h (fun x => x.onDie ch die (fun e => { e with
          eraseAge := n, starved := e.starved || false, ageMarked := e.ageMarked || false }))))) ∧
      ((b.half h).gen.ersMark ≠ 0 → (b.half h).gen.ersMark ≤ n → e.ageMarked = false →
        exec (.eraseAgeTick h ch die) s = .next (s.withBlock ((b.onHalf h (fun x => x.onDie ch die (fun e => { e with
          eraseAge := n, starved := e.starved || true, ageMarked := e.ageMarked || true }))).event h 0x16 die (at' ch 0 8 + at' n 32 16)))))

/-- Training, of an enabled channel that is neither retired nor lost, with an engine, before a brown-out. A full training that is due, with its dies ready, takes the first of the codes tried at which every bound die passes, and is due no more; where there is none, the
channel's training has failed (trainFailed). Otherwise the dies whose quick retrain has run are deskewed at the current code (quickDie). A period asks for a quick retrain where it is not 0, a margin alarm for that of its die where a count passes the limit, and the two register
commands for a full and a quick one (R176-R185). -/
def Obligations.ChannelTraining : Prop :=
  (∀ (h : HalfId) (ch us : Nat) (found : List DieTrain) (s : State), s.blk.coreRuns h = true → s.blk.enabled h ch = true →
    let b := s.blk
    let x := b.half h
    let k := x.chan ch
    (k.retired = false → k.padFail = false → b.pair.latched = false → (x.engineOf b.variant ch).isSome = true →
      (k.trainDue = true → (x.trainCodes ch).isEmpty = false → b.trainReady h ch = true →
        (∀ r, (x.trainTries ch).find? (fun r => k.allPass found r) = some r →
          exec (.channelTraining h ch found us) s = .next (s.withBlock ((b.onHalf h (fun x => x.onChan ch (fun k =>
            (k.trainedAt found ((x.trainTries ch).filter (fun q => decide (r ≤ q))) r us).trainBus
              (trainCycles (x.trainDies ch) ((x.trainTries ch).filter (fun q => decide (r ≤ q))))))).releaseHeld h ch))) ∧
        ((x.trainTries ch).find? (fun r => k.allPass found r) = none →
          exec (.channelTraining h ch found us) s = .next (s.withBlock (b.trainFailed h ch found (x.trainTries ch) us)))) ∧
      (k.trainDue = false → exec (.channelTraining h ch found us) s = .next (s.withBlock (b.onHalf h (fun x => x.onChan ch (fun k =>
        (found.filter (fun t => k.trainRun.contains t.die && decide (t.code = k.rate))).foldl Chan.quickDie k)))))) ∧
    (∀ die counts, k.trained = true → k.cfg.monEn = true → counts.any (fun n => decide (k.cfg.monLimit < n)) = true →
      exec (.marginAlarm h ch die counts) s = .next (s.withBlock (b.onHalf h (fun x => x.onChan ch (fun k => { (k.askTrain [die]) with alarm := true }))))) ∧
    (k.trained = true → k.retrainMs ≠ 0 →
      exec (.retrainPeriod h ch) s = .next (s.withBlock (b.onHalf h (fun x => x.onChan ch (fun k => k.askRetrain false)))))) ∧
  (∀ (h : HalfId) (ch : Nat) (s : State), s.blk.Takes h →
    let b := s.blk.taken h causeRegister
    (b.enabled h ch = true →
      exec (.chnCtlRetrain h ch) s = .next (s.withBlock (b.onHalf h (fun x => x.onChan ch (fun k => k.askRetrain true)))) ∧
      exec (.chnCtlQuick h ch) s = .next (s.withBlock (b.onHalf h (fun x => x.onChan ch (fun k => k.askRetrain false))))) ∧
    (b.enabled h ch = false →
      exec (.chnCtlRetrain h ch) s = .next (s.withBlock b) ∧ exec (.chnCtlQuick h ch) s = .next (s.withBlock b))) ∧
  (∀ (k : Chan) (found : List DieTrain) (tried : List Nat) (r us : Nat),
    (k.trainedAt found tried r us).rate = r ∧ (k.trainedAt found tried r us).trained = true ∧ (k.trainedAt found tried r us).trainReq = 0 ∧
      (k.trainedAt found tried r us).trainUs = us) ∧
  (∀ k : Chan, k.padRetired = false → k.retired = false →
    (k.askRetrain true).trainReq = Nat.max k.trainReq 2 ∧ k.askRetrain false = k.askTrain (k.bound.map Prod.fst))

/-! ### The read ladder, the decode pool and the arbiter -/

/-- The ladder. An image that arrives passes the injector (entering) and is classed (arrived), and its codeword goes on, to a core's request where it is to be decoded; a core that reports frees itself, and the result of the decode (CoreJob.decode) gives its codeword the decoded data, or takes it on to the
next re-read or step; a core whose success fails the final syndrome check is retired; step 5 rebuilds a codeword from its members once they are done, or leaves it uncorrectable
(R237, R242, R244, R249-R259, R290). -/
def Obligations.ReadLadder : Prop :=
  ∀ (h : HalfId) (s : State), s.blk.coreRuns h = true →
    let b := s.blk
    (∀ seq i raw g c k, b.ctxOf seq = some (g, c) → c.cws[i]? = some k → b.driver (recCh k.idx) = some h → k.st = .arriving →
      let e := b.entering h seq k raw
      let j := e.1.arrived h c k e.2
      (j.st = .decode → exec (.codewordArrival h seq i raw) s = .next (s.withBlock
        (((e.1.putCw seq i j).askDecode k.idx false).settle seq))) ∧
      (j.st = .soft → exec (.codewordArrival h seq i raw) s = .next (s.withBlock
        (((e.1.putCw seq i j).askDecode k.idx true).settle seq))) ∧
      (j.st ≠ .decode → j.st ≠ .soft → exec (.codewordArrival h seq i raw) s = .next (s.withBlock ((e.1.putCw seq i j).settle seq)))) ∧
    (∀ soft core w g c k, (b.half h).dec.busy.find? (fun e => decide (e.id = coreId soft core)) = some w → b.ctxOf w.seq = some (g, c) →
      c.cws[w.place]? = some k →
      let d := w.decode soft (b.cwShort k) k
      let b1 := b.onHalf h (fun x => x.coreDone (coreId soft core))
      (d.ok = true → exec (.decodeDone h soft core false) s = .next (s.withBlock (b.retireCore h soft core 8))) ∧
      (d.ok = true → exec (.decodeDone h soft core true) s = .next (s.withBlock
        ((b1.putCw w.seq w.place (b1.decoded k soft d.image)).settle w.seq))) ∧
      (∀ final, d.ok = false → soft = true → exec (.decodeDone h soft core final) s = .next (s.withBlock
        ((b1.putCw w.seq w.place k.toRecon).settle w.seq))) ∧
      (∀ final, d.ok = false → soft = false → exec (.decodeDone h soft core final) s = .next (s.withBlock
        ((b1.putCw w.seq w.place (k.hardFailed d.unsat (!(b1.half h).dec.soft.isEmpty))).settle w.seq)))) ∧
    (∀ seq i g c k, b.ctxOf seq = some (g, c) → c.cws[i]? = some k → b.keeper (recCh k.idx) = some h → k.st = .recon → c.membersDone i = true →
      let members := c.cws.filterMap (fun m => m.memberData i)
      (∀ d, b.reconstruct h k members = some d →
        exec (.stripeReconstruction h seq i) s = .next (s.withBlock (((b.putCw seq i
          { k with st := .done, fin := some .recon, bits := 0xFFFE, data := d, poison := false }).onCtx seq (fun c => c.spend i)).settle seq))) ∧
      (b.reconstruct h k members = none →
        exec (.stripeReconstruction h seq i) s = .next (s.withBlock (((b.putCw seq i
          { k with st := .done, step := 6, fin := some .unc, bits := 0xFFFF, data := zeroPayload, poison := true }).onCtx seq
            (fun c => c.spend i)).settle seq))))

/-- The arbiter's boundaries, of a half that is not falling asleep: the pool's draw and the grant of a decode core; and the commit of shadowed settings, at once where no request is pending, and the hold watchdog's
record with its holder treated as failed (R417-R426). -/
def Obligations.ArbiterBoundaries : Prop :=
  (∀ (h : HalfId) (s : State), s.blk.coreRuns h = true →
    ((s.blk.half h).falling = false → exec (.poolArbitration h) s = .next (s.withBlock (s.blk.onHalf h (fun x => x.onArb (fun a => { a with
      pool := a.pool.poolBoundary (Config.poolPorts s.blk.variant) })))) ∧
      (∀ soft, exec (.decodeArbitration h soft) s = .next (s.withBlock (s.blk.grantCore h soft)))) ∧
    (∀ who, (s.blk.half h).arb.pool.held.contains who = true →
      exec (.holdWatchdog h false who) s = .next (s.withBlock ((s.blk.onHalf h (fun x => x.onArb (fun a => a.fire false who))).failHolder h who))) ∧
    (∀ who, (s.blk.half h).arb.dec.held.contains who = true →
      exec (.holdWatchdog h true who) s = .next (s.withBlock ((s.blk.onHalf h (fun x => x.onArb (fun a => a.fire true who))).failHolder h who)))) ∧
  (∀ (h : HalfId) (s : State), s.blk.Takes h → exec (.arbCommitGo h) s = .next (s.withBlock ((s.blk.taken h causeRegister).onHalf h (fun x =>
    x.onArb (fun a => { a with pool := a.pool.commit, dec := a.dec.commit }))))) ∧
  (∀ c : ArbCls, (c.reqs = [] → c.commit.cur = c.shadow ∧ c.commit.pend = none) ∧
    (c.reqs ≠ [] → c.commit.cur = c.cur ∧ c.commit.pend = some c.shadow)) ∧
  (∀ (a : Arb) (dec : Bool) (who : Nat), (a.fire dec who).fired = true ∧ (a.fire dec who).who = who ∧ (a.fire dec who).cls = dec ∧
    (a.fire dec who).fireCnt = Nat.min 65535 (a.fireCnt + 1))

/-- A write of an LFSR is stored, zero as 1, and set at its class's next boundary, before the step; a step never reaches zero from another value. -/
def Obligations.LfsrWrites : Prop :=
  (∀ (h : HalfId) (value : Word) (s : State), s.blk.Takes h →
    let v : BitVec 23 := if value.setWidth 23 = 0 then 1 else value.setWidth 23
    exec (.arbLfsrWrite h false value) s = .next (s.withBlock ((s.blk.taken h causeRegister).onHalf h (fun x => x.onArb (fun a =>
      { a with pool := { a.pool with lfsrWr := some v } })))) ∧
    exec (.arbLfsrWrite h true value) s = .next (s.withBlock ((s.blk.taken h causeRegister).onHalf h (fun x => x.onArb (fun a =>
      { a with dec := { a.dec with lfsrWr := some v } }))))) ∧
  (∀ (c : ArbCls) (v : BitVec 23), c.lfsrWr = some v → c.boundary.lfsr = lfsrStep v ∧ c.boundary.lfsrWr = none) ∧
  (∀ c : ArbCls, c.lfsrWr = none → c.boundary.lfsr = lfsrStep c.lfsr) ∧
  (∀ v : BitVec 23, v ≠ 0 → lfsrStep v ≠ 0)

/-! ### DMA, memories and gutters -/

/-- The host DMA engine. A free slot is taken for the first command that may start a stream; with room for a read at the port, a descriptor is walked (walk), and a chain that ends, or a descriptor that is
invalid or poisoned, ends the stream with XFER_ERROR (shortChain); a burst leaves (burstOne) while neither 128 reads nor 128 writes are outstanding; a read's data returns (readReturn), or ends the read-back; a response
answers the oldest write of its slot (writeAnswered); a quiet stream completes, after its read-back where it owes one; DROP acts only on the generation it names, and on
a stream that writes only until its last write has left
(R48, R435, R436, R440-R449, R453-R456). -/
def Obligations.DmaStreams : Prop :=
  (∀ (h : HalfId) (s : State), s.blk.coreRuns h = true →
    let b := s.blk
    let x := b.half h
    (∀ q c n, b.pair.latched = false → List.find? (fun e => e.2.mayStart b.variant) x.que.ctxs = some (q, c) →
      x.freeStream b.variant = some n → exec (.dmaStreamStart h) s = .next (s.withBlock (b.beginStream h n q c))) ∧
    (∀ slot c, x.ctx? (x.stream slot).seq = some c → (x.stream slot).active = true → (x.stream slot).ended = false →
      (x.stream slot).desc = none → (x.stream slot).inMeta = false → x.dma.reads.length < 128 →
      (∀ poison, exec (.descriptorFetch h slot none poison) s = .next (s.withBlock (b.shortChain h slot))) ∧
      (∀ d poison, (poison = true ∨ d.invalid (c.writesOut || c.compares) = true) →
        exec (.descriptorFetch h slot (some d) poison) s = .next (s.withBlock
          ((b.onHalf h (fun x => x.writeMark (some (x.stream slot).nextAddr.toNat) 4)).shortChain h slot))) ∧
      (∀ d, d.invalid (c.writesOut || c.compares) = false →
        exec (.descriptorFetch h slot (some d) false) s = .next (s.withBlock (b.walk h slot c d)))) ∧
    (∀ slot c d, x.ctx? (x.stream slot).seq = some c → (x.stream slot).desc = some d → (x.stream slot).active = true →
      (x.stream slot).ended = false → x.dma.writes.length < 128 → x.dma.reads.length < 128 →
      exec (.dmaBurst h slot) s = .next (s.withBlock (b.burstOne h slot c (x.stream slot) d))) ∧
    (∀ slot data poison err r, x.dma.reads.find? (fun r => decide (r.slot = some slot)) = some r →
      (r.back = false → exec (.dmaReadReturn h slot data poison err) s = .next (s.withBlock (b.readReturn h slot r data poison err))) ∧
      (r.back = true → exec (.dmaReadReturn h slot data poison err) s = .next (s.withBlock (b.onHalf h (fun x =>
        (x.onDma (fun d => d.endRead (fun q => decide (q = r)))).onStream slot (fun t => { t with rbDone := true })))))) ∧
    (∀ slot err pre w gen descNo rest, x.dma.writes = pre ++ w :: rest → w.kind = .stream slot gen descNo →
      (∀ v ∈ pre, ∀ n d, v.kind ≠ .stream slot n d) →
      exec (.dmaWriteResponse h slot err) s = .next (s.withBlock (b.writeAnswered h w slot gen descNo err))) ∧
    (∀ slot, (x.stream slot).active = true → (x.stream slot).ended = true → (x.stream slot).outRd = 0 →
      ((x.stream slot).respWait = false ∨ (x.stream slot).outWr = 0) →
      ((x.stream slot).owesBack = false → exec (.dmaStreamComplete h slot) s = .next (s.withBlock (b.closeStream h slot))) ∧
      ((x.stream slot).owesBack = true → (x.stream slot).rbIssued = false →
        exec (.dmaStreamComplete h slot) s = .next (s.withBlock (b.onHalf h (fun x => x.askBack slot)))))) ∧
  (∀ (h : HalfId) (slot : Nat) (value : Word) (s : State), s.blk.Takes h →
    let b := s.blk.taken h causeRegister
    let t := (b.half h).stream slot
    (t.active = true → (t.dir = true → t.ended = false) → value.bit 0 = true → value.field 8 8 = t.gen.toNat →
      exec (.dmaStreamDrop h slot value) s = .next (s.withBlock (b.dropStream h slot))) ∧
    ((t.active = false ∨ (t.dir = true ∧ t.ended = true) ∨ value.bit 0 = false ∨ value.field 8 8 ≠ t.gen.toNat) →
      exec (.dmaStreamDrop h slot value) s = .next (s.withBlock b)))

/-- The record window, ageing, the drive seed, the protected memories and MIN_FREE. A capture of an existing record with no poisoned half reads its 16 bytes, from the store where the half serves it and else from the mirror, and a capture of one that does not exist reads zeros, marked absent; a walk (ageWalk) goes over the
records where the period is not 0, an aged record losing NRU, or raising AGE, saturating at 7, where its unit is open or full; a seed write is refused while data stands under the old seed, and else sets the seed; a fill sets the written flags of the
memories named; a clear zeroes the counts it names; the scrubber, where its interval is not 0, moves on by one word of a memory other than the pool, counting the error it finds in a written word that is not poisoned
(R118, R124, R236, R471-R473, R650). -/
def Obligations.StoresAndMemories : Prop :=
  (∀ (h : HalfId) (value : Word) (s : State), s.blk.Takes h →
    let b := s.blk.taken h causeRegister
    let i := value.field 0 18
    (b.unitExists i = true → (b.half h).capturePoison (b.serves h i) i = 0 →
      exec (.recIndexWrite h value) s = .next (s.withBlock (b.onHalf h (fun x => { x with store := { x.store with
        index := i, valid := true, fromMirror := !b.serves h i, absent := false, poison := 0
        data := (if b.serves h i then Tab.get Rec.blank (b.half h).store.recs i else Tab.get Rec.blank (b.half h).mir.recs i).bytes } })))) ∧
    (b.unitExists i = false → exec (.recIndexWrite h value) s = .next (s.withBlock (b.onHalf h (fun x => { x with store := { x.store with
      index := i, valid := true, fromMirror := !b.serves h i, absent := true, poison := 0, data := 0 } })))) ∧
    exec (.recAgeWrite h value) s = .next (s.withBlock (b.onHalf h (fun x => { x with store := { x.store with
      periodMs := value.field 0 16 } }))) ∧
    ((b.ha.store.recs.any (fun e => holdsSeed e.2) = true ∨ b.hb.store.recs.any (fun e => holdsSeed e.2) = true) →
      exec (.decRandSeedWrite h value) s = .next (s.withBlock ((b.onHalf .a (fun x => { x with dec := { x.dec with refused := true } })).onHalf
        .b (fun x => { x with dec := { x.dec with refused := true } })))) ∧
    (b.ha.store.recs.any (fun e => holdsSeed e.2) = false → b.hb.store.recs.any (fun e => holdsSeed e.2) = false →
      ∃ t, exec (.decRandSeedWrite h value) s = .next t ∧ t.pending = s.pending ∧ t.blk.pair.seed = BitVec.ofNat 31 (value.field 0 31) ∧
        (∀ k, (t.blk.half k).dec.refused = (b.half k).dec.refused)) ∧
    (∀ m, exec (.memClr h m value) s = .next (s.withBlock (b.onHalf h (fun x => x.onMem m (fun y =>
      y.clear (value.bit 0) (value.bit 1)))))) ∧
    (∀ mask : BitVec 5, exec (.memInitFill h mask) s = .next (s.withBlock (b.onHalf h (fun x =>
      ((List.range 5).filter mask.getLsbD).foldl (fun y m => y.onMem m (fun z => { z with allWritten := true, fillDone := true })) x)))) ∧
    exec (.poolMinClr h) s = .next (s.withBlock (b.onHalf h (fun x => { x with pool := { x.pool with minFree := b.poolFree h } })))) ∧
  (∀ (h : HalfId) (s : State), s.blk.coreRuns h = true →
    ((s.blk.half h).store.periodMs ≠ 0 → exec (.ageingWalk h) s = .next (s.withBlock (s.blk.ageWalk h))) ∧
    ((s.blk.half h).store.periodMs = 0 → exec (.ageingWalk h) s = .next s) ∧
    (∀ m hit lost, (s.blk.half h).mems.interval ≠ 0 → 0 < m → m < 5 →
      let y := (s.blk.half h).mem m
      let b1 := s.blk.onHalf h (fun x => x.onMem m (Mem.scrubNext (Config.memWords s.blk.variant m)))
      exec (.scrubWord h m none hit lost) s = .next (s.withBlock b1) ∧
      (y.isWritten hit = true → y.poisoned.contains (y.scrubAt, hit) = false →
        exec (.scrubWord h m (some false) hit lost) s = .next (s.withBlock (b1.onHalf h (fun x => x.onMem m (fun z =>
          { z with ce := satAdd 65535 z.ce 1, word := y.scrubAt, lastUe := false, valid := true })))) ∧
        exec (.scrubWord h m (some true) hit lost) s = .next (s.withBlock (b1.uncorrected h m y.scrubAt hit lost)))) ∧
    (∀ hit lost, (s.blk.half h).mems.interval = 0 → ∀ m error, exec (.scrubWord h m error hit lost) s = .next s)) ∧
  (∀ r : Rec, (aged r).wp = r.wp ∧ (aged r).valid = r.valid ∧ (aged r).state = r.state ∧
    (r.state = .opened ∨ r.state = .full → (aged r).nru = false ∧
      (aged r).age.toNat = (if r.nru then 0 else Nat.min 7 (r.age.toNat + 1))) ∧
    (r.state ≠ .opened → r.state ≠ .full → aged r = r))

/-- Gutters that do not spill. A read of GUT_RDg returns the word at the read pointer and moves it, with TMO cleared, or stalls where no item is readable; MARK saves
the pointer, REWIND goes back to the mark, or to the oldest item, RELEASE frees the items before the pointer and the mark; UNSTALL ends the stalled reads with zero; the
timeout sets TMO where an unread item waits. Of a gutter that spills: a read returns zero, a write of SPRD frees slots (spillFree), an acknowledgement ends the oldest item's writes (spillAck), and an error stops the spill with its writes given up (R478-R483). -/
def Obligations.Gutters : Prop :=
  (∀ (h : HalfId) (g : Nat) (s : State), s.blk.Takes h → g < Config.gutters s.blk.variant →
    let b := s.blk.taken h causeRegister
    let u := (b.half h).gutter g
    (u.spilling = false →
      (∀ w p, u.peek = some (w, p) → exec (.gutRdRead h g) s = .next (s.withBlock (b.onHalf h (fun x =>
        { x.onGutter g (fun _ => { u.advance with tmo := false }) with port := { ok := true, data := w.toNat, poison := p } })))) ∧
      (u.peek = none → exec (.gutRdRead h g) s = .next (s.withBlock (b.onHalf h (fun x =>
        x.onGutter g (fun _ => { u with stalled := u.stalled + 1, tmo := false }))))) ∧
      exec (.gutCtlMark h g) s = .next (s.withBlock (b.onHalf h (fun x => x.onGutter g (fun _ => { u with mark := some u.pointer })))) ∧
      exec (.gutCtlRewind h g) s = .next (s.withBlock (b.onHalf h (fun x => x.onGutter g (fun _ =>
        { u with rdItem := u.mark.getD u.oldest, rdWord := 0 })))) ∧
      exec (.gutCtlRelease h g) s = .next (s.withBlock (b.onHalf h (fun x => x.onGutter g (fun _ =>
        { u with items := u.items.filter (fun i => decide (u.rdItem ≤ i.num)), mark := none })))) ∧
      (u.stalled ≠ 0 → exec (.gutCtlUnstall h g) s = .next (s.withBlock (b.onHalf h (fun x =>
        { x.onGutter g (fun _ => { u with stalled := 0 }) with port := { ok := true, data := 0, poison := false } }))))) ∧
    (u.spilling = true → exec (.gutRdRead h g) s = .next (s.withBlock (b.onHalf h (fun x =>
      { x.onGutter g (fun _ => { u with tmo := false }) with port := { ok := true, data := 0, poison := false } })))) ∧
    (∀ value, exec (.gutSprdWrite h g value) s = .next (s.withBlock (b.onHalf h (fun x => x.spillFree g value))))) ∧
  (∀ (h : HalfId) (g : Nat) (s : State), s.blk.pair.frozen = false → s.blk.held h = false →
    ((s.blk.half h).gutter g).tmoUs ≠ 0 → 0 < ((s.blk.half h).gutter g).unread →
    exec (.gutterTimeout h g) s = .next (s.withBlock (s.blk.onHalf h (fun x => x.onGutter g (fun _ =>
      { (s.blk.half h).gutter g with tmo := true }))))) ∧
  (∀ (h : HalfId) (g : Nat) (s : State), s.blk.coreRuns h = true →
    exec (.spillWriteAck h g) s = .next (s.withBlock (s.blk.onHalf h (fun x => x.spillAck g))) ∧
    (((s.blk.half h).gutter g).spOut ≠ [] → exec (.spillError h g) s = .next (s.withBlock (s.blk.onHalf h (fun x =>
      { x.onGutter g (fun u => { u with spillErr := true, spStop := true, spOut := [] }) with
        dma := x.dma.keepWrites (fun m => decide (m.kind ≠ .spill g)) })))))

/-! ### Governors, interrupts, power and keyed resets -/

/-- Governors. A sample of an enabled slot runs (sampleOne) but at stage 5, where nothing is sampled; EN starts a slot that stands still and meets no other of its kind and zone,
sets CONFLICT where it does, and stops a running one, its output and fallback withdrawn; GO lets shadows pend for a running slot and takes them at
once for another; TRC_MODE restarts recording; a trace select captures one sample (R486-R491, R503, R505). -/
def Obligations.Governors : Prop :=
  (∀ (h : HalfId) (n : Nat) (s : State), s.blk.coreRuns h = true → ((s.blk.half h).loops.slot n).en = true →
    ((s.blk.half h).boot.stage ≠ 5 → exec (.loopSample h n) s = .next (s.withBlock (s.blk.sampleOne h n))) ∧
    ((s.blk.half h).boot.stage = 5 → exec (.loopSample h n) s = .next s)) ∧
  (∀ (h : HalfId) (n : Nat) (s : State), s.blk.Takes h → n < Config.loops s.blk.variant →
    let b := s.blk.taken h causeRegister
    let l := (b.half h).loops
    ((l.slot n).en = false → l.conflicts n = true → exec (.loopEnable h n true) s = .next (s.withBlock (b.onHalf h (fun x =>
      { x with loops := { x.loops with conflict := true } })))) ∧
    ((l.slot n).en = false → l.conflicts n = false → exec (.loopEnable h n true) s = .next (s.withBlock (b.startLoop h n))) ∧
    ((l.slot n).en = true → exec (.loopEnable h n true) s = .next (s.withBlock b) ∧
      exec (.loopEnable h n false) s = .next (s.withBlock (b.onHalf h (fun x => { x with loops := x.loops.stop n })))) ∧
    ((l.slot n).en = false → exec (.loopEnable h n false) s = .next (s.withBlock b)) ∧
    (∀ mode : BitVec 2, exec (.trcModeWrite h n mode) s = .next (s.withBlock (b.onHalf h (fun x => { x with
      loops := x.loops.onSlot n (fun y => { y with trcMode := mode.toNat, trcStop := false, trace := [], postLeft := none }) })))) ∧
    exec (.loopCommitGo h) s = .next (s.withBlock (b.onHalf h (fun x => { x with loops := x.loops.commit (Config.loops s.blk.variant) }))) ∧
    (∀ value, exec (.loopTrcSelWrite h value) s = .next (s.withBlock (b.onHalf h (fun x =>
      { x with loops := x.loops.select (value.field 0 3) (value.field 16 10) }))))) ∧
  (∀ (l : Loops) (n : Nat), (l.stop n).fallback.contains n = false ∧ (l.stop n).alarm = l.alarm ∧ (l.stop n).bucket = l.bucket)

/-- Interrupts. The eight commands of the concentrator, and the claim's winner: an eligible source of the highest PRIO, which becomes active, its count taken
where it is an edge source; without an eligible source the claim is spurious and counted; the filter sets a level source's level, and one that rises at an unmasked source wakes a half
that is not in PS0 (R509, R511-R514, R518, R519, R522). -/
def Obligations.Interrupts : Prop :=
  (∀ (h : HalfId) (k n : Nat) (value : Word) (s : State), s.blk.Takes h →
    let b := s.blk.taken h causeRegister
    let v := s.blk.variant
    exec (.irqClaim h k) s = .next (s.withBlock (b.onHalf h (fun x => { x with
      irq := x.irq.claim k, port := { ok := true, data := x.irq.claimValue k, poison := false } }))) ∧
    exec (.irqEoi h k value) s = .next (s.withBlock (b.onHalf h (fun x => { x with irq := x.irq.eoi k (value.field 12 4) (value.field 16 10) }))) ∧
    exec (.irqPendSet h n value) s = .next (s.withBlock (b.onHalf h (fun x => { x with irq := x.irq.pendSet v n value }))) ∧
    exec (.irqPendClear h n value) s = .next (s.withBlock (b.onHalf h (fun x => { x with irq := x.irq.pendClear v n value }))) ∧
    exec (.irqMaskSet h n value) s = .next (s.withBlock (b.onHalf h (fun x => { x with irq := x.irq.maskSet v n value }))) ∧
    exec (.irqMaskClear h n value) s = .next (s.withBlock (b.onHalf h (fun x => { x with irq := x.irq.maskClear v n value }))) ∧
    exec (.irqCommitGo h) s = .next (s.withBlock (b.onHalf h (fun x => { x with irq := x.irq.commit })))) ∧
  (∀ (h : HalfId) (n : Nat) (s : State), s.blk.pair.frozen = false → s.blk.held h = false → srcExists s.blk.variant n = true →
    srcEdge n = false →
    let b := s.blk.onHalf h (fun x => { x with irq := (x.irq.onSrc n (fun y => { y with level := x.rawLevel n })).assign })
    ((s.blk.half h).pwr.state = 0 → exec (.irqFilterPass h n) s = .next (s.withBlock b)) ∧
    (1 ≤ (s.blk.half h).pwr.state → ((s.blk.half h).irq.src n).mask = false → ((s.blk.half h).irq.src n).level = false →
      ((b.half h).irq.src n).level = true → exec (.irqFilterPass h n) s = .next (s.withBlock (b.wake h 4)))) ∧
  (∀ (i : Irq) (k n : Nat) (y : Src), i.winner k = some (n, y) →
    (n, y) ∈ i.srcs ∧ i.eligible n y k = true ∧ (∀ e ∈ i.srcs, i.eligible e.1 e.2 k = true → e.2.prio ≤ y.prio) ∧
      (Tab.risingFrom 0 i.srcs = true → ∀ e ∈ i.srcs, i.eligible e.1 e.2 k = true → e.2.prio = y.prio → n ≤ e.1)) ∧
  (∀ (i : Irq) (k : Nat), i.winner k = none →
    (∀ e ∈ i.srcs, i.eligible e.1 e.2 k = false) ∧ i.claimValue k = 0x03FF0000 ∧
      ((i.claim k).proc k).spurCnt = satAdd 65535 (i.proc k).spurCnt 1 ∧ ((i.claim k).proc k).run = (i.proc k).run)

/-- Power states. The idle timer takes a half from PS0 to PS1 and from PS1 towards PS2 where the conditions hold: with its twin linked it tells it first, and else drops its enables at once; from PS2 it takes it to PS3, telling the twin, where PS_MAX allows; a wake event
wakes the half with its cause, but not out of PS4 for a brown-out, nor out of any state but PS1 for a retrain; the twin's announcements are taken (twinAnnounces), and its wake message wakes the half;
a beacon toggle counts while the half watches; CLK_DEC gates while the decode pool is quiet (R183, R529, R533-R540, R544). -/
def Obligations.PowerStates : Prop :=
  (∀ (h : HalfId) (s : State), s.blk.pair.frozen = false →
    let b := s.blk
    (b.held h = false → (b.half h).boot.coreLock = true → (b.half h).pwr.entering = false → b.canPs1 h = true → (b.half h).pwr.state = 0 →
      exec (.idleTimerExpiry h) s = .next (s.withBlock (b.onHalf h (fun y => { y with pwr := { y.pwr with state := 1, offered := false } })))) ∧
    (b.held h = false → (b.half h).boot.coreLock = true → b.canPs1 h = true → (b.half h).canPs2 = true → (b.half h).pwr.state = 1 →
      (b.linked = false → exec (.idleTimerExpiry h) s = .next (s.withBlock ((b.dropAll h).onHalf h (fun y =>
        { y with pwr := { y.pwr with state := 2, entering := false, decGated := true } })))) ∧
      (b.linked = true → (b.half h).pwr.entering = false → exec (.idleTimerExpiry h) s = .next (s.withBlock
        ((b.send h (.sleep 2)).onHalf h (fun y => { y with pwr := { y.pwr with entering := true } }))))) ∧
    (b.held h = false → (b.half h).boot.coreLock = true → (b.half h).pwr.state = 2 → 3 ≤ (b.half h).pwr.psMax →
      exec (.idleTimerExpiry h) s = .next (s.withBlock ((b.send h (.sleep 3)).onHalf h (fun y => { y with pwr := { y.pwr with state := 3 } })))) ∧
    (∀ n, b.incoming h = some (.sleep n) → exec (.sleepMessage h) s = .next (s.withBlock ((b.accepted h).twinAnnounces h n true))) ∧
    (b.incoming h = some .awake → exec (.awakeMessage h) s = .next (s.withBlock ((b.accepted h).twinAnnounces h 0 false))) ∧
    (b.incoming h = some .wake → exec (.wakeMessage h) s = .next (s.withBlock ((b.accepted h).wake h 5)))) ∧
  (∀ (h : HalfId) (cause : Nat) (s : State),
    (¬(cause = 6 ∧ (s.blk.half h).pwr.state = 4) → ¬(cause = 7 ∧ (s.blk.half h).pwr.state ≠ 1) →
      exec (.wakeEvent h cause) s = .next (s.withBlock (s.blk.wake h cause))) ∧
    ((cause = 6 ∧ (s.blk.half h).pwr.state = 4) ∨ (cause = 7 ∧ (s.blk.half h).pwr.state ≠ 1) → exec (.wakeEvent h cause) s = .next s)) ∧
  (∀ (h : HalfId) (s : State), s.blk.Takes h → exec (.pwrCtlWake h) s = .next (s.withBlock (s.blk.taken h 8))) ∧
  (∀ (b : Block) (h : HalfId) (cause : Nat), b.pair.frozen = false → (b.half h).pwr.state = 1 →
    ((b.wake h cause).half h).pwr.state = 0 ∧ ((b.wake h cause).half h).pwr.wakeCause = cause ∧
      ((b.wake h cause).half h).pwr.entering = false ∧ (b.wake h cause).pair = b.pair) ∧
  (∀ (h : HalfId) (s : State),
    ((s.blk.half h).pwr.watching = true → exec (.beaconToggle h) s = .next (s.withBlock (s.blk.onHalf h (fun _ =>
      { s.blk.half h with pwr := { (s.blk.half h).pwr with beacons := (s.blk.half h).pwr.beacons + 1 } })))) ∧
    ((s.blk.half h).arb.dec.held = [] → (s.blk.half h).arb.dec.reqs = [] → exec (.clkDecGate h) s = .next (s.withBlock (s.blk.onHalf h (fun _ =>
      { s.blk.half h with pwr := { (s.blk.half h).pwr with decGated := true } })))))

/-- Keyed resets. A wrong key only sets RST_REFUSED, and so does a warm reset of a half that holds a context or a hold; an accepted warm reset clears gutters, interrupts
and governors, leaves no queue but 0, and keeps records, journal, general settings, channels and the reset status; a channel reset of a channel the half drives asks every bound die for its reset, and then each die found again takes its page anew, or is lost where its READ ID is another's;
FORMAT marks a blank half formatted, and drives WP_n high where it is ready; it does nothing to another (R623, R624, R628, R634, R638, R647). -/
def Obligations.KeyedResets : Prop :=
  ∀ (h : HalfId) (key : BitVec 16) (s : State), s.blk.Takes h →
    let b := s.blk.taken h causeRegister
    let refused := s.withBlock (b.onHalf h (fun x => { x with boot := { x.boot with rstRefused := true } }))
    (key ≠ resetKey → exec (.warmReset h key) s = .next refused ∧ exec (.format h key) s = .next refused ∧
      ∀ ch finds, exec (.channelReset h ch key finds) s = .next refused) ∧
    (key = resetKey →
      (((b.half h).que.ctxs ≠ [] ∨ (b.half h).pool.holds ≠ []) → exec (.warmReset h key) s = .next refused) ∧
      ((b.half h).que.ctxs = [] → (b.half h).pool.holds = [] →
        ∃ t, exec (.warmReset h key) s = .next t ∧ t.pending = s.pending ∧
          let y := t.blk.half h
          y.gut = Gutters.reset ∧ y.irq = Irq.reset ∧ y.loops = Loops.reset ∧ y.que.adopted = [] ∧
          (∀ e ∈ y.que.queues, e.1 = 0) ∧ y.que.burst = (b.half h).que.burst ∧ y.que.admRing = (b.half h).que.admRing ∧
          y.store = (b.half h).store ∧ y.fly = (b.half h).fly ∧ y.gen = (b.half h).gen ∧ y.chans = (b.half h).chans ∧ y.boot = (b.half h).boot) ∧
      (∀ ch finds,
        ((b.half h).drivesCh ch = true → exec (.channelReset h ch key finds) s = .next (s.withBlock
          ((finds.filter (fun f => decide (f.ch = ch) && decide (f.die < strapDies (b.half h).boot.strap))).foldl (fun a f =>
            if ((a.half h).die ch f.die).readId = f.readId then a.onHalf h (fun x => x.onChan ch (fun k =>
                { (k.onDie f.die (fun e => { e with ext := f.ext.bind ExtPage.extension, zq := f.zq })) with
                  cycles := k.cycles ++ discoverCycles f (k.die f.die).family }))
            else a.loseDie h f)
            (b.onHalf h (fun x => x.onChan ch (fun k => k.bound.foldl (fun (m : Chan) e => m.onDie e.1 Die.askReset) k)))))) ∧
        ((b.half h).drivesCh ch = false → exec (.channelReset h ch key finds) s = .next (s.withBlock b))) ∧
      ((b.half h).boot.blank = true →
        let b1 := b.onHalf h (fun y => { y with boot := { y.boot with formatted := true } })
        ((b.half h).boot.stage ≠ 7 → exec (.format h key) s = .next (s.withBlock b1)) ∧
        ((b.half h).boot.stage = 7 → exec (.format h key) s = .next (s.withBlock (b1.driveWp h true)))) ∧
      ((b.half h).boot.blank = false → exec (.format h key) s = .next (s.withBlock b)))
end

