-- ==== Sys2Proof/Laws/State.lean ====
section
/-!
SUPPORT. What the updates of the state leave in each of its fields: one lemma per field per update.
-/

namespace Sys2Proof.Machine

open Sys2Proof

/-! ### The block and its halves -/

@[simp] theorem HalfId.twin_ne (h : HalfId) : h.twin ≠ h := by cases h <;> decide

@[simp] theorem HalfId.ne_twin (h : HalfId) : h ≠ h.twin := by cases h <;> decide

@[simp] theorem HalfId.twin_twin (h : HalfId) : h.twin.twin = h := by cases h <;> rfl

@[simp] theorem run_eq (f : Block → Block) (s : State) : run f s = .next { s with blk := f s.blk } := rfl

@[simp] theorem Block.half_a (b : Block) : b.half .a = b.ha := rfl

@[simp] theorem Block.half_b (b : Block) : b.half .b = b.hb := rfl

@[simp] theorem Block.half_onHalf (b : Block) (h : HalfId) (f : Half → Half) : (b.onHalf h f).half h = f (b.half h) := by
  cases h <;> rfl

@[simp] theorem Block.half_onHalf_twin (b : Block) (h : HalfId) (f : Half → Half) :
    (b.onHalf h f).half h.twin = b.half h.twin := by cases h <;> rfl

@[simp] theorem Block.half_onHalf_of_twin (b : Block) (h : HalfId) (f : Half → Half) :
    (b.onHalf h.twin f).half h = b.half h := by cases h <;> rfl

theorem Block.half_onHalf_ne (b : Block) {h k : HalfId} (hk : k ≠ h) (f : Half → Half) :
    (b.onHalf h f).half k = b.half k := by cases h <;> cases k <;> first | rfl | exact absurd rfl hk

theorem Block.half_onHalf_iff (b : Block) (h k : HalfId) (f : Half → Half) :
    (b.onHalf h f).half k = if k = h then f (b.half k) else b.half k := by cases h <;> cases k <;> rfl

@[simp] theorem Block.onHalf_variant (b : Block) (h : HalfId) (f : Half → Half) : (b.onHalf h f).variant = b.variant := by
  cases h <;> rfl

@[simp] theorem Block.onHalf_pair (b : Block) (h : HalfId) (f : Half → Half) : (b.onHalf h f).pair = b.pair := by
  cases h <;> rfl

@[simp] theorem Block.onHalf_freeUses (b : Block) (h : HalfId) (f : Half → Half) : (b.onHalf h f).freeUses = b.freeUses := by
  cases h <;> rfl

@[simp] theorem Block.onPair_pair (b : Block) (f : Pair → Pair) : (b.onPair f).pair = f b.pair := rfl

@[simp] theorem Block.onPair_variant (b : Block) (f : Pair → Pair) : (b.onPair f).variant = b.variant := rfl

@[simp] theorem Block.onPair_freeUses (b : Block) (f : Pair → Pair) : (b.onPair f).freeUses = b.freeUses := rfl

@[simp] theorem Block.onPair_half (b : Block) (f : Pair → Pair) (h : HalfId) : (b.onPair f).half h = b.half h := by
  cases h <;> rfl

@[simp] theorem Block.onPair_ha (b : Block) (f : Pair → Pair) : (b.onPair f).ha = b.ha := rfl

@[simp] theorem Block.onPair_hb (b : Block) (f : Pair → Pair) : (b.onPair f).hb = b.hb := rfl

theorem Block.onHalf_onHalf (b : Block) (h : HalfId) (f g : Half → Half) :
    (b.onHalf h f).onHalf h g = b.onHalf h (fun x => g (f x)) := by cases h <;> rfl

/-- Two blocks are equal where all they hold is. -/
theorem Block.ext_halves {b c : Block} (hv : b.variant = c.variant) (hp : b.pair = c.pair) (hf : b.freeUses = c.freeUses)
    (hh : ∀ h, b.half h = c.half h) : b = c := by
  obtain ⟨v, p, x, y, n⟩ := b
  obtain ⟨v', p', x', y', n'⟩ := c
  have ha : x = x' := hh .a
  have hb : y = y' := hh .b
  simp only at hv hp hf
  rw [hv, hp, hf, ha, hb]

/-! ### `Half.onQue` -/

@[simp] theorem Half.onQue_boot (x : Half) (f : QueMgr → QueMgr) : (x.onQue f).boot = x.boot := rfl

@[simp] theorem Half.onQue_gen (x : Half) (f : QueMgr → QueMgr) : (x.onQue f).gen = x.gen := rfl

@[simp] theorem Half.onQue_engines (x : Half) (f : QueMgr → QueMgr) : (x.onQue f).engines = x.engines := rfl

@[simp] theorem Half.onQue_chans (x : Half) (f : QueMgr → QueMgr) : (x.onQue f).chans = x.chans := rfl

@[simp] theorem Half.onQue_que (x : Half) (f : QueMgr → QueMgr) : (x.onQue f).que = f x.que := rfl

@[simp] theorem Half.onQue_dma (x : Half) (f : QueMgr → QueMgr) : (x.onQue f).dma = x.dma := rfl

@[simp] theorem Half.onQue_mems (x : Half) (f : QueMgr → QueMgr) : (x.onQue f).mems = x.mems := rfl

@[simp] theorem Half.onQue_pool (x : Half) (f : QueMgr → QueMgr) : (x.onQue f).pool = x.pool := rfl

@[simp] theorem Half.onQue_gut (x : Half) (f : QueMgr → QueMgr) : (x.onQue f).gut = x.gut := rfl

@[simp] theorem Half.onQue_irq (x : Half) (f : QueMgr → QueMgr) : (x.onQue f).irq = x.irq := rfl

@[simp] theorem Half.onQue_loops (x : Half) (f : QueMgr → QueMgr) : (x.onQue f).loops = x.loops := rfl

@[simp] theorem Half.onQue_pwr (x : Half) (f : QueMgr → QueMgr) : (x.onQue f).pwr = x.pwr := rfl

@[simp] theorem Half.onQue_fly (x : Half) (f : QueMgr → QueMgr) : (x.onQue f).fly = x.fly := rfl

@[simp] theorem Half.onQue_twn (x : Half) (f : QueMgr → QueMgr) : (x.onQue f).twn = x.twn := rfl

@[simp] theorem Half.onQue_mir (x : Half) (f : QueMgr → QueMgr) : (x.onQue f).mir = x.mir := rfl

@[simp] theorem Half.onQue_store (x : Half) (f : QueMgr → QueMgr) : (x.onQue f).store = x.store := rfl

@[simp] theorem Half.onQue_win (x : Half) (f : QueMgr → QueMgr) : (x.onQue f).win = x.win := rfl

@[simp] theorem Half.onQue_dec (x : Half) (f : QueMgr → QueMgr) : (x.onQue f).dec = x.dec := rfl

@[simp] theorem Half.onQue_par (x : Half) (f : QueMgr → QueMgr) : (x.onQue f).par = x.par := rfl

@[simp] theorem Half.onQue_arb (x : Half) (f : QueMgr → QueMgr) : (x.onQue f).arb = x.arb := rfl

@[simp] theorem Half.onQue_ro (x : Half) (f : QueMgr → QueMgr) : (x.onQue f).ro = x.ro := rfl

@[simp] theorem Half.onQue_port (x : Half) (f : QueMgr → QueMgr) : (x.onQue f).port = x.port := rfl

@[simp] theorem Half.onQue_retLog (x : Half) (f : QueMgr → QueMgr) : (x.onQue f).retLog = x.retLog := rfl

/-! ### `Half.onDma` -/

@[simp] theorem Half.onDma_boot (x : Half) (f : Dma → Dma) : (x.onDma f).boot = x.boot := rfl

@[simp] theorem Half.onDma_gen (x : Half) (f : Dma → Dma) : (x.onDma f).gen = x.gen := rfl

@[simp] theorem Half.onDma_engines (x : Half) (f : Dma → Dma) : (x.onDma f).engines = x.engines := rfl

@[simp] theorem Half.onDma_chans (x : Half) (f : Dma → Dma) : (x.onDma f).chans = x.chans := rfl

@[simp] theorem Half.onDma_que (x : Half) (f : Dma → Dma) : (x.onDma f).que = x.que := rfl

@[simp] theorem Half.onDma_dma (x : Half) (f : Dma → Dma) : (x.onDma f).dma = f x.dma := rfl

@[simp] theorem Half.onDma_mems (x : Half) (f : Dma → Dma) : (x.onDma f).mems = x.mems := rfl

@[simp] theorem Half.onDma_pool (x : Half) (f : Dma → Dma) : (x.onDma f).pool = x.pool := rfl

@[simp] theorem Half.onDma_gut (x : Half) (f : Dma → Dma) : (x.onDma f).gut = x.gut := rfl

@[simp] theorem Half.onDma_irq (x : Half) (f : Dma → Dma) : (x.onDma f).irq = x.irq := rfl

@[simp] theorem Half.onDma_loops (x : Half) (f : Dma → Dma) : (x.onDma f).loops = x.loops := rfl

@[simp] theorem Half.onDma_pwr (x : Half) (f : Dma → Dma) : (x.onDma f).pwr = x.pwr := rfl

@[simp] theorem Half.onDma_fly (x : Half) (f : Dma → Dma) : (x.onDma f).fly = x.fly := rfl

@[simp] theorem Half.onDma_twn (x : Half) (f : Dma → Dma) : (x.onDma f).twn = x.twn := rfl

@[simp] theorem Half.onDma_mir (x : Half) (f : Dma → Dma) : (x.onDma f).mir = x.mir := rfl

@[simp] theorem Half.onDma_store (x : Half) (f : Dma → Dma) : (x.onDma f).store = x.store := rfl

@[simp] theorem Half.onDma_win (x : Half) (f : Dma → Dma) : (x.onDma f).win = x.win := rfl

@[simp] theorem Half.onDma_dec (x : Half) (f : Dma → Dma) : (x.onDma f).dec = x.dec := rfl

@[simp] theorem Half.onDma_par (x : Half) (f : Dma → Dma) : (x.onDma f).par = x.par := rfl

@[simp] theorem Half.onDma_arb (x : Half) (f : Dma → Dma) : (x.onDma f).arb = x.arb := rfl

@[simp] theorem Half.onDma_ro (x : Half) (f : Dma → Dma) : (x.onDma f).ro = x.ro := rfl

@[simp] theorem Half.onDma_port (x : Half) (f : Dma → Dma) : (x.onDma f).port = x.port := rfl

@[simp] theorem Half.onDma_retLog (x : Half) (f : Dma → Dma) : (x.onDma f).retLog = x.retLog := rfl

/-! ### `Half.onWin` -/

@[simp] theorem Half.onWin_boot (x : Half) (f : Window → Window) : (x.onWin f).boot = x.boot := rfl

@[simp] theorem Half.onWin_gen (x : Half) (f : Window → Window) : (x.onWin f).gen = x.gen := rfl

@[simp] theorem Half.onWin_engines (x : Half) (f : Window → Window) : (x.onWin f).engines = x.engines := rfl

@[simp] theorem Half.onWin_chans (x : Half) (f : Window → Window) : (x.onWin f).chans = x.chans := rfl

@[simp] theorem Half.onWin_que (x : Half) (f : Window → Window) : (x.onWin f).que = x.que := rfl

@[simp] theorem Half.onWin_dma (x : Half) (f : Window → Window) : (x.onWin f).dma = x.dma := rfl

@[simp] theorem Half.onWin_mems (x : Half) (f : Window → Window) : (x.onWin f).mems = x.mems := rfl

@[simp] theorem Half.onWin_pool (x : Half) (f : Window → Window) : (x.onWin f).pool = x.pool := rfl

@[simp] theorem Half.onWin_gut (x : Half) (f : Window → Window) : (x.onWin f).gut = x.gut := rfl

@[simp] theorem Half.onWin_irq (x : Half) (f : Window → Window) : (x.onWin f).irq = x.irq := rfl

@[simp] theorem Half.onWin_loops (x : Half) (f : Window → Window) : (x.onWin f).loops = x.loops := rfl

@[simp] theorem Half.onWin_pwr (x : Half) (f : Window → Window) : (x.onWin f).pwr = x.pwr := rfl

@[simp] theorem Half.onWin_fly (x : Half) (f : Window → Window) : (x.onWin f).fly = x.fly := rfl

@[simp] theorem Half.onWin_twn (x : Half) (f : Window → Window) : (x.onWin f).twn = x.twn := rfl

@[simp] theorem Half.onWin_mir (x : Half) (f : Window → Window) : (x.onWin f).mir = x.mir := rfl

@[simp] theorem Half.onWin_store (x : Half) (f : Window → Window) : (x.onWin f).store = x.store := rfl

@[simp] theorem Half.onWin_win (x : Half) (f : Window → Window) : (x.onWin f).win = f x.win := rfl

@[simp] theorem Half.onWin_dec (x : Half) (f : Window → Window) : (x.onWin f).dec = x.dec := rfl

@[simp] theorem Half.onWin_par (x : Half) (f : Window → Window) : (x.onWin f).par = x.par := rfl

@[simp] theorem Half.onWin_arb (x : Half) (f : Window → Window) : (x.onWin f).arb = x.arb := rfl

@[simp] theorem Half.onWin_ro (x : Half) (f : Window → Window) : (x.onWin f).ro = x.ro := rfl

@[simp] theorem Half.onWin_port (x : Half) (f : Window → Window) : (x.onWin f).port = x.port := rfl

@[simp] theorem Half.onWin_retLog (x : Half) (f : Window → Window) : (x.onWin f).retLog = x.retLog := rfl

/-! ### `Half.onStore` -/

@[simp] theorem Half.onStore_boot (x : Half) (f : Store → Store) : (x.onStore f).boot = x.boot := rfl

@[simp] theorem Half.onStore_gen (x : Half) (f : Store → Store) : (x.onStore f).gen = x.gen := rfl

@[simp] theorem Half.onStore_engines (x : Half) (f : Store → Store) : (x.onStore f).engines = x.engines := rfl

@[simp] theorem Half.onStore_chans (x : Half) (f : Store → Store) : (x.onStore f).chans = x.chans := rfl

@[simp] theorem Half.onStore_que (x : Half) (f : Store → Store) : (x.onStore f).que = x.que := rfl

@[simp] theorem Half.onStore_dma (x : Half) (f : Store → Store) : (x.onStore f).dma = x.dma := rfl

@[simp] theorem Half.onStore_mems (x : Half) (f : Store → Store) : (x.onStore f).mems = x.mems := rfl

@[simp] theorem Half.onStore_pool (x : Half) (f : Store → Store) : (x.onStore f).pool = x.pool := rfl

@[simp] theorem Half.onStore_gut (x : Half) (f : Store → Store) : (x.onStore f).gut = x.gut := rfl

@[simp] theorem Half.onStore_irq (x : Half) (f : Store → Store) : (x.onStore f).irq = x.irq := rfl

@[simp] theorem Half.onStore_loops (x : Half) (f : Store → Store) : (x.onStore f).loops = x.loops := rfl

@[simp] theorem Half.onStore_pwr (x : Half) (f : Store → Store) : (x.onStore f).pwr = x.pwr := rfl

@[simp] theorem Half.onStore_fly (x : Half) (f : Store → Store) : (x.onStore f).fly = x.fly := rfl

@[simp] theorem Half.onStore_twn (x : Half) (f : Store → Store) : (x.onStore f).twn = x.twn := rfl

@[simp] theorem Half.onStore_mir (x : Half) (f : Store → Store) : (x.onStore f).mir = x.mir := rfl

@[simp] theorem Half.onStore_store (x : Half) (f : Store → Store) : (x.onStore f).store = f x.store := rfl

@[simp] theorem Half.onStore_win (x : Half) (f : Store → Store) : (x.onStore f).win = x.win := rfl

@[simp] theorem Half.onStore_dec (x : Half) (f : Store → Store) : (x.onStore f).dec = x.dec := rfl

@[simp] theorem Half.onStore_par (x : Half) (f : Store → Store) : (x.onStore f).par = x.par := rfl

@[simp] theorem Half.onStore_arb (x : Half) (f : Store → Store) : (x.onStore f).arb = x.arb := rfl

@[simp] theorem Half.onStore_ro (x : Half) (f : Store → Store) : (x.onStore f).ro = x.ro := rfl

@[simp] theorem Half.onStore_port (x : Half) (f : Store → Store) : (x.onStore f).port = x.port := rfl

@[simp] theorem Half.onStore_retLog (x : Half) (f : Store → Store) : (x.onStore f).retLog = x.retLog := rfl

/-! ### `Half.onPar` -/

@[simp] theorem Half.onPar_boot (x : Half) (f : Parity → Parity) : (x.onPar f).boot = x.boot := rfl

@[simp] theorem Half.onPar_gen (x : Half) (f : Parity → Parity) : (x.onPar f).gen = x.gen := rfl

@[simp] theorem Half.onPar_engines (x : Half) (f : Parity → Parity) : (x.onPar f).engines = x.engines := rfl

@[simp] theorem Half.onPar_chans (x : Half) (f : Parity → Parity) : (x.onPar f).chans = x.chans := rfl

@[simp] theorem Half.onPar_que (x : Half) (f : Parity → Parity) : (x.onPar f).que = x.que := rfl

@[simp] theorem Half.onPar_dma (x : Half) (f : Parity → Parity) : (x.onPar f).dma = x.dma := rfl

@[simp] theorem Half.onPar_mems (x : Half) (f : Parity → Parity) : (x.onPar f).mems = x.mems := rfl

@[simp] theorem Half.onPar_pool (x : Half) (f : Parity → Parity) : (x.onPar f).pool = x.pool := rfl

@[simp] theorem Half.onPar_gut (x : Half) (f : Parity → Parity) : (x.onPar f).gut = x.gut := rfl

@[simp] theorem Half.onPar_irq (x : Half) (f : Parity → Parity) : (x.onPar f).irq = x.irq := rfl

@[simp] theorem Half.onPar_loops (x : Half) (f : Parity → Parity) : (x.onPar f).loops = x.loops := rfl

@[simp] theorem Half.onPar_pwr (x : Half) (f : Parity → Parity) : (x.onPar f).pwr = x.pwr := rfl

@[simp] theorem Half.onPar_fly (x : Half) (f : Parity → Parity) : (x.onPar f).fly = x.fly := rfl

@[simp] theorem Half.onPar_twn (x : Half) (f : Parity → Parity) : (x.onPar f).twn = x.twn := rfl

@[simp] theorem Half.onPar_mir (x : Half) (f : Parity → Parity) : (x.onPar f).mir = x.mir := rfl

@[simp] theorem Half.onPar_store (x : Half) (f : Parity → Parity) : (x.onPar f).store = x.store := rfl

@[simp] theorem Half.onPar_win (x : Half) (f : Parity → Parity) : (x.onPar f).win = x.win := rfl

@[simp] theorem Half.onPar_dec (x : Half) (f : Parity → Parity) : (x.onPar f).dec = x.dec := rfl

@[simp] theorem Half.onPar_par (x : Half) (f : Parity → Parity) : (x.onPar f).par = f x.par := rfl

@[simp] theorem Half.onPar_arb (x : Half) (f : Parity → Parity) : (x.onPar f).arb = x.arb := rfl

@[simp] theorem Half.onPar_ro (x : Half) (f : Parity → Parity) : (x.onPar f).ro = x.ro := rfl

@[simp] theorem Half.onPar_port (x : Half) (f : Parity → Parity) : (x.onPar f).port = x.port := rfl

@[simp] theorem Half.onPar_retLog (x : Half) (f : Parity → Parity) : (x.onPar f).retLog = x.retLog := rfl

/-! ### `Half.onTwn` -/

@[simp] theorem Half.onTwn_boot (x : Half) (f : Twin → Twin) : (x.onTwn f).boot = x.boot := rfl

@[simp] theorem Half.onTwn_gen (x : Half) (f : Twin → Twin) : (x.onTwn f).gen = x.gen := rfl

@[simp] theorem Half.onTwn_engines (x : Half) (f : Twin → Twin) : (x.onTwn f).engines = x.engines := rfl

@[simp] theorem Half.onTwn_chans (x : Half) (f : Twin → Twin) : (x.onTwn f).chans = x.chans := rfl

@[simp] theorem Half.onTwn_que (x : Half) (f : Twin → Twin) : (x.onTwn f).que = x.que := rfl

@[simp] theorem Half.onTwn_dma (x : Half) (f : Twin → Twin) : (x.onTwn f).dma = x.dma := rfl

@[simp] theorem Half.onTwn_mems (x : Half) (f : Twin → Twin) : (x.onTwn f).mems = x.mems := rfl

@[simp] theorem Half.onTwn_pool (x : Half) (f : Twin → Twin) : (x.onTwn f).pool = x.pool := rfl

@[simp] theorem Half.onTwn_gut (x : Half) (f : Twin → Twin) : (x.onTwn f).gut = x.gut := rfl

@[simp] theorem Half.onTwn_irq (x : Half) (f : Twin → Twin) : (x.onTwn f).irq = x.irq := rfl

@[simp] theorem Half.onTwn_loops (x : Half) (f : Twin → Twin) : (x.onTwn f).loops = x.loops := rfl

@[simp] theorem Half.onTwn_pwr (x : Half) (f : Twin → Twin) : (x.onTwn f).pwr = x.pwr := rfl

@[simp] theorem Half.onTwn_fly (x : Half) (f : Twin → Twin) : (x.onTwn f).fly = x.fly := rfl

@[simp] theorem Half.onTwn_twn (x : Half) (f : Twin → Twin) : (x.onTwn f).twn = f x.twn := rfl

@[simp] theorem Half.onTwn_mir (x : Half) (f : Twin → Twin) : (x.onTwn f).mir = x.mir := rfl

@[simp] theorem Half.onTwn_store (x : Half) (f : Twin → Twin) : (x.onTwn f).store = x.store := rfl

@[simp] theorem Half.onTwn_win (x : Half) (f : Twin → Twin) : (x.onTwn f).win = x.win := rfl

@[simp] theorem Half.onTwn_dec (x : Half) (f : Twin → Twin) : (x.onTwn f).dec = x.dec := rfl

@[simp] theorem Half.onTwn_par (x : Half) (f : Twin → Twin) : (x.onTwn f).par = x.par := rfl

@[simp] theorem Half.onTwn_arb (x : Half) (f : Twin → Twin) : (x.onTwn f).arb = x.arb := rfl

@[simp] theorem Half.onTwn_ro (x : Half) (f : Twin → Twin) : (x.onTwn f).ro = x.ro := rfl

@[simp] theorem Half.onTwn_port (x : Half) (f : Twin → Twin) : (x.onTwn f).port = x.port := rfl

@[simp] theorem Half.onTwn_retLog (x : Half) (f : Twin → Twin) : (x.onTwn f).retLog = x.retLog := rfl

/-! ### `Half.onArb` -/

@[simp] theorem Half.onArb_boot (x : Half) (f : Arb → Arb) : (x.onArb f).boot = x.boot := rfl

@[simp] theorem Half.onArb_gen (x : Half) (f : Arb → Arb) : (x.onArb f).gen = x.gen := rfl

@[simp] theorem Half.onArb_engines (x : Half) (f : Arb → Arb) : (x.onArb f).engines = x.engines := rfl

@[simp] theorem Half.onArb_chans (x : Half) (f : Arb → Arb) : (x.onArb f).chans = x.chans := rfl

@[simp] theorem Half.onArb_que (x : Half) (f : Arb → Arb) : (x.onArb f).que = x.que := rfl

@[simp] theorem Half.onArb_dma (x : Half) (f : Arb → Arb) : (x.onArb f).dma = x.dma := rfl

@[simp] theorem Half.onArb_mems (x : Half) (f : Arb → Arb) : (x.onArb f).mems = x.mems := rfl

@[simp] theorem Half.onArb_pool (x : Half) (f : Arb → Arb) : (x.onArb f).pool = x.pool := rfl

@[simp] theorem Half.onArb_gut (x : Half) (f : Arb → Arb) : (x.onArb f).gut = x.gut := rfl

@[simp] theorem Half.onArb_irq (x : Half) (f : Arb → Arb) : (x.onArb f).irq = x.irq := rfl

@[simp] theorem Half.onArb_loops (x : Half) (f : Arb → Arb) : (x.onArb f).loops = x.loops := rfl

@[simp] theorem Half.onArb_pwr (x : Half) (f : Arb → Arb) : (x.onArb f).pwr = x.pwr := rfl

@[simp] theorem Half.onArb_fly (x : Half) (f : Arb → Arb) : (x.onArb f).fly = x.fly := rfl

@[simp] theorem Half.onArb_twn (x : Half) (f : Arb → Arb) : (x.onArb f).twn = x.twn := rfl

@[simp] theorem Half.onArb_mir (x : Half) (f : Arb → Arb) : (x.onArb f).mir = x.mir := rfl

@[simp] theorem Half.onArb_store (x : Half) (f : Arb → Arb) : (x.onArb f).store = x.store := rfl

@[simp] theorem Half.onArb_win (x : Half) (f : Arb → Arb) : (x.onArb f).win = x.win := rfl

@[simp] theorem Half.onArb_dec (x : Half) (f : Arb → Arb) : (x.onArb f).dec = x.dec := rfl

@[simp] theorem Half.onArb_par (x : Half) (f : Arb → Arb) : (x.onArb f).par = x.par := rfl

@[simp] theorem Half.onArb_arb (x : Half) (f : Arb → Arb) : (x.onArb f).arb = f x.arb := rfl

@[simp] theorem Half.onArb_ro (x : Half) (f : Arb → Arb) : (x.onArb f).ro = x.ro := rfl

@[simp] theorem Half.onArb_port (x : Half) (f : Arb → Arb) : (x.onArb f).port = x.port := rfl

@[simp] theorem Half.onArb_retLog (x : Half) (f : Arb → Arb) : (x.onArb f).retLog = x.retLog := rfl

/-! ### `Half.onLoops` -/

@[simp] theorem Half.onLoops_boot (x : Half) (f : Loops → Loops) : (x.onLoops f).boot = x.boot := rfl

@[simp] theorem Half.onLoops_gen (x : Half) (f : Loops → Loops) : (x.onLoops f).gen = x.gen := rfl

@[simp] theorem Half.onLoops_engines (x : Half) (f : Loops → Loops) : (x.onLoops f).engines = x.engines := rfl

@[simp] theorem Half.onLoops_chans (x : Half) (f : Loops → Loops) : (x.onLoops f).chans = x.chans := rfl

@[simp] theorem Half.onLoops_que (x : Half) (f : Loops → Loops) : (x.onLoops f).que = x.que := rfl

@[simp] theorem Half.onLoops_dma (x : Half) (f : Loops → Loops) : (x.onLoops f).dma = x.dma := rfl

@[simp] theorem Half.onLoops_mems (x : Half) (f : Loops → Loops) : (x.onLoops f).mems = x.mems := rfl

@[simp] theorem Half.onLoops_pool (x : Half) (f : Loops → Loops) : (x.onLoops f).pool = x.pool := rfl

@[simp] theorem Half.onLoops_gut (x : Half) (f : Loops → Loops) : (x.onLoops f).gut = x.gut := rfl

@[simp] theorem Half.onLoops_irq (x : Half) (f : Loops → Loops) : (x.onLoops f).irq = x.irq := rfl

@[simp] theorem Half.onLoops_loops (x : Half) (f : Loops → Loops) : (x.onLoops f).loops = f x.loops := rfl

@[simp] theorem Half.onLoops_pwr (x : Half) (f : Loops → Loops) : (x.onLoops f).pwr = x.pwr := rfl

@[simp] theorem Half.onLoops_fly (x : Half) (f : Loops → Loops) : (x.onLoops f).fly = x.fly := rfl

@[simp] theorem Half.onLoops_twn (x : Half) (f : Loops → Loops) : (x.onLoops f).twn = x.twn := rfl

@[simp] theorem Half.onLoops_mir (x : Half) (f : Loops → Loops) : (x.onLoops f).mir = x.mir := rfl

@[simp] theorem Half.onLoops_store (x : Half) (f : Loops → Loops) : (x.onLoops f).store = x.store := rfl

@[simp] theorem Half.onLoops_win (x : Half) (f : Loops → Loops) : (x.onLoops f).win = x.win := rfl

@[simp] theorem Half.onLoops_dec (x : Half) (f : Loops → Loops) : (x.onLoops f).dec = x.dec := rfl

@[simp] theorem Half.onLoops_par (x : Half) (f : Loops → Loops) : (x.onLoops f).par = x.par := rfl

@[simp] theorem Half.onLoops_arb (x : Half) (f : Loops → Loops) : (x.onLoops f).arb = x.arb := rfl

@[simp] theorem Half.onLoops_ro (x : Half) (f : Loops → Loops) : (x.onLoops f).ro = x.ro := rfl

@[simp] theorem Half.onLoops_port (x : Half) (f : Loops → Loops) : (x.onLoops f).port = x.port := rfl

@[simp] theorem Half.onLoops_retLog (x : Half) (f : Loops → Loops) : (x.onLoops f).retLog = x.retLog := rfl

/-! ### `Half.onIrq` -/

@[simp] theorem Half.onIrq_boot (x : Half) (f : Irq → Irq) : (x.onIrq f).boot = x.boot := rfl

@[simp] theorem Half.onIrq_gen (x : Half) (f : Irq → Irq) : (x.onIrq f).gen = x.gen := rfl

@[simp] theorem Half.onIrq_engines (x : Half) (f : Irq → Irq) : (x.onIrq f).engines = x.engines := rfl

@[simp] theorem Half.onIrq_chans (x : Half) (f : Irq → Irq) : (x.onIrq f).chans = x.chans := rfl

@[simp] theorem Half.onIrq_que (x : Half) (f : Irq → Irq) : (x.onIrq f).que = x.que := rfl

@[simp] theorem Half.onIrq_dma (x : Half) (f : Irq → Irq) : (x.onIrq f).dma = x.dma := rfl

@[simp] theorem Half.onIrq_mems (x : Half) (f : Irq → Irq) : (x.onIrq f).mems = x.mems := rfl

@[simp] theorem Half.onIrq_pool (x : Half) (f : Irq → Irq) : (x.onIrq f).pool = x.pool := rfl

@[simp] theorem Half.onIrq_gut (x : Half) (f : Irq → Irq) : (x.onIrq f).gut = x.gut := rfl

@[simp] theorem Half.onIrq_irq (x : Half) (f : Irq → Irq) : (x.onIrq f).irq = f x.irq := rfl

@[simp] theorem Half.onIrq_loops (x : Half) (f : Irq → Irq) : (x.onIrq f).loops = x.loops := rfl

@[simp] theorem Half.onIrq_pwr (x : Half) (f : Irq → Irq) : (x.onIrq f).pwr = x.pwr := rfl

@[simp] theorem Half.onIrq_fly (x : Half) (f : Irq → Irq) : (x.onIrq f).fly = x.fly := rfl

@[simp] theorem Half.onIrq_twn (x : Half) (f : Irq → Irq) : (x.onIrq f).twn = x.twn := rfl

@[simp] theorem Half.onIrq_mir (x : Half) (f : Irq → Irq) : (x.onIrq f).mir = x.mir := rfl

@[simp] theorem Half.onIrq_store (x : Half) (f : Irq → Irq) : (x.onIrq f).store = x.store := rfl

@[simp] theorem Half.onIrq_win (x : Half) (f : Irq → Irq) : (x.onIrq f).win = x.win := rfl

@[simp] theorem Half.onIrq_dec (x : Half) (f : Irq → Irq) : (x.onIrq f).dec = x.dec := rfl

@[simp] theorem Half.onIrq_par (x : Half) (f : Irq → Irq) : (x.onIrq f).par = x.par := rfl

@[simp] theorem Half.onIrq_arb (x : Half) (f : Irq → Irq) : (x.onIrq f).arb = x.arb := rfl

@[simp] theorem Half.onIrq_ro (x : Half) (f : Irq → Irq) : (x.onIrq f).ro = x.ro := rfl

@[simp] theorem Half.onIrq_port (x : Half) (f : Irq → Irq) : (x.onIrq f).port = x.port := rfl

@[simp] theorem Half.onIrq_retLog (x : Half) (f : Irq → Irq) : (x.onIrq f).retLog = x.retLog := rfl

/-! ### `Half.onFly` -/

@[simp] theorem Half.onFly_boot (x : Half) (f : Fly → Fly) : (x.onFly f).boot = x.boot := rfl

@[simp] theorem Half.onFly_gen (x : Half) (f : Fly → Fly) : (x.onFly f).gen = x.gen := rfl

@[simp] theorem Half.onFly_engines (x : Half) (f : Fly → Fly) : (x.onFly f).engines = x.engines := rfl

@[simp] theorem Half.onFly_chans (x : Half) (f : Fly → Fly) : (x.onFly f).chans = x.chans := rfl

@[simp] theorem Half.onFly_que (x : Half) (f : Fly → Fly) : (x.onFly f).que = x.que := rfl

@[simp] theorem Half.onFly_dma (x : Half) (f : Fly → Fly) : (x.onFly f).dma = x.dma := rfl

@[simp] theorem Half.onFly_mems (x : Half) (f : Fly → Fly) : (x.onFly f).mems = x.mems := rfl

@[simp] theorem Half.onFly_pool (x : Half) (f : Fly → Fly) : (x.onFly f).pool = x.pool := rfl

@[simp] theorem Half.onFly_gut (x : Half) (f : Fly → Fly) : (x.onFly f).gut = x.gut := rfl

@[simp] theorem Half.onFly_irq (x : Half) (f : Fly → Fly) : (x.onFly f).irq = x.irq := rfl

@[simp] theorem Half.onFly_loops (x : Half) (f : Fly → Fly) : (x.onFly f).loops = x.loops := rfl

@[simp] theorem Half.onFly_pwr (x : Half) (f : Fly → Fly) : (x.onFly f).pwr = x.pwr := rfl

@[simp] theorem Half.onFly_fly (x : Half) (f : Fly → Fly) : (x.onFly f).fly = f x.fly := rfl

@[simp] theorem Half.onFly_twn (x : Half) (f : Fly → Fly) : (x.onFly f).twn = x.twn := rfl

@[simp] theorem Half.onFly_mir (x : Half) (f : Fly → Fly) : (x.onFly f).mir = x.mir := rfl

@[simp] theorem Half.onFly_store (x : Half) (f : Fly → Fly) : (x.onFly f).store = x.store := rfl

@[simp] theorem Half.onFly_win (x : Half) (f : Fly → Fly) : (x.onFly f).win = x.win := rfl

@[simp] theorem Half.onFly_dec (x : Half) (f : Fly → Fly) : (x.onFly f).dec = x.dec := rfl

@[simp] theorem Half.onFly_par (x : Half) (f : Fly → Fly) : (x.onFly f).par = x.par := rfl

@[simp] theorem Half.onFly_arb (x : Half) (f : Fly → Fly) : (x.onFly f).arb = x.arb := rfl

@[simp] theorem Half.onFly_ro (x : Half) (f : Fly → Fly) : (x.onFly f).ro = x.ro := rfl

@[simp] theorem Half.onFly_port (x : Half) (f : Fly → Fly) : (x.onFly f).port = x.port := rfl

@[simp] theorem Half.onFly_retLog (x : Half) (f : Fly → Fly) : (x.onFly f).retLog = x.retLog := rfl

/-! ### `Half.onMir` -/

@[simp] theorem Half.onMir_boot (x : Half) (f : Mirror → Mirror) : (x.onMir f).boot = x.boot := rfl

@[simp] theorem Half.onMir_gen (x : Half) (f : Mirror → Mirror) : (x.onMir f).gen = x.gen := rfl

@[simp] theorem Half.onMir_engines (x : Half) (f : Mirror → Mirror) : (x.onMir f).engines = x.engines := rfl

@[simp] theorem Half.onMir_chans (x : Half) (f : Mirror → Mirror) : (x.onMir f).chans = x.chans := rfl

@[simp] theorem Half.onMir_que (x : Half) (f : Mirror → Mirror) : (x.onMir f).que = x.que := rfl

@[simp] theorem Half.onMir_dma (x : Half) (f : Mirror → Mirror) : (x.onMir f).dma = x.dma := rfl

@[simp] theorem Half.onMir_mems (x : Half) (f : Mirror → Mirror) : (x.onMir f).mems = x.mems := rfl

@[simp] theorem Half.onMir_pool (x : Half) (f : Mirror → Mirror) : (x.onMir f).pool = x.pool := rfl

@[simp] theorem Half.onMir_gut (x : Half) (f : Mirror → Mirror) : (x.onMir f).gut = x.gut := rfl

@[simp] theorem Half.onMir_irq (x : Half) (f : Mirror → Mirror) : (x.onMir f).irq = x.irq := rfl

@[simp] theorem Half.onMir_loops (x : Half) (f : Mirror → Mirror) : (x.onMir f).loops = x.loops := rfl

@[simp] theorem Half.onMir_pwr (x : Half) (f : Mirror → Mirror) : (x.onMir f).pwr = x.pwr := rfl

@[simp] theorem Half.onMir_fly (x : Half) (f : Mirror → Mirror) : (x.onMir f).fly = x.fly := rfl

@[simp] theorem Half.onMir_twn (x : Half) (f : Mirror → Mirror) : (x.onMir f).twn = x.twn := rfl

@[simp] theorem Half.onMir_mir (x : Half) (f : Mirror → Mirror) : (x.onMir f).mir = f x.mir := rfl

@[simp] theorem Half.onMir_store (x : Half) (f : Mirror → Mirror) : (x.onMir f).store = x.store := rfl

@[simp] theorem Half.onMir_win (x : Half) (f : Mirror → Mirror) : (x.onMir f).win = x.win := rfl

@[simp] theorem Half.onMir_dec (x : Half) (f : Mirror → Mirror) : (x.onMir f).dec = x.dec := rfl

@[simp] theorem Half.onMir_par (x : Half) (f : Mirror → Mirror) : (x.onMir f).par = x.par := rfl

@[simp] theorem Half.onMir_arb (x : Half) (f : Mirror → Mirror) : (x.onMir f).arb = x.arb := rfl

@[simp] theorem Half.onMir_ro (x : Half) (f : Mirror → Mirror) : (x.onMir f).ro = x.ro := rfl

@[simp] theorem Half.onMir_port (x : Half) (f : Mirror → Mirror) : (x.onMir f).port = x.port := rfl

@[simp] theorem Half.onMir_retLog (x : Half) (f : Mirror → Mirror) : (x.onMir f).retLog = x.retLog := rfl

/-! ### `Half.onChan` -/

@[simp] theorem Half.onChan_boot (x : Half) (c : Nat) (f : Chan → Chan) : (x.onChan c f).boot = x.boot := rfl

@[simp] theorem Half.onChan_gen (x : Half) (c : Nat) (f : Chan → Chan) : (x.onChan c f).gen = x.gen := rfl

@[simp] theorem Half.onChan_engines (x : Half) (c : Nat) (f : Chan → Chan) : (x.onChan c f).engines = x.engines := rfl

@[simp] theorem Half.onChan_chans (x : Half) (c : Nat) (f : Chan → Chan) : (x.onChan c f).chans = Tab.modify Chan.reset x.chans c f :=
  rfl

@[simp] theorem Half.onChan_que (x : Half) (c : Nat) (f : Chan → Chan) : (x.onChan c f).que = x.que := rfl

@[simp] theorem Half.onChan_dma (x : Half) (c : Nat) (f : Chan → Chan) : (x.onChan c f).dma = x.dma := rfl

@[simp] theorem Half.onChan_mems (x : Half) (c : Nat) (f : Chan → Chan) : (x.onChan c f).mems = x.mems := rfl

@[simp] theorem Half.onChan_pool (x : Half) (c : Nat) (f : Chan → Chan) : (x.onChan c f).pool = x.pool := rfl

@[simp] theorem Half.onChan_gut (x : Half) (c : Nat) (f : Chan → Chan) : (x.onChan c f).gut = x.gut := rfl

@[simp] theorem Half.onChan_irq (x : Half) (c : Nat) (f : Chan → Chan) : (x.onChan c f).irq = x.irq := rfl

@[simp] theorem Half.onChan_loops (x : Half) (c : Nat) (f : Chan → Chan) : (x.onChan c f).loops = x.loops := rfl

@[simp] theorem Half.onChan_pwr (x : Half) (c : Nat) (f : Chan → Chan) : (x.onChan c f).pwr = x.pwr := rfl

@[simp] theorem Half.onChan_fly (x : Half) (c : Nat) (f : Chan → Chan) : (x.onChan c f).fly = x.fly := rfl

@[simp] theorem Half.onChan_twn (x : Half) (c : Nat) (f : Chan → Chan) : (x.onChan c f).twn = x.twn := rfl

@[simp] theorem Half.onChan_mir (x : Half) (c : Nat) (f : Chan → Chan) : (x.onChan c f).mir = x.mir := rfl

@[simp] theorem Half.onChan_store (x : Half) (c : Nat) (f : Chan → Chan) : (x.onChan c f).store = x.store := rfl

@[simp] theorem Half.onChan_win (x : Half) (c : Nat) (f : Chan → Chan) : (x.onChan c f).win = x.win := rfl

@[simp] theorem Half.onChan_dec (x : Half) (c : Nat) (f : Chan → Chan) : (x.onChan c f).dec = x.dec := rfl

@[simp] theorem Half.onChan_par (x : Half) (c : Nat) (f : Chan → Chan) : (x.onChan c f).par = x.par := rfl

@[simp] theorem Half.onChan_arb (x : Half) (c : Nat) (f : Chan → Chan) : (x.onChan c f).arb = x.arb := rfl

@[simp] theorem Half.onChan_ro (x : Half) (c : Nat) (f : Chan → Chan) : (x.onChan c f).ro = x.ro := rfl

@[simp] theorem Half.onChan_port (x : Half) (c : Nat) (f : Chan → Chan) : (x.onChan c f).port = x.port := rfl

@[simp] theorem Half.onChan_retLog (x : Half) (c : Nat) (f : Chan → Chan) : (x.onChan c f).retLog = x.retLog := rfl

/-! ### `Half.onDie` -/

@[simp] theorem Half.onDie_boot (x : Half) (c d : Nat) (f : Die → Die) : (x.onDie c d f).boot = x.boot := rfl

@[simp] theorem Half.onDie_gen (x : Half) (c d : Nat) (f : Die → Die) : (x.onDie c d f).gen = x.gen := rfl

@[simp] theorem Half.onDie_engines (x : Half) (c d : Nat) (f : Die → Die) : (x.onDie c d f).engines = x.engines := rfl

@[simp] theorem Half.onDie_chans (x : Half) (c d : Nat) (f : Die → Die) : (x.onDie c d f).chans = Tab.modify Chan.reset x.chans c (fun k => k.onDie d f) :=
  rfl

@[simp] theorem Half.onDie_que (x : Half) (c d : Nat) (f : Die → Die) : (x.onDie c d f).que = x.que := rfl

@[simp] theorem Half.onDie_dma (x : Half) (c d : Nat) (f : Die → Die) : (x.onDie c d f).dma = x.dma := rfl

@[simp] theorem Half.onDie_mems (x : Half) (c d : Nat) (f : Die → Die) : (x.onDie c d f).mems = x.mems := rfl

@[simp] theorem Half.onDie_pool (x : Half) (c d : Nat) (f : Die → Die) : (x.onDie c d f).pool = x.pool := rfl

@[simp] theorem Half.onDie_gut (x : Half) (c d : Nat) (f : Die → Die) : (x.onDie c d f).gut = x.gut := rfl

@[simp] theorem Half.onDie_irq (x : Half) (c d : Nat) (f : Die → Die) : (x.onDie c d f).irq = x.irq := rfl

@[simp] theorem Half.onDie_loops (x : Half) (c d : Nat) (f : Die → Die) : (x.onDie c d f).loops = x.loops := rfl

@[simp] theorem Half.onDie_pwr (x : Half) (c d : Nat) (f : Die → Die) : (x.onDie c d f).pwr = x.pwr := rfl

@[simp] theorem Half.onDie_fly (x : Half) (c d : Nat) (f : Die → Die) : (x.onDie c d f).fly = x.fly := rfl

@[simp] theorem Half.onDie_twn (x : Half) (c d : Nat) (f : Die → Die) : (x.onDie c d f).twn = x.twn := rfl

@[simp] theorem Half.onDie_mir (x : Half) (c d : Nat) (f : Die → Die) : (x.onDie c d f).mir = x.mir := rfl

@[simp] theorem Half.onDie_store (x : Half) (c d : Nat) (f : Die → Die) : (x.onDie c d f).store = x.store := rfl

@[simp] theorem Half.onDie_win (x : Half) (c d : Nat) (f : Die → Die) : (x.onDie c d f).win = x.win := rfl

@[simp] theorem Half.onDie_dec (x : Half) (c d : Nat) (f : Die → Die) : (x.onDie c d f).dec = x.dec := rfl

@[simp] theorem Half.onDie_par (x : Half) (c d : Nat) (f : Die → Die) : (x.onDie c d f).par = x.par := rfl

@[simp] theorem Half.onDie_arb (x : Half) (c d : Nat) (f : Die → Die) : (x.onDie c d f).arb = x.arb := rfl

@[simp] theorem Half.onDie_ro (x : Half) (c d : Nat) (f : Die → Die) : (x.onDie c d f).ro = x.ro := rfl

@[simp] theorem Half.onDie_port (x : Half) (c d : Nat) (f : Die → Die) : (x.onDie c d f).port = x.port := rfl

@[simp] theorem Half.onDie_retLog (x : Half) (c d : Nat) (f : Die → Die) : (x.onDie c d f).retLog = x.retLog := rfl

/-! ### `Half.onEngine` -/

@[simp] theorem Half.onEngine_boot (x : Half) (e : Nat) (f : Engine → Engine) : (x.onEngine e f).boot = x.boot := rfl

@[simp] theorem Half.onEngine_gen (x : Half) (e : Nat) (f : Engine → Engine) : (x.onEngine e f).gen = x.gen := rfl

@[simp] theorem Half.onEngine_engines (x : Half) (e : Nat) (f : Engine → Engine) : (x.onEngine e f).engines = Tab.modify Engine.unloaded x.engines e f :=
  rfl

@[simp] theorem Half.onEngine_chans (x : Half) (e : Nat) (f : Engine → Engine) : (x.onEngine e f).chans = x.chans := rfl

@[simp] theorem Half.onEngine_que (x : Half) (e : Nat) (f : Engine → Engine) : (x.onEngine e f).que = x.que := rfl

@[simp] theorem Half.onEngine_dma (x : Half) (e : Nat) (f : Engine → Engine) : (x.onEngine e f).dma = x.dma := rfl

@[simp] theorem Half.onEngine_mems (x : Half) (e : Nat) (f : Engine → Engine) : (x.onEngine e f).mems = x.mems := rfl

@[simp] theorem Half.onEngine_pool (x : Half) (e : Nat) (f : Engine → Engine) : (x.onEngine e f).pool = x.pool := rfl

@[simp] theorem Half.onEngine_gut (x : Half) (e : Nat) (f : Engine → Engine) : (x.onEngine e f).gut = x.gut := rfl

@[simp] theorem Half.onEngine_irq (x : Half) (e : Nat) (f : Engine → Engine) : (x.onEngine e f).irq = x.irq := rfl

@[simp] theorem Half.onEngine_loops (x : Half) (e : Nat) (f : Engine → Engine) : (x.onEngine e f).loops = x.loops := rfl

@[simp] theorem Half.onEngine_pwr (x : Half) (e : Nat) (f : Engine → Engine) : (x.onEngine e f).pwr = x.pwr := rfl

@[simp] theorem Half.onEngine_fly (x : Half) (e : Nat) (f : Engine → Engine) : (x.onEngine e f).fly = x.fly := rfl

@[simp] theorem Half.onEngine_twn (x : Half) (e : Nat) (f : Engine → Engine) : (x.onEngine e f).twn = x.twn := rfl

@[simp] theorem Half.onEngine_mir (x : Half) (e : Nat) (f : Engine → Engine) : (x.onEngine e f).mir = x.mir := rfl

@[simp] theorem Half.onEngine_store (x : Half) (e : Nat) (f : Engine → Engine) : (x.onEngine e f).store = x.store := rfl

@[simp] theorem Half.onEngine_win (x : Half) (e : Nat) (f : Engine → Engine) : (x.onEngine e f).win = x.win := rfl

@[simp] theorem Half.onEngine_dec (x : Half) (e : Nat) (f : Engine → Engine) : (x.onEngine e f).dec = x.dec := rfl

@[simp] theorem Half.onEngine_par (x : Half) (e : Nat) (f : Engine → Engine) : (x.onEngine e f).par = x.par := rfl

@[simp] theorem Half.onEngine_arb (x : Half) (e : Nat) (f : Engine → Engine) : (x.onEngine e f).arb = x.arb := rfl

@[simp] theorem Half.onEngine_ro (x : Half) (e : Nat) (f : Engine → Engine) : (x.onEngine e f).ro = x.ro := rfl

@[simp] theorem Half.onEngine_port (x : Half) (e : Nat) (f : Engine → Engine) : (x.onEngine e f).port = x.port := rfl

@[simp] theorem Half.onEngine_retLog (x : Half) (e : Nat) (f : Engine → Engine) : (x.onEngine e f).retLog = x.retLog := rfl

/-! ### `Half.onCtx` -/

@[simp] theorem Half.onCtx_boot (x : Half) (n : Nat) (f : Ctx → Ctx) : (x.onCtx n f).boot = x.boot := rfl

@[simp] theorem Half.onCtx_gen (x : Half) (n : Nat) (f : Ctx → Ctx) : (x.onCtx n f).gen = x.gen := rfl

@[simp] theorem Half.onCtx_engines (x : Half) (n : Nat) (f : Ctx → Ctx) : (x.onCtx n f).engines = x.engines := rfl

@[simp] theorem Half.onCtx_chans (x : Half) (n : Nat) (f : Ctx → Ctx) : (x.onCtx n f).chans = x.chans := rfl

@[simp] theorem Half.onCtx_dma (x : Half) (n : Nat) (f : Ctx → Ctx) : (x.onCtx n f).dma = x.dma := rfl

@[simp] theorem Half.onCtx_mems (x : Half) (n : Nat) (f : Ctx → Ctx) : (x.onCtx n f).mems = x.mems := rfl

@[simp] theorem Half.onCtx_pool (x : Half) (n : Nat) (f : Ctx → Ctx) : (x.onCtx n f).pool = x.pool := rfl

@[simp] theorem Half.onCtx_gut (x : Half) (n : Nat) (f : Ctx → Ctx) : (x.onCtx n f).gut = x.gut := rfl

@[simp] theorem Half.onCtx_irq (x : Half) (n : Nat) (f : Ctx → Ctx) : (x.onCtx n f).irq = x.irq := rfl

@[simp] theorem Half.onCtx_loops (x : Half) (n : Nat) (f : Ctx → Ctx) : (x.onCtx n f).loops = x.loops := rfl

@[simp] theorem Half.onCtx_pwr (x : Half) (n : Nat) (f : Ctx → Ctx) : (x.onCtx n f).pwr = x.pwr := rfl

@[simp] theorem Half.onCtx_fly (x : Half) (n : Nat) (f : Ctx → Ctx) : (x.onCtx n f).fly = x.fly := rfl

@[simp] theorem Half.onCtx_twn (x : Half) (n : Nat) (f : Ctx → Ctx) : (x.onCtx n f).twn = x.twn := rfl

@[simp] theorem Half.onCtx_mir (x : Half) (n : Nat) (f : Ctx → Ctx) : (x.onCtx n f).mir = x.mir := rfl

@[simp] theorem Half.onCtx_store (x : Half) (n : Nat) (f : Ctx → Ctx) : (x.onCtx n f).store = x.store := rfl

@[simp] theorem Half.onCtx_win (x : Half) (n : Nat) (f : Ctx → Ctx) : (x.onCtx n f).win = x.win := rfl

@[simp] theorem Half.onCtx_dec (x : Half) (n : Nat) (f : Ctx → Ctx) : (x.onCtx n f).dec = x.dec := rfl

@[simp] theorem Half.onCtx_par (x : Half) (n : Nat) (f : Ctx → Ctx) : (x.onCtx n f).par = x.par := rfl

@[simp] theorem Half.onCtx_arb (x : Half) (n : Nat) (f : Ctx → Ctx) : (x.onCtx n f).arb = x.arb := rfl

@[simp] theorem Half.onCtx_ro (x : Half) (n : Nat) (f : Ctx → Ctx) : (x.onCtx n f).ro = x.ro := rfl

@[simp] theorem Half.onCtx_port (x : Half) (n : Nat) (f : Ctx → Ctx) : (x.onCtx n f).port = x.port := rfl

@[simp] theorem Half.onCtx_retLog (x : Half) (n : Nat) (f : Ctx → Ctx) : (x.onCtx n f).retLog = x.retLog := rfl

/-! ### `Half.onQueue` -/

@[simp] theorem Half.onQueue_boot (x : Half) (ad : Bool) (n : Nat) (f : Queue → Queue) : (x.onQueue ad n f).boot = x.boot :=
  rfl

@[simp] theorem Half.onQueue_gen (x : Half) (ad : Bool) (n : Nat) (f : Queue → Queue) : (x.onQueue ad n f).gen = x.gen := rfl

@[simp] theorem Half.onQueue_engines (x : Half) (ad : Bool) (n : Nat) (f : Queue → Queue) : (x.onQueue ad n f).engines = x.engines :=
  rfl

@[simp] theorem Half.onQueue_chans (x : Half) (ad : Bool) (n : Nat) (f : Queue → Queue) : (x.onQueue ad n f).chans = x.chans :=
  rfl

@[simp] theorem Half.onQueue_que (x : Half) (ad : Bool) (n : Nat) (f : Queue → Queue) : (x.onQueue ad n f).que = x.que.onQueue ad n f :=
  rfl

@[simp] theorem Half.onQueue_dma (x : Half) (ad : Bool) (n : Nat) (f : Queue → Queue) : (x.onQueue ad n f).dma = x.dma := rfl

@[simp] theorem Half.onQueue_mems (x : Half) (ad : Bool) (n : Nat) (f : Queue → Queue) : (x.onQueue ad n f).mems = x.mems :=
  rfl

@[simp] theorem Half.onQueue_pool (x : Half) (ad : Bool) (n : Nat) (f : Queue → Queue) : (x.onQueue ad n f).pool = x.pool :=
  rfl

@[simp] theorem Half.onQueue_gut (x : Half) (ad : Bool) (n : Nat) (f : Queue → Queue) : (x.onQueue ad n f).gut = x.gut := rfl

@[simp] theorem Half.onQueue_irq (x : Half) (ad : Bool) (n : Nat) (f : Queue → Queue) : (x.onQueue ad n f).irq = x.irq := rfl

@[simp] theorem Half.onQueue_loops (x : Half) (ad : Bool) (n : Nat) (f : Queue → Queue) : (x.onQueue ad n f).loops = x.loops :=
  rfl

@[simp] theorem Half.onQueue_pwr (x : Half) (ad : Bool) (n : Nat) (f : Queue → Queue) : (x.onQueue ad n f).pwr = x.pwr := rfl

@[simp] theorem Half.onQueue_fly (x : Half) (ad : Bool) (n : Nat) (f : Queue → Queue) : (x.onQueue ad n f).fly = x.fly := rfl

@[simp] theorem Half.onQueue_twn (x : Half) (ad : Bool) (n : Nat) (f : Queue → Queue) : (x.onQueue ad n f).twn = x.twn := rfl

@[simp] theorem Half.onQueue_mir (x : Half) (ad : Bool) (n : Nat) (f : Queue → Queue) : (x.onQueue ad n f).mir = x.mir := rfl

@[simp] theorem Half.onQueue_store (x : Half) (ad : Bool) (n : Nat) (f : Queue → Queue) : (x.onQueue ad n f).store = x.store :=
  rfl

@[simp] theorem Half.onQueue_win (x : Half) (ad : Bool) (n : Nat) (f : Queue → Queue) : (x.onQueue ad n f).win = x.win := rfl

@[simp] theorem Half.onQueue_dec (x : Half) (ad : Bool) (n : Nat) (f : Queue → Queue) : (x.onQueue ad n f).dec = x.dec := rfl

@[simp] theorem Half.onQueue_par (x : Half) (ad : Bool) (n : Nat) (f : Queue → Queue) : (x.onQueue ad n f).par = x.par := rfl

@[simp] theorem Half.onQueue_arb (x : Half) (ad : Bool) (n : Nat) (f : Queue → Queue) : (x.onQueue ad n f).arb = x.arb := rfl

@[simp] theorem Half.onQueue_ro (x : Half) (ad : Bool) (n : Nat) (f : Queue → Queue) : (x.onQueue ad n f).ro = x.ro := rfl

@[simp] theorem Half.onQueue_port (x : Half) (ad : Bool) (n : Nat) (f : Queue → Queue) : (x.onQueue ad n f).port = x.port :=
  rfl

@[simp] theorem Half.onQueue_retLog (x : Half) (ad : Bool) (n : Nat) (f : Queue → Queue) : (x.onQueue ad n f).retLog = x.retLog :=
  rfl

/-! ### `Half.onStream` -/

@[simp] theorem Half.onStream_boot (x : Half) (n : Nat) (f : Stream → Stream) : (x.onStream n f).boot = x.boot := rfl

@[simp] theorem Half.onStream_gen (x : Half) (n : Nat) (f : Stream → Stream) : (x.onStream n f).gen = x.gen := rfl

@[simp] theorem Half.onStream_engines (x : Half) (n : Nat) (f : Stream → Stream) : (x.onStream n f).engines = x.engines :=
  rfl

@[simp] theorem Half.onStream_chans (x : Half) (n : Nat) (f : Stream → Stream) : (x.onStream n f).chans = x.chans := rfl

@[simp] theorem Half.onStream_que (x : Half) (n : Nat) (f : Stream → Stream) : (x.onStream n f).que = x.que := rfl

@[simp] theorem Half.onStream_mems (x : Half) (n : Nat) (f : Stream → Stream) : (x.onStream n f).mems = x.mems := rfl

@[simp] theorem Half.onStream_pool (x : Half) (n : Nat) (f : Stream → Stream) : (x.onStream n f).pool = x.pool := rfl

@[simp] theorem Half.onStream_gut (x : Half) (n : Nat) (f : Stream → Stream) : (x.onStream n f).gut = x.gut := rfl

@[simp] theorem Half.onStream_irq (x : Half) (n : Nat) (f : Stream → Stream) : (x.onStream n f).irq = x.irq := rfl

@[simp] theorem Half.onStream_loops (x : Half) (n : Nat) (f : Stream → Stream) : (x.onStream n f).loops = x.loops := rfl

@[simp] theorem Half.onStream_pwr (x : Half) (n : Nat) (f : Stream → Stream) : (x.onStream n f).pwr = x.pwr := rfl

@[simp] theorem Half.onStream_fly (x : Half) (n : Nat) (f : Stream → Stream) : (x.onStream n f).fly = x.fly := rfl

@[simp] theorem Half.onStream_twn (x : Half) (n : Nat) (f : Stream → Stream) : (x.onStream n f).twn = x.twn := rfl

@[simp] theorem Half.onStream_mir (x : Half) (n : Nat) (f : Stream → Stream) : (x.onStream n f).mir = x.mir := rfl

@[simp] theorem Half.onStream_store (x : Half) (n : Nat) (f : Stream → Stream) : (x.onStream n f).store = x.store := rfl

@[simp] theorem Half.onStream_win (x : Half) (n : Nat) (f : Stream → Stream) : (x.onStream n f).win = x.win := rfl

@[simp] theorem Half.onStream_dec (x : Half) (n : Nat) (f : Stream → Stream) : (x.onStream n f).dec = x.dec := rfl

@[simp] theorem Half.onStream_par (x : Half) (n : Nat) (f : Stream → Stream) : (x.onStream n f).par = x.par := rfl

@[simp] theorem Half.onStream_arb (x : Half) (n : Nat) (f : Stream → Stream) : (x.onStream n f).arb = x.arb := rfl

@[simp] theorem Half.onStream_ro (x : Half) (n : Nat) (f : Stream → Stream) : (x.onStream n f).ro = x.ro := rfl

@[simp] theorem Half.onStream_port (x : Half) (n : Nat) (f : Stream → Stream) : (x.onStream n f).port = x.port := rfl

@[simp] theorem Half.onStream_retLog (x : Half) (n : Nat) (f : Stream → Stream) : (x.onStream n f).retLog = x.retLog := rfl

/-! ### `Half.onMem` -/

@[simp] theorem Half.onMem_boot (x : Half) (n : Nat) (f : Mem → Mem) : (x.onMem n f).boot = x.boot := rfl

@[simp] theorem Half.onMem_gen (x : Half) (n : Nat) (f : Mem → Mem) : (x.onMem n f).gen = x.gen := rfl

@[simp] theorem Half.onMem_engines (x : Half) (n : Nat) (f : Mem → Mem) : (x.onMem n f).engines = x.engines := rfl

@[simp] theorem Half.onMem_chans (x : Half) (n : Nat) (f : Mem → Mem) : (x.onMem n f).chans = x.chans := rfl

@[simp] theorem Half.onMem_que (x : Half) (n : Nat) (f : Mem → Mem) : (x.onMem n f).que = x.que := rfl

@[simp] theorem Half.onMem_dma (x : Half) (n : Nat) (f : Mem → Mem) : (x.onMem n f).dma = x.dma := rfl

@[simp] theorem Half.onMem_pool (x : Half) (n : Nat) (f : Mem → Mem) : (x.onMem n f).pool = x.pool := rfl

@[simp] theorem Half.onMem_gut (x : Half) (n : Nat) (f : Mem → Mem) : (x.onMem n f).gut = x.gut := rfl

@[simp] theorem Half.onMem_irq (x : Half) (n : Nat) (f : Mem → Mem) : (x.onMem n f).irq = x.irq := rfl

@[simp] theorem Half.onMem_loops (x : Half) (n : Nat) (f : Mem → Mem) : (x.onMem n f).loops = x.loops := rfl

@[simp] theorem Half.onMem_pwr (x : Half) (n : Nat) (f : Mem → Mem) : (x.onMem n f).pwr = x.pwr := rfl

@[simp] theorem Half.onMem_fly (x : Half) (n : Nat) (f : Mem → Mem) : (x.onMem n f).fly = x.fly := rfl

@[simp] theorem Half.onMem_twn (x : Half) (n : Nat) (f : Mem → Mem) : (x.onMem n f).twn = x.twn := rfl

@[simp] theorem Half.onMem_mir (x : Half) (n : Nat) (f : Mem → Mem) : (x.onMem n f).mir = x.mir := rfl

@[simp] theorem Half.onMem_store (x : Half) (n : Nat) (f : Mem → Mem) : (x.onMem n f).store = x.store := rfl

@[simp] theorem Half.onMem_win (x : Half) (n : Nat) (f : Mem → Mem) : (x.onMem n f).win = x.win := rfl

@[simp] theorem Half.onMem_dec (x : Half) (n : Nat) (f : Mem → Mem) : (x.onMem n f).dec = x.dec := rfl

@[simp] theorem Half.onMem_par (x : Half) (n : Nat) (f : Mem → Mem) : (x.onMem n f).par = x.par := rfl

@[simp] theorem Half.onMem_arb (x : Half) (n : Nat) (f : Mem → Mem) : (x.onMem n f).arb = x.arb := rfl

@[simp] theorem Half.onMem_ro (x : Half) (n : Nat) (f : Mem → Mem) : (x.onMem n f).ro = x.ro := rfl

@[simp] theorem Half.onMem_port (x : Half) (n : Nat) (f : Mem → Mem) : (x.onMem n f).port = x.port := rfl

@[simp] theorem Half.onMem_retLog (x : Half) (n : Nat) (f : Mem → Mem) : (x.onMem n f).retLog = x.retLog := rfl

/-! ### `Half.onGutter` -/

@[simp] theorem Half.onGutter_boot (x : Half) (n : Nat) (f : Gutter → Gutter) : (x.onGutter n f).boot = x.boot := rfl

@[simp] theorem Half.onGutter_gen (x : Half) (n : Nat) (f : Gutter → Gutter) : (x.onGutter n f).gen = x.gen := rfl

@[simp] theorem Half.onGutter_engines (x : Half) (n : Nat) (f : Gutter → Gutter) : (x.onGutter n f).engines = x.engines :=
  rfl

@[simp] theorem Half.onGutter_chans (x : Half) (n : Nat) (f : Gutter → Gutter) : (x.onGutter n f).chans = x.chans := rfl

@[simp] theorem Half.onGutter_que (x : Half) (n : Nat) (f : Gutter → Gutter) : (x.onGutter n f).que = x.que := rfl

@[simp] theorem Half.onGutter_dma (x : Half) (n : Nat) (f : Gutter → Gutter) : (x.onGutter n f).dma = x.dma := rfl

@[simp] theorem Half.onGutter_mems (x : Half) (n : Nat) (f : Gutter → Gutter) : (x.onGutter n f).mems = x.mems := rfl

@[simp] theorem Half.onGutter_pool (x : Half) (n : Nat) (f : Gutter → Gutter) : (x.onGutter n f).pool = x.pool := rfl

@[simp] theorem Half.onGutter_irq (x : Half) (n : Nat) (f : Gutter → Gutter) : (x.onGutter n f).irq = x.irq := rfl

@[simp] theorem Half.onGutter_loops (x : Half) (n : Nat) (f : Gutter → Gutter) : (x.onGutter n f).loops = x.loops := rfl

@[simp] theorem Half.onGutter_pwr (x : Half) (n : Nat) (f : Gutter → Gutter) : (x.onGutter n f).pwr = x.pwr := rfl

@[simp] theorem Half.onGutter_fly (x : Half) (n : Nat) (f : Gutter → Gutter) : (x.onGutter n f).fly = x.fly := rfl

@[simp] theorem Half.onGutter_twn (x : Half) (n : Nat) (f : Gutter → Gutter) : (x.onGutter n f).twn = x.twn := rfl

@[simp] theorem Half.onGutter_mir (x : Half) (n : Nat) (f : Gutter → Gutter) : (x.onGutter n f).mir = x.mir := rfl

@[simp] theorem Half.onGutter_store (x : Half) (n : Nat) (f : Gutter → Gutter) : (x.onGutter n f).store = x.store := rfl

@[simp] theorem Half.onGutter_win (x : Half) (n : Nat) (f : Gutter → Gutter) : (x.onGutter n f).win = x.win := rfl

@[simp] theorem Half.onGutter_dec (x : Half) (n : Nat) (f : Gutter → Gutter) : (x.onGutter n f).dec = x.dec := rfl

@[simp] theorem Half.onGutter_par (x : Half) (n : Nat) (f : Gutter → Gutter) : (x.onGutter n f).par = x.par := rfl

@[simp] theorem Half.onGutter_arb (x : Half) (n : Nat) (f : Gutter → Gutter) : (x.onGutter n f).arb = x.arb := rfl

@[simp] theorem Half.onGutter_ro (x : Half) (n : Nat) (f : Gutter → Gutter) : (x.onGutter n f).ro = x.ro := rfl

@[simp] theorem Half.onGutter_port (x : Half) (n : Nat) (f : Gutter → Gutter) : (x.onGutter n f).port = x.port := rfl

@[simp] theorem Half.onGutter_retLog (x : Half) (n : Nat) (f : Gutter → Gutter) : (x.onGutter n f).retLog = x.retLog := rfl

/-! ### `Half.onRow` -/

@[simp] theorem Half.onRow_boot (x : Half) (n r : Nat) (s : Stripe) (f : Row → Row) : (x.onRow n r s f).boot = x.boot := rfl

@[simp] theorem Half.onRow_gen (x : Half) (n r : Nat) (s : Stripe) (f : Row → Row) : (x.onRow n r s f).gen = x.gen := rfl

@[simp] theorem Half.onRow_engines (x : Half) (n r : Nat) (s : Stripe) (f : Row → Row) : (x.onRow n r s f).engines = x.engines :=
  rfl

@[simp] theorem Half.onRow_chans (x : Half) (n r : Nat) (s : Stripe) (f : Row → Row) : (x.onRow n r s f).chans = x.chans :=
  rfl

@[simp] theorem Half.onRow_que (x : Half) (n r : Nat) (s : Stripe) (f : Row → Row) : (x.onRow n r s f).que = x.que := rfl

@[simp] theorem Half.onRow_dma (x : Half) (n r : Nat) (s : Stripe) (f : Row → Row) : (x.onRow n r s f).dma = x.dma := rfl

@[simp] theorem Half.onRow_mems (x : Half) (n r : Nat) (s : Stripe) (f : Row → Row) : (x.onRow n r s f).mems = x.mems := rfl

@[simp] theorem Half.onRow_pool (x : Half) (n r : Nat) (s : Stripe) (f : Row → Row) : (x.onRow n r s f).pool = x.pool := rfl

@[simp] theorem Half.onRow_gut (x : Half) (n r : Nat) (s : Stripe) (f : Row → Row) : (x.onRow n r s f).gut = x.gut := rfl

@[simp] theorem Half.onRow_irq (x : Half) (n r : Nat) (s : Stripe) (f : Row → Row) : (x.onRow n r s f).irq = x.irq := rfl

@[simp] theorem Half.onRow_loops (x : Half) (n r : Nat) (s : Stripe) (f : Row → Row) : (x.onRow n r s f).loops = x.loops :=
  rfl

@[simp] theorem Half.onRow_pwr (x : Half) (n r : Nat) (s : Stripe) (f : Row → Row) : (x.onRow n r s f).pwr = x.pwr := rfl

@[simp] theorem Half.onRow_fly (x : Half) (n r : Nat) (s : Stripe) (f : Row → Row) : (x.onRow n r s f).fly = x.fly := rfl

@[simp] theorem Half.onRow_twn (x : Half) (n r : Nat) (s : Stripe) (f : Row → Row) : (x.onRow n r s f).twn = x.twn := rfl

@[simp] theorem Half.onRow_mir (x : Half) (n r : Nat) (s : Stripe) (f : Row → Row) : (x.onRow n r s f).mir = x.mir := rfl

@[simp] theorem Half.onRow_store (x : Half) (n r : Nat) (s : Stripe) (f : Row → Row) : (x.onRow n r s f).store = x.store :=
  rfl

@[simp] theorem Half.onRow_win (x : Half) (n r : Nat) (s : Stripe) (f : Row → Row) : (x.onRow n r s f).win = x.win := rfl

@[simp] theorem Half.onRow_dec (x : Half) (n r : Nat) (s : Stripe) (f : Row → Row) : (x.onRow n r s f).dec = x.dec := rfl

@[simp] theorem Half.onRow_arb (x : Half) (n r : Nat) (s : Stripe) (f : Row → Row) : (x.onRow n r s f).arb = x.arb := rfl

@[simp] theorem Half.onRow_ro (x : Half) (n r : Nat) (s : Stripe) (f : Row → Row) : (x.onRow n r s f).ro = x.ro := rfl

@[simp] theorem Half.onRow_port (x : Half) (n r : Nat) (s : Stripe) (f : Row → Row) : (x.onRow n r s f).port = x.port := rfl

@[simp] theorem Half.onRow_retLog (x : Half) (n r : Nat) (s : Stripe) (f : Row → Row) : (x.onRow n r s f).retLog = x.retLog :=
  rfl

/-! ### `Half.onRebuild` -/

@[simp] theorem Half.onRebuild_boot (x : Half) (n : Nat) (f : Rebuild → Rebuild) : (x.onRebuild n f).boot = x.boot := rfl

@[simp] theorem Half.onRebuild_gen (x : Half) (n : Nat) (f : Rebuild → Rebuild) : (x.onRebuild n f).gen = x.gen := rfl

@[simp] theorem Half.onRebuild_engines (x : Half) (n : Nat) (f : Rebuild → Rebuild) : (x.onRebuild n f).engines = x.engines :=
  rfl

@[simp] theorem Half.onRebuild_chans (x : Half) (n : Nat) (f : Rebuild → Rebuild) : (x.onRebuild n f).chans = x.chans := rfl

@[simp] theorem Half.onRebuild_que (x : Half) (n : Nat) (f : Rebuild → Rebuild) : (x.onRebuild n f).que = x.que := rfl

@[simp] theorem Half.onRebuild_dma (x : Half) (n : Nat) (f : Rebuild → Rebuild) : (x.onRebuild n f).dma = x.dma := rfl

@[simp] theorem Half.onRebuild_mems (x : Half) (n : Nat) (f : Rebuild → Rebuild) : (x.onRebuild n f).mems = x.mems := rfl

@[simp] theorem Half.onRebuild_pool (x : Half) (n : Nat) (f : Rebuild → Rebuild) : (x.onRebuild n f).pool = x.pool := rfl

@[simp] theorem Half.onRebuild_gut (x : Half) (n : Nat) (f : Rebuild → Rebuild) : (x.onRebuild n f).gut = x.gut := rfl

@[simp] theorem Half.onRebuild_irq (x : Half) (n : Nat) (f : Rebuild → Rebuild) : (x.onRebuild n f).irq = x.irq := rfl

@[simp] theorem Half.onRebuild_loops (x : Half) (n : Nat) (f : Rebuild → Rebuild) : (x.onRebuild n f).loops = x.loops := rfl

@[simp] theorem Half.onRebuild_pwr (x : Half) (n : Nat) (f : Rebuild → Rebuild) : (x.onRebuild n f).pwr = x.pwr := rfl

@[simp] theorem Half.onRebuild_fly (x : Half) (n : Nat) (f : Rebuild → Rebuild) : (x.onRebuild n f).fly = x.fly := rfl

@[simp] theorem Half.onRebuild_twn (x : Half) (n : Nat) (f : Rebuild → Rebuild) : (x.onRebuild n f).twn = x.twn := rfl

@[simp] theorem Half.onRebuild_mir (x : Half) (n : Nat) (f : Rebuild → Rebuild) : (x.onRebuild n f).mir = x.mir := rfl

@[simp] theorem Half.onRebuild_store (x : Half) (n : Nat) (f : Rebuild → Rebuild) : (x.onRebuild n f).store = x.store := rfl

@[simp] theorem Half.onRebuild_win (x : Half) (n : Nat) (f : Rebuild → Rebuild) : (x.onRebuild n f).win = x.win := rfl

@[simp] theorem Half.onRebuild_dec (x : Half) (n : Nat) (f : Rebuild → Rebuild) : (x.onRebuild n f).dec = x.dec := rfl

@[simp] theorem Half.onRebuild_arb (x : Half) (n : Nat) (f : Rebuild → Rebuild) : (x.onRebuild n f).arb = x.arb := rfl

@[simp] theorem Half.onRebuild_ro (x : Half) (n : Nat) (f : Rebuild → Rebuild) : (x.onRebuild n f).ro = x.ro := rfl

@[simp] theorem Half.onRebuild_port (x : Half) (n : Nat) (f : Rebuild → Rebuild) : (x.onRebuild n f).port = x.port := rfl

@[simp] theorem Half.onRebuild_retLog (x : Half) (n : Nat) (f : Rebuild → Rebuild) : (x.onRebuild n f).retLog = x.retLog :=
  rfl

/-! ### `Half.onVisit` -/

@[simp] theorem Half.onVisit_boot (x : Half) (n : Nat) (g : BitVec 8) (k : Nat) (f : Visit → Visit) : (x.onVisit n g k f).boot = x.boot :=
  rfl

@[simp] theorem Half.onVisit_gen (x : Half) (n : Nat) (g : BitVec 8) (k : Nat) (f : Visit → Visit) : (x.onVisit n g k f).gen = x.gen :=
  rfl

@[simp] theorem Half.onVisit_engines (x : Half) (n : Nat) (g : BitVec 8) (k : Nat) (f : Visit → Visit) : (x.onVisit n g k f).engines = x.engines :=
  rfl

@[simp] theorem Half.onVisit_chans (x : Half) (n : Nat) (g : BitVec 8) (k : Nat) (f : Visit → Visit) : (x.onVisit n g k f).chans = x.chans :=
  rfl

@[simp] theorem Half.onVisit_que (x : Half) (n : Nat) (g : BitVec 8) (k : Nat) (f : Visit → Visit) : (x.onVisit n g k f).que = x.que :=
  rfl

@[simp] theorem Half.onVisit_mems (x : Half) (n : Nat) (g : BitVec 8) (k : Nat) (f : Visit → Visit) : (x.onVisit n g k f).mems = x.mems :=
  rfl

@[simp] theorem Half.onVisit_pool (x : Half) (n : Nat) (g : BitVec 8) (k : Nat) (f : Visit → Visit) : (x.onVisit n g k f).pool = x.pool :=
  rfl

@[simp] theorem Half.onVisit_gut (x : Half) (n : Nat) (g : BitVec 8) (k : Nat) (f : Visit → Visit) : (x.onVisit n g k f).gut = x.gut :=
  rfl

@[simp] theorem Half.onVisit_irq (x : Half) (n : Nat) (g : BitVec 8) (k : Nat) (f : Visit → Visit) : (x.onVisit n g k f).irq = x.irq :=
  rfl

@[simp] theorem Half.onVisit_loops (x : Half) (n : Nat) (g : BitVec 8) (k : Nat) (f : Visit → Visit) : (x.onVisit n g k f).loops = x.loops :=
  rfl

@[simp] theorem Half.onVisit_pwr (x : Half) (n : Nat) (g : BitVec 8) (k : Nat) (f : Visit → Visit) : (x.onVisit n g k f).pwr = x.pwr :=
  rfl

@[simp] theorem Half.onVisit_fly (x : Half) (n : Nat) (g : BitVec 8) (k : Nat) (f : Visit → Visit) : (x.onVisit n g k f).fly = x.fly :=
  rfl

@[simp] theorem Half.onVisit_twn (x : Half) (n : Nat) (g : BitVec 8) (k : Nat) (f : Visit → Visit) : (x.onVisit n g k f).twn = x.twn :=
  rfl

@[simp] theorem Half.onVisit_mir (x : Half) (n : Nat) (g : BitVec 8) (k : Nat) (f : Visit → Visit) : (x.onVisit n g k f).mir = x.mir :=
  rfl

@[simp] theorem Half.onVisit_store (x : Half) (n : Nat) (g : BitVec 8) (k : Nat) (f : Visit → Visit) : (x.onVisit n g k f).store = x.store :=
  rfl

@[simp] theorem Half.onVisit_win (x : Half) (n : Nat) (g : BitVec 8) (k : Nat) (f : Visit → Visit) : (x.onVisit n g k f).win = x.win :=
  rfl

@[simp] theorem Half.onVisit_dec (x : Half) (n : Nat) (g : BitVec 8) (k : Nat) (f : Visit → Visit) : (x.onVisit n g k f).dec = x.dec :=
  rfl

@[simp] theorem Half.onVisit_par (x : Half) (n : Nat) (g : BitVec 8) (k : Nat) (f : Visit → Visit) : (x.onVisit n g k f).par = x.par :=
  rfl

@[simp] theorem Half.onVisit_arb (x : Half) (n : Nat) (g : BitVec 8) (k : Nat) (f : Visit → Visit) : (x.onVisit n g k f).arb = x.arb :=
  rfl

@[simp] theorem Half.onVisit_ro (x : Half) (n : Nat) (g : BitVec 8) (k : Nat) (f : Visit → Visit) : (x.onVisit n g k f).ro = x.ro :=
  rfl

@[simp] theorem Half.onVisit_port (x : Half) (n : Nat) (g : BitVec 8) (k : Nat) (f : Visit → Visit) : (x.onVisit n g k f).port = x.port :=
  rfl

@[simp] theorem Half.onVisit_retLog (x : Half) (n : Nat) (g : BitVec 8) (k : Nat) (f : Visit → Visit) : (x.onVisit n g k f).retLog = x.retLog :=
  rfl

end Sys2Proof.Machine
end

