-- ==== Sys2Proof/Laws/Tab.lean ====
section
/-!
SUPPORT. The tables by key: what is read after a write, and that every write keeps the canonical form.
-/

namespace Sys2Proof

variable {α : Type}

/-! ### Reading after a change -/

@[simp] theorem Tab.find_put_same (t : Tab α) (k : Nat) (v : α) : Tab.find? (t.put k v) k = some v := by
  induction t with
  | nil => simp [Tab.put, Tab.find?]
  | cons e r ih =>
    obtain ⟨i, w⟩ := e
    unfold Tab.put
    split
    · simp [Tab.find?]
    · split
      · simp [Tab.find?]
      · simp_all [Tab.find?]

theorem Tab.find_put_ne (t : Tab α) {j k : Nat} (hj : j ≠ k) (v : α) : Tab.find? (t.put k v) j = Tab.find? t j := by
  induction t with
  | nil => simp [Tab.put, Tab.find?, hj.symm]
  | cons e r ih =>
    obtain ⟨i, w⟩ := e
    unfold Tab.put
    split
    · next h => subst h; simp [Tab.find?, hj.symm]
    · split
      · by_cases h : j < k
        · have h1 : ¬ i = j := by omega
          have h2 : j < i := by omega
          simp [Tab.find?, hj.symm, h, h1, h2]
        · simp [Tab.find?, hj.symm, h]
      · simp [Tab.find?, ih]

@[simp] theorem Tab.find_change_same (t : Tab α) (k : Nat) (f : α → α) :
    Tab.find? (t.change k f) k = (Tab.find? t k).map f := by
  induction t with
  | nil => rfl
  | cons e r ih =>
    obtain ⟨i, w⟩ := e
    unfold Tab.change
    split
    · next h => simp [Tab.find?, h]
    · split
      · next h1 h2 => simp [Tab.find?, h1, h2]
      · next h1 h2 => simp [Tab.find?, h1, h2, ih]

theorem Tab.find_change_ne (t : Tab α) {j k : Nat} (hj : j ≠ k) (f : α → α) :
    Tab.find? (t.change k f) j = Tab.find? t j := by
  induction t with
  | nil => rfl
  | cons e r ih =>
    obtain ⟨i, w⟩ := e
    unfold Tab.change
    split
    · next h => subst h; simp [Tab.find?, hj.symm]
    · split <;> simp [Tab.find?, ih]

/-! ### Tables with a default -/

theorem Tab.get_put_same (d : α) (t : Tab α) (k : Nat) (v : α) : Tab.get d (t.put k v) k = v := by
  induction t with
  | nil => simp [Tab.put, Tab.get]
  | cons e r ih =>
    obtain ⟨i, w⟩ := e
    unfold Tab.put
    split
    · simp [Tab.get]
    · split <;> simp_all [Tab.get]

theorem Tab.get_put_ne (d : α) (t : Tab α) {j k : Nat} (hj : j ≠ k) (v : α) :
    Tab.get d (t.put k v) j = Tab.get d t j := by
  induction t with
  | nil => simp [Tab.put, Tab.get, hj.symm]
  | cons e r ih =>
    obtain ⟨i, w⟩ := e
    unfold Tab.put
    split
    · next h => subst h; simp [Tab.get, hj.symm]
    · split
      · by_cases h : j < k
        · have h1 : ¬ i = j := by omega
          have h2 : j < i := by omega
          simp [Tab.get, hj.symm, h, h1, h2]
        · simp [Tab.get, hj.symm, h]
      · simp [Tab.get, ih]

/-! ### The canonical form -/

theorem Tab.rising_weaken {t : Tab α} {lo hi : Nat} (h : lo ≤ hi) (ht : Tab.risingFrom hi t = true) :
    Tab.risingFrom lo t = true := by
  cases t with
  | nil => rfl
  | cons e r => simp only [Tab.risingFrom, Bool.and_eq_true, decide_eq_true_eq] at ht ⊢; exact ⟨by omega, ht.2⟩

theorem Tab.rising_put {t : Tab α} {lo k : Nat} (hk : lo ≤ k) (v : α) (ht : Tab.risingFrom lo t = true) :
    Tab.risingFrom lo (t.put k v) = true := by
  induction t generalizing lo with
  | nil => simp [Tab.put, Tab.risingFrom, hk]
  | cons e r ih =>
    obtain ⟨i, w⟩ := e
    simp only [Tab.risingFrom, Bool.and_eq_true, decide_eq_true_eq] at ht
    unfold Tab.put
    split
    · next h => subst h; simpa [Tab.risingFrom] using ht
    · split
      · simp only [Tab.risingFrom, Bool.and_eq_true, decide_eq_true_eq]; exact ⟨hk, by omega, ht.2⟩
      · simp only [Tab.risingFrom, Bool.and_eq_true, decide_eq_true_eq]; exact ⟨ht.1, ih (by omega) ht.2⟩

theorem Tab.rising_drop {t : Tab α} {lo : Nat} (k : Nat) (ht : Tab.risingFrom lo t = true) :
    Tab.risingFrom lo (t.drop k) = true := by
  induction t generalizing lo with
  | nil => rfl
  | cons e r ih =>
    obtain ⟨i, w⟩ := e
    simp only [Tab.risingFrom, Bool.and_eq_true, decide_eq_true_eq] at ht
    unfold Tab.drop
    split
    · exact Tab.rising_weaken (by omega) ht.2
    · split
      · simpa [Tab.risingFrom] using ht
      · simp only [Tab.risingFrom, Bool.and_eq_true, decide_eq_true_eq]; exact ⟨ht.1, ih ht.2⟩

theorem Tab.find_above {t : Tab α} {lo k : Nat} (ht : Tab.risingFrom lo t = true) (hk : k < lo) : Tab.find? t k = none := by
  cases t with
  | nil => rfl
  | cons e r =>
    obtain ⟨i, w⟩ := e
    simp only [Tab.risingFrom, Bool.and_eq_true, decide_eq_true_eq] at ht
    have h1 : ¬ i = k := by omega
    have h2 : k < i := by omega
    simp [Tab.find?, h1, h2]

/-- An entry taken out of a table in canonical form is not found any more. -/
theorem Tab.find_drop_same {t : Tab α} {lo : Nat} (k : Nat) (ht : Tab.risingFrom lo t = true) :
    Tab.find? (t.drop k) k = none := by
  induction t generalizing lo with
  | nil => rfl
  | cons e r ih =>
    obtain ⟨i, w⟩ := e
    simp only [Tab.risingFrom, Bool.and_eq_true, decide_eq_true_eq] at ht
    unfold Tab.drop
    split
    · exact Tab.find_above ht.2 (by omega)
    · split
      · next h1 h2 => simp [Tab.find?, h1, h2]
      · next h1 h2 => simp [Tab.find?, h1, h2, ih ht.2]

variable [DecidableEq α]

theorem Tab.wf_weaken {d : α} {t : Tab α} {lo hi : Nat} (h : lo ≤ hi) (ht : Tab.wfFrom d hi t = true) :
    Tab.wfFrom d lo t = true := by
  cases t with
  | nil => rfl
  | cons e r => simp only [Tab.wfFrom, Bool.and_eq_true, decide_eq_true_eq] at ht ⊢; exact ⟨⟨by omega, ht.1.2⟩, ht.2⟩

theorem Tab.wfFrom_put {d v : α} (hv : v ≠ d) {t : Tab α} {lo k : Nat} (hk : lo ≤ k) (ht : Tab.wfFrom d lo t = true) :
    Tab.wfFrom d lo (t.put k v) = true := by
  induction t generalizing lo with
  | nil => simp [Tab.put, Tab.wfFrom, hk, hv]
  | cons e r ih =>
    obtain ⟨i, w⟩ := e
    simp only [Tab.wfFrom, Bool.and_eq_true, decide_eq_true_eq] at ht
    unfold Tab.put
    split
    · next h => subst h; simp only [Tab.wfFrom, Bool.and_eq_true, decide_eq_true_eq]; exact ⟨⟨hk, hv⟩, ht.2⟩
    · split
      · simp only [Tab.wfFrom, Bool.and_eq_true, decide_eq_true_eq]; exact ⟨⟨hk, hv⟩, ⟨by omega, ht.1.2⟩, ht.2⟩
      · simp only [Tab.wfFrom, Bool.and_eq_true, decide_eq_true_eq]; exact ⟨ht.1, ih (by omega) ht.2⟩

theorem Tab.wfFrom_drop {d : α} {t : Tab α} {lo : Nat} (k : Nat) (ht : Tab.wfFrom d lo t = true) :
    Tab.wfFrom d lo (t.drop k) = true := by
  induction t generalizing lo with
  | nil => rfl
  | cons e r ih =>
    obtain ⟨i, w⟩ := e
    simp only [Tab.wfFrom, Bool.and_eq_true, decide_eq_true_eq] at ht
    unfold Tab.drop
    split
    · exact Tab.wf_weaken (by omega) ht.2
    · split
      · simpa [Tab.wfFrom] using ht
      · simp only [Tab.wfFrom, Bool.and_eq_true, decide_eq_true_eq]; exact ⟨ht.1, ih ht.2⟩

/-- A write keeps the canonical form. -/
theorem Tab.wf_set {d : α} {t : Tab α} (k : Nat) (v : α) (ht : Tab.wf d t = true) : Tab.wf d (Tab.set d t k v) = true := by
  unfold Tab.set
  split
  · exact Tab.wfFrom_drop k ht
  · next h => exact Tab.wfFrom_put h (Nat.zero_le k) ht

/-- A change of an entry keeps the canonical form. -/
theorem Tab.wf_modify {d : α} {t : Tab α} (k : Nat) (f : α → α) (ht : Tab.wf d t = true) :
    Tab.wf d (Tab.modify d t k f) = true := Tab.wf_set k _ ht

theorem Tab.get_above {d : α} {t : Tab α} {lo k : Nat} (ht : Tab.wfFrom d lo t = true) (hk : k < lo) : Tab.get d t k = d := by
  cases t with
  | nil => rfl
  | cons e r =>
    obtain ⟨i, w⟩ := e
    simp only [Tab.wfFrom, Bool.and_eq_true, decide_eq_true_eq] at ht
    have h1 : ¬ i = k := by omega
    have h2 : k < i := by omega
    simp [Tab.get, h1, h2]

theorem Tab.get_drop_same {d : α} {t : Tab α} {lo : Nat} (k : Nat) (ht : Tab.wfFrom d lo t = true) :
    Tab.get d (t.drop k) k = d := by
  induction t generalizing lo with
  | nil => rfl
  | cons e r ih =>
    obtain ⟨i, w⟩ := e
    simp only [Tab.wfFrom, Bool.and_eq_true, decide_eq_true_eq] at ht
    unfold Tab.drop
    split
    · exact Tab.get_above ht.2 (by omega)
    · split
      · next h1 h2 => simp [Tab.get, h1, h2]
      · next h1 h2 => simp [Tab.get, h1, h2, ih ht.2]

/-- What was written is read back. -/
theorem Tab.get_set_same {d : α} {t : Tab α} (k : Nat) (v : α) (ht : Tab.wf d t = true) :
    Tab.get d (Tab.set d t k v) k = v := by
  unfold Tab.set
  split
  · next h => rw [h]; exact Tab.get_drop_same k ht
  · exact Tab.get_put_same d t k v

theorem Tab.get_drop_ne {d : α} {t : Tab α} {lo j k : Nat} (hj : j ≠ k) (ht : Tab.wfFrom d lo t = true) :
    Tab.get d (t.drop k) j = Tab.get d t j := by
  induction t generalizing lo with
  | nil => rfl
  | cons e r ih =>
    obtain ⟨i, w⟩ := e
    simp only [Tab.wfFrom, Bool.and_eq_true, decide_eq_true_eq] at ht
    unfold Tab.drop
    split
    · next h =>
      subst h
      by_cases hl : j < i
      · rw [Tab.get_above ht.2 (by omega)]; simp [Tab.get, hj.symm, hl]
      · simp [Tab.get, hj.symm, hl]
    · split
      · rfl
      · simp [Tab.get, ih ht.2]

/-- A write leaves every other entry. -/
theorem Tab.get_set_ne {d : α} {t : Tab α} {j k : Nat} (hj : j ≠ k) (v : α) (ht : Tab.wf d t = true) :
    Tab.get d (Tab.set d t k v) j = Tab.get d t j := by
  unfold Tab.set
  split
  · exact Tab.get_drop_ne hj ht
  · exact Tab.get_put_ne d t hj v

end Sys2Proof
end

