-- ==== Sys2Proof/Laws/Frame.lean ====
section
/-!
SUPPORT. What the operations of the block leave alone: the configuration, the general settings of the halves and the enables of the
interlock. `Block.core` is that part of the block; an operation that changes no enable leaves it as it was.
-/

namespace Sys2Proof.Machine

open Sys2Proof

/-- The part of what the halves share that most operations leave alone: the enables, and how far a brown-out is latched for good. -/
def Pair.core (p : Pair) : Tab HalfId × Bool × Bool × Bool := (p.enable, p.latched, p.ranPhase, p.bringHold)

@[simp] theorem Pair.core_eta (p : Pair) : (p.enable, p.latched, p.ranPhase, p.bringHold) = p.core := rfl

@[simp] theorem Pair.core_mk (p0 : Bool) (p1 : PinPhase) (p2 : Bool) (p3 : Bool) (p4 : Bool) (p5 : Nat) (p6 : Nat) (p7 : Bool) (p8 : Nat) (p9 : Bool) (p10 : Bool) (p11 : Bool) (p12 : Nat) (p13 : Bool) (p14 : Nat) (p15 : Nat) (p16 : Bool) (p17 : Tab HalfId) (p18 : Tab PadRing) (p19 : List (HalfId × Bool × Instr)) (p20 : BitVec 31) (p21 : Nat) (p22 : BitVec 64) (p23 : HalfId) (p24 : Tab Group) (p25 : List Nat) (p26 : Nat) (p27 : Resp) :
    ({ powered := p0, phase := p1, ranPhase := p2, brownout := p3, latched := p4, holdupMs := p5, budget := p6, budgetTgl := p7, budgetIn := p8, updateEn := p9, frozen := p10, frzPend := p11, frzCause := p12, boThaw := p13, frzTicks := p14, frzCount := p15, bringHold := p16, enable := p17, pads := p18, held := p19, seed := p20, seedSince := p21, nextSeq := p22, owner := p23, groups := p24, voidMarks := p25, leaves := p26, dbg := p27 } : Pair).core = (p17, p4, p2, p16) := rfl

/-- The part of a block that most operations leave alone. -/
def Block.core (b : Block) : Variant × GenCfg × GenCfg × Tab HalfId × Bool × Bool × Bool :=
  (b.variant, b.ha.gen, b.hb.gen, b.pair.core)

@[simp] theorem Block.core_mk (v : Variant) (p : Pair) (x y : Half) (n : Nat) :
    ({ variant := v, pair := p, ha := x, hb := y, freeUses := n } : Block).core = (v, x.gen, y.gen, p.core) := rfl

@[simp] theorem Block.core_eta (b : Block) : (b.variant, b.ha.gen, b.hb.gen, b.pair.core) = b.core := rfl

@[simp] theorem Block.onPair_core (b : Block) (f : Pair → Pair) (hf : ∀ p, (f p).core = p.core) : (b.onPair f).core = b.core := by
  simp [Block.onPair, hf]

@[simp] theorem Block.onHalf_core (b : Block) (h : HalfId) (f : Half → Half) (hf : ∀ x, (f x).gen = x.gen) :
    (b.onHalf h f).core = b.core := by
  cases h <;> simp [Block.onHalf, Block.setHalf, Block.half, hf]

@[simp] theorem Block.setHalf_core (b : Block) (h : HalfId) (x : Half) (hx : x.gen = (b.half h).gen) :
    (b.setHalf h x).core = b.core := by
  cases h <;> simp_all [Block.setHalf, Block.half]

@[simp] theorem foldl_core {α : Type} (f : Block → α → Block) (hf : ∀ a e, (f a e).core = a.core) (l : List α) (b : Block) :
    (l.foldl f b).core = b.core := by
  induction l generalizing b with
  | nil => rfl
  | cons e l ih => rw [List.foldl_cons, ih, hf]

@[simp] theorem foldl_gen {α : Type} (f : Half → α → Half) (hf : ∀ a e, (f a e).gen = a.gen) (l : List α) (x : Half) :
    (l.foldl f x).gen = x.gen := by
  induction l generalizing x with
  | nil => rfl
  | cons e l ih => rw [List.foldl_cons, ih, hf]

theorem foldl_pair {α : Type} (f : Pair → α → Pair) (hf : ∀ a e, (f a e).core = a.core) (l : List α) (p : Pair) :
    (l.foldl f p).core = p.core := by
  induction l generalizing p with
  | nil => rfl
  | cons e l ih => rw [List.foldl_cons, ih, hf]

@[simp] theorem Block.each_core {α : Type} (b : Block) (l : List α) (f : Block → α → Block) (hf : ∀ a e, (f a e).core = a.core) :
    (b.each l f).core = b.core := foldl_core f hf l b

@[simp] theorem Block.when_core (b : Block) (c : Bool) (f : Block → Block) (hf : ∀ a, (f a).core = a.core) :
    (b.when c f).core = b.core := by
  unfold Block.when
  split
  · exact hf b
  · rfl

/-! ### What the halves share -/

@[simp] theorem Pair.noteChange_core (p : Pair) (e : JEntry) (i : Nat) : (p.noteChange e i).core = p.core := by
  unfold Pair.noteChange
  split <;> rfl

@[simp] theorem Pair.join_core (p : Pair) (tag seq pages : Nat) (early : Bool) : (p.join tag seq pages early).1.core = p.core := by
  unfold Pair.join
  (repeat' split) <;> rfl

@[simp] theorem Pair.close_core (p : Pair) (tag seq : Nat) : (p.close tag seq).1.core = p.core := by
  unfold Pair.close
  (repeat' split) <;> rfl

@[simp] theorem Pair.groupCheck_core (p : Pair) (o : Opcode) (e : Entry) (seq : Nat) (early : Option Status) :
    (p.groupCheck o e seq early).1.core = p.core := by
  unfold Pair.groupCheck
  dsimp only
  (repeat' split) <;> simp

@[simp] theorem Pair.memberEnds_core (p : Pair) (tag seq : Nat) (good : Bool) : (p.memberEnds tag seq good).core = p.core := by
  unfold Pair.memberEnds
  split <;> rfl

@[simp] theorem Pair.takeSeed_core (p : Pair) (s : BitVec 31 × Nat) : (p.takeSeed s).core = p.core := by
  unfold Pair.takeSeed
  split <;> rfl

@[simp] theorem Pair.onPad_core (p : Pair) (c : Nat) (f : PadRing → PadRing) : (p.onPad c f).core = p.core := rfl

/-! ### The operations -/


@[simp] theorem Block.send_core (b : Block) (h : HalfId) (m : Msg) : (Block.send b h m).core = b.core := by
  unfold Block.send; dsimp only; (repeat' split) <;> (try simp [apply_ite Block.core, apply_ite Half.gen]) <;> (first | apply Block.each_core | apply Block.onHalf_core | apply foldl_core | apply foldl_gen) <;> intros <;> (try dsimp only) <;> (repeat' split) <;> simp [apply_ite Block.core, apply_ite Half.gen]

@[simp] theorem Block.onCtx_core (b : Block) (seq : Nat) (f : Ctx → Ctx) : (Block.onCtx b seq f).core = b.core := by
  unfold Block.onCtx; (repeat' split) <;> first | rfl | (apply Block.onHalf_core; intro x; (repeat' split) <;> rfl) | simp

@[simp] theorem Block.awaitLink_core (b : Block) (h : HalfId) (seq : Nat) : (Block.awaitLink b h seq).core = b.core := by
  unfold Block.awaitLink
  cases b.ackOf h <;> simp [Option.elim]

@[simp] theorem Block.finish_core (b : Block) (h : HalfId) (seq : Nat) (st : Status) (result : Nat) : (Block.finish b h seq st result).core = b.core := by
  unfold Block.finish; dsimp only; (repeat' split) <;> (try simp [apply_ite Block.core, apply_ite Half.gen]) <;> (first | apply Block.each_core | apply Block.onHalf_core | apply foldl_core | apply foldl_gen) <;> intros <;> (try dsimp only) <;> (repeat' split) <;> simp [apply_ite Block.core, apply_ite Half.gen]

@[simp] theorem Block.pushOps_core (b : Block) (i : Nat) (l : List DieOp) : (Block.pushOps b i l).core = b.core := by
  unfold Block.pushOps; (repeat' split) <;> first | rfl | (apply Block.onHalf_core; intro x; (repeat' split) <;> rfl) | simp

@[simp] theorem Block.pump_core (b : Block) (i : Nat) : (Block.pump b i).core = b.core := by
  unfold Block.pump; dsimp only; (repeat' split) <;> (try simp [apply_ite Block.core, apply_ite Half.gen]) <;> (first | apply Block.each_core | apply Block.onHalf_core | apply foldl_core | apply foldl_gen) <;> intros <;> (try dsimp only) <;> (repeat' split) <;> simp [apply_ite Block.core, apply_ite Half.gen]

@[simp] theorem Block.padUnbegun_core (b : Block) (seq : Nat) (c : Ctx) : (Block.padUnbegun b seq c).core = b.core := by
  simp [Block.padUnbegun]

@[simp] theorem Half.onDriven_gen (x : Half) (f : Chan → Chan) : (Half.onDriven x f).gen = x.gen := by
  exact foldl_gen (fun (y : Half) c => y.onChan c f) (fun _ _ => rfl) _ _

@[simp] theorem Half.dropReads_gen (x : Half) (seq : Nat) : (Half.dropReads x seq).gen = x.gen := by
  simp [Half.dropReads]

@[simp] theorem Half.countWatch_gen (x : Half) (c : Ctx) : (Half.countWatch x c).gen = x.gen := by
  unfold Half.countWatch; split <;> simp

@[simp] theorem Block.endRead_core (b : Block) (h : HalfId) (seq : Nat) (c : Ctx) : (Block.endRead b h seq c).core = b.core := by
  simp [Block.endRead]

@[simp] theorem Block.refuse_core (b : Block) (h : HalfId) (seq : Nat) (st : Status) : (Block.refuse b h seq st).core = b.core := by
  simp [Block.refuse]

@[simp] theorem Block.notePool_core (b : Block) (h : HalfId) : (Block.notePool b h).core = b.core := by
  simp [Block.notePool]

@[simp] theorem Half.setRec_gen (x : Half) (i : Nat) (r : Rec) : (Half.setRec x i r).gen = x.gen := by
  simp [Half.setRec]

@[simp] theorem Block.shareProgress_core (b : Block) (h : HalfId) (seq : Nat) : (Block.shareProgress b h seq).core = b.core := by
  unfold Block.shareProgress; split <;> simp

@[simp] theorem Block.appendJrnl_core (b : Block) (h : HalfId) (seq : Option Nat) (l : List JEntry) : (Block.appendJrnl b h seq l).core = b.core := by
  unfold Block.appendJrnl; dsimp only; (repeat' split) <;> (try simp [apply_ite Block.core, apply_ite Half.gen]) <;> (first | apply Block.each_core | apply Block.onHalf_core | apply foldl_core | apply foldl_gen) <;> intros <;> (try dsimp only) <;> (repeat' split) <;> simp [apply_ite Block.core, apply_ite Half.gen]

@[simp] theorem Block.raise_core (b : Block) (h : HalfId) (s : Nat) : (Block.raise b h s).core = b.core := by
  simp [Block.raise, apply_ite Block.core, apply_ite Half.gen]

@[simp] theorem Block.journal_core (b : Block) (h : HalfId) (seq : Option Nat) (es : List JEntry) : (Block.journal b h seq es).core = b.core := by
  unfold Block.journal; dsimp only; (repeat' split) <;> (try simp [apply_ite Block.core, apply_ite Half.gen]) <;> (first | apply Block.each_core | apply Block.onHalf_core | apply foldl_core | apply foldl_gen) <;> intros <;> (try dsimp only) <;> (repeat' split) <;> simp [apply_ite Block.core, apply_ite Half.gen]

@[simp] theorem Block.updRec_core (b : Block) (h : HalfId) (seq : Option Nat) (i : Nat) (group : Nat) (gseq : Nat) (freed : Bool) (f : Rec → Rec) : (Block.updRec b h seq i group gseq freed f).core = b.core := by
  simp [Block.updRec]

@[simp] theorem Block.writeTension_core (b : Block) (seq : Nat) (k : Cw) : (Block.writeTension b seq k).core = b.core := by
  unfold Block.writeTension; (repeat' split) <;> simp [apply_ite Block.core, apply_ite Half.gen]

@[simp] theorem Half.countCw_gen (x : Half) (e : CwEnd) : (Half.countCw x e).gen = x.gen := by
  simp [Half.countCw]

@[simp] theorem Block.putCw_core (b : Block) (seq : Nat) (i : Nat) (k : Cw) : (Block.putCw b seq i k).core = b.core := by
  unfold Block.putCw; (repeat' split) <;> simp

@[simp] theorem Block.startCws_core (b : Block) (seq : Nat) (named : Place) (t : Place) (slot : Nat) (n : Nat) (entry : Nat) (kind : OpKind) (what : CwFor) : (Block.startCws b seq named t slot n entry kind what).core = b.core := by
  unfold Block.startCws; dsimp only; (repeat' split) <;> (try simp [apply_ite Block.core, apply_ite Half.gen]) <;> (first | apply Block.each_core | apply Block.onHalf_core | apply foldl_core | apply foldl_gen) <;> intros <;> (try dsimp only) <;> (repeat' split) <;> simp [apply_ite Block.core, apply_ite Half.gen]

@[simp] theorem Block.askOne_core (b : Block) (seq : Nat) (i : Nat) (kind : OpKind) (cls : Nat) (sampleSlc : Bool) (k : Cw) : (Block.askOne b seq i kind cls sampleSlc k).core = b.core := by
  unfold Block.askOne; dsimp only; (repeat' split) <;> simp [apply_ite Block.core, apply_ite Half.gen]

@[simp] theorem Block.askSense_core (b : Block) (seq : Nat) : (Block.askSense b seq).core = b.core := by
  unfold Block.askSense
  split
  · rfl
  · refine Block.each_core _ _ _ (fun a k => ?_)
    (repeat' split) <;> simp

@[simp] theorem Block.closeRead_core (b : Block) (h : HalfId) (seq : Nat) (c : Ctx) : (Block.closeRead b h seq c).core = b.core := by
  unfold Block.closeRead; dsimp only; (repeat' split) <;> simp [apply_ite Block.core, apply_ite Half.gen]

@[simp] theorem Block.updRecs_core (b : Block) (h : HalfId) (who : Option Nat) (l : List (Nat × Rec)) (more : List JEntry) : (Block.updRecs b h who l more).core = b.core := by
  simp [Block.updRecs]

@[simp] theorem Half.setRegion_gen (x : Half) (own : Bool) (n : Nat) (d : RgnDesc) : (Half.setRegion x own n d).gen = x.gen := by
  simp [Half.setRegion, apply_ite Block.core, apply_ite Half.gen]

@[simp] theorem Block.closeRegion_core (b : Block) (h : HalfId) (own : Bool) (seq : Nat) (n : Nat) (crc : BitVec 32) : (Block.closeRegion b h own seq n crc).core = b.core := by
  unfold Block.closeRegion; dsimp only; (repeat' split) <;> (repeat' first | rfl | rw [Block.onHalf_core] | (intros; rfl) | (intros; simp; done) | simp)

@[simp] theorem Block.closeStep_core (b : Block) (h : HalfId) (seq : Nat) (c : Ctx) : (Block.closeStep b h seq c).core = b.core := by
  simp [Block.closeStep, apply_ite Block.core, apply_ite Half.gen]

@[simp] theorem Block.endCopyRead_core (b : Block) (h : HalfId) (seq : Nat) (c : Ctx) : (Block.endCopyRead b h seq c).core = b.core := by
  simp [Block.endCopyRead]

@[simp] theorem Half.lowRows_gen (x : Half) : (Half.lowRows x).gen = x.gen := by
  simp [Half.lowRows]

@[simp] theorem Block.reserve_core (b : Block) (seq : Nat) (t : Place) (n : Nat) (touch : Bool) (stream : Bool) (data : Option (List (List Payload))) : (Block.reserve b seq t n touch stream data).core = b.core := by
  unfold Block.reserve; split <;> simp

@[simp] theorem Block.copyWrite_core (b : Block) (h : HalfId) (seq : Nat) (c : Ctx) : (Block.copyWrite b h seq c).core = b.core := by
  unfold Block.copyWrite; (repeat' split) <;> simp

@[simp] theorem Block.copyStep_core (b : Block) (h : HalfId) (seq : Nat) (c : Ctx) : (Block.copyStep b h seq c).core = b.core := by
  simp [Block.copyStep, apply_ite Block.core, apply_ite Half.gen]

@[simp] theorem Block.endRaw_core (b : Block) (h : HalfId) (seq : Nat) (c : Ctx) : (Block.endRaw b h seq c).core = b.core := by
  simp [Block.endRaw]

@[simp] theorem Block.refill_core (b : Block) (seq : Nat) (c : Ctx) : (Block.refill b seq c).core = b.core := by
  simp [Block.refill]

@[simp] theorem Half.loadProfile_gen (x : Half) (n : Nat) (p : Profile) : (Half.loadProfile x n p).gen = x.gen := by
  unfold Half.loadProfile; dsimp only; (repeat' split) <;> (try simp [apply_ite Block.core, apply_ite Half.gen]) <;> (first | apply Block.each_core | apply Block.onHalf_core | apply foldl_core | apply foldl_gen) <;> intros <;> (try dsimp only) <;> (repeat' split) <;> simp [apply_ite Block.core, apply_ite Half.gen]

@[simp] theorem Block.endProfileLoad_core (b : Block) (h : HalfId) (seq : Nat) (c : Ctx) : (Block.endProfileLoad b h seq c).core = b.core := by
  simp [Block.endProfileLoad, apply_ite Block.core, apply_ite Half.gen]

@[simp] theorem Block.startVerify_core (b : Block) (seq : Nat) (c : Ctx) : (Block.startVerify b seq c).core = b.core := by
  refine Block.each_core _ _ _ (fun a p => ?_)
  split <;> simp

@[simp] theorem Block.holdPage_core (b : Block) (h : HalfId) (seq : Nat) (slots : List Payload) : (Block.holdPage b h seq slots).core = b.core := by
  unfold Block.holdPage; dsimp only; (repeat' split) <;> simp [apply_ite Block.core, apply_ite Half.gen]

@[simp] theorem Block.endProgramCmd_core (b : Block) (h : HalfId) (seq : Nat) (c : Ctx) : (Block.endProgramCmd b h seq c).core = b.core := by
  simp [Block.endProgramCmd, apply_ite Block.core, apply_ite Half.gen]

@[simp] theorem Block.programStep_core (b : Block) (h : HalfId) (seq : Nat) (c : Ctx) : (Block.programStep b h seq c).core = b.core := by
  simp [Block.programStep, apply_ite Block.core, apply_ite Half.gen]

@[simp] theorem Block.rebuildCws_core (b : Block) (seq : Nat) (r : Rebuild) : (Block.rebuildCws b seq r).core = b.core := by
  unfold Block.rebuildCws; split <;> simp

@[simp] theorem Block.rebuildRow_core (b : Block) (seq : Nat) (r : Rebuild) : (Block.rebuildRow b seq r).core = b.core := by
  unfold Block.rebuildRow; (repeat' split) <;> simp

@[simp] theorem Block.rebuildWrite_core (b : Block) (seq : Nat) (t : Place) (n : Nat) (data : Option (List Payload)) : (Block.rebuildWrite b seq t n data).core = b.core := by
  simp [Block.rebuildWrite]

@[simp] theorem Block.askMembers_core (b : Block) (seq : Nat) : (Block.askMembers b seq).core = b.core := by
  unfold Block.askMembers
  split
  · rfl
  · refine Block.each_core _ _ _ (fun a i => ?_)
    (repeat' split) <;> simp

@[simp] theorem Block.rebuildEnds_core (b : Block) (h : HalfId) (seq : Nat) (n : Nat) (r : Rebuild) (st : Status) (c : Ctx) : (Block.rebuildEnds b h seq n r st c).core = b.core := by
  unfold Block.rebuildEnds; dsimp only; (repeat' split) <;> (repeat' first | rfl | rw [Block.onHalf_core] | (intros; rfl) | (intros; simp; done) | simp)

@[simp] theorem Block.rebuildStep_core (b : Block) (h : HalfId) (seq : Nat) (c : Ctx) : (Block.rebuildStep b h seq c).core = b.core := by
  unfold Block.rebuildStep; dsimp only; (repeat' split) <;> (try simp [apply_ite Block.core, apply_ite Half.gen]) <;> (first | apply Block.each_core | apply Block.onHalf_core | apply foldl_core | apply foldl_gen) <;> intros <;> (try dsimp only) <;> (repeat' split) <;> simp [apply_ite Block.core, apply_ite Half.gen]

@[simp] theorem Block.endBlank_core (b : Block) (h : HalfId) (seq : Nat) (c : Ctx) : (Block.endBlank b h seq c).core = b.core := by
  simp [Block.endBlank]

@[simp] theorem Block.finishOne_core (b : Block) (seq : Nat) : (Block.finishOne b seq).core = b.core := by
  unfold Block.finishOne; (repeat' split) <;> simp

@[simp] theorem Block.tryFinish_core (b : Block) (seq : Nat) : (Block.tryFinish b seq).core = b.core := by
  simp [Block.tryFinish]

@[simp] theorem Block.cutStream_core (b : Block) (h : HalfId) (n : Nat) : (Block.cutStream b h n).core = b.core := by
  unfold Block.cutStream; dsimp only; (repeat' split) <;> (try simp [apply_ite Block.core, apply_ite Half.gen]) <;> (first | apply Block.each_core | apply Block.onHalf_core | apply foldl_core | apply foldl_gen) <;> intros <;> (try dsimp only) <;> (repeat' split) <;> simp [apply_ite Block.core, apply_ite Half.gen]

@[simp] theorem Block.abortRunning_core (b : Block) (h : HalfId) (seq : Nat) (c : Ctx) : (Block.abortRunning b h seq c).core = b.core := by
  unfold Block.abortRunning; split <;> simp

@[simp] theorem Block.abortOne_core (b : Block) (h : HalfId) (seq : Nat) (c : Ctx) : (Block.abortOne b h seq c).core = b.core := by
  unfold Block.abortOne
  dsimp only
  (repeat' split) <;> (try rw [Block.onPair_core _ _ (fun _ => rfl)]) <;> (try simp [apply_ite Block.core]) <;> (try rw [Block.onPair_core _ _ (fun _ => rfl)]) <;> (try rfl)

@[simp] theorem Block.place_core (b : Block) (h : HalfId) (adopted : Bool) (q : Nat) (seq : Nat) (e : Entry) (refused : Option Status) : (Block.place b h adopted q seq e refused).core = b.core := by
  unfold Block.place; dsimp only; (repeat' split) <;> (try simp [apply_ite Block.core, apply_ite Half.gen]) <;> (first | apply Block.each_core | apply Block.onHalf_core | apply foldl_core | apply foldl_gen) <;> intros <;> (try dsimp only) <;> (repeat' split) <;> simp [apply_ite Block.core, apply_ite Half.gen]

@[simp] theorem Block.precheck_core (b : Block) (o : Opcode) (e : Entry) (seq : Nat) : (Block.precheck b o e seq).1.core = b.core := by
  simp [Block.precheck]

@[simp] theorem Block.acceptEntry_core (b : Block) (h : HalfId) (adopted : Bool) (q : Nat) (seq : Nat) (e : Entry) : (Block.acceptEntry b h adopted q seq e).core = b.core := by
  unfold Block.acceptEntry; split <;> simp

@[simp] theorem Block.accepted_core (b : Block) (h : HalfId) : (Block.accepted b h).core = b.core := by
  unfold Block.accepted; (repeat' split) <;> (repeat' first | rfl | rw [Block.onHalf_core] | (intros; rfl) | (intros; simp; done) | simp)

@[simp] theorem Block.wait_core (b : Block) (h : HalfId) (target : Bool) (i : Instr) : (Block.wait b h target i).core = b.core := by
  unfold Block.wait; (repeat' split) <;> first | rfl | (apply Block.onHalf_core; intro x; (repeat' split) <;> rfl) | simp

@[simp] theorem Block.settlePads_core (b : Block) (l : List Nat) : (Block.settlePads b l).core = b.core := by
  exact Block.onPair_core _ _ (fun p => foldl_pair (fun q c => q.onPad c (fun r => r.select (q.padSource c))) (fun _ _ => rfl) _ _)

@[simp] theorem Half.countLatched_gen (x : Half) : (Half.countLatched x).gen = x.gen := by
  simp [Half.countLatched]

@[simp] theorem Half.afterPs4_gen (v : Variant) (x : Half) : (Half.afterPs4 v x).gen = x.gen := by
  simp [Half.afterPs4]

@[simp] theorem Block.respond_core (b : Block) (h : HalfId) (r : Resp) : (Block.respond b h r).core = b.core := by
  simp [Block.respond]

@[simp] theorem Half.restartQueue_gen (x : Half) (adopted : Bool) (q : Nat) : (Half.restartQueue x adopted q).gen = x.gen := by
  unfold Half.restartQueue; (repeat' split) <;> simp

@[simp] theorem Half.queueAct_gen (x : Half) (adopted : Bool) (q : Nat) (a : QAct) : (Half.queueAct x adopted q a).gen = x.gen := by
  unfold Half.queueAct; split <;> simp

@[simp] theorem Half.ackEffect_gen (x : Half) (m : Msg) : (Half.ackEffect x m).gen = x.gen := by
  unfold Half.ackEffect; (repeat' split) <;> simp

@[simp] theorem Half.ackedBy_gen (x : Half) (gone : HalfId × Nat → Bool) : (Half.ackedBy x gone).gen = x.gen := by
  simp [Half.ackedBy]

@[simp] theorem Block.addDefect_core (b : Block) (h : HalfId) (seq : Option Nat) (d : Defect) : (Block.addDefect b h seq d).core = b.core := by
  unfold Block.addDefect; dsimp only; (repeat' split) <;> (try simp [apply_ite Block.core, apply_ite Half.gen]) <;> (first | apply Block.each_core | apply Block.onHalf_core | apply foldl_core | apply foldl_gen) <;> intros <;> (try dsimp only) <;> (repeat' split) <;> simp [apply_ite Block.core, apply_ite Half.gen]

@[simp] theorem Block.ageWalk_core (b : Block) (h : HalfId) : (Block.ageWalk b h).core = b.core := by
  unfold Block.ageWalk; dsimp only; (repeat' split) <;> (try simp [apply_ite Block.core, apply_ite Half.gen]) <;> (first | apply Block.each_core | apply Block.onHalf_core | apply foldl_core | apply foldl_gen) <;> intros <;> (try dsimp only) <;> (repeat' split) <;> simp [apply_ite Block.core, apply_ite Half.gen]

@[simp] theorem Half.spill_gen (x : Half) (g : Nat) (n : Nat) : (Half.spill x g n).gen = x.gen := by
  induction n generalizing x with
  | zero => rfl
  | succ m ih =>
    unfold Half.spill
    dsimp only
    (repeat' split) <;> simp [ih]

@[simp] theorem Half.gutTake_gen (x : Half) (g : Nat) : (Half.gutTake x g).gen = x.gen := by
  unfold Half.gutTake; split <;> simp

@[simp] theorem Half.gutUnstall_gen (x : Half) (g : Nat) (n : Nat) : (Half.gutUnstall x g n).gen = x.gen := by
  induction n generalizing x with
  | zero => rfl
  | succ m ih => unfold Half.gutUnstall; split <;> simp [ih]

@[simp] theorem Half.append_gen (v : Variant) (x : Half) (g : Nat) (words : List Word) : (Half.append v x g words).gen = x.gen := by
  simp [Half.append, apply_ite Block.core, apply_ite Half.gen]

@[simp] theorem Half.notice_gen (v : Variant) (x : Half) (g : Nat) (w0 : Nat) (w1 : Nat) (w2 : Nat) (w3 : Nat) : (Half.notice v x g w0 w1 w2 w3).gen = x.gen := by
  simp [Half.notice]

@[simp] theorem Block.event_core (b : Block) (h : HalfId) (kind : Nat) (detail : Nat) (rest : Nat) : (Block.event b h kind detail rest).core = b.core := by
  unfold Block.event; (repeat' split) <;> simp [apply_ite Block.core, apply_ite Half.gen]

@[simp] theorem Block.goneAbsent_core (b : Block) (h : HalfId) (i : Nat) : (Block.goneAbsent b h i).core = b.core := by
  unfold Block.goneAbsent; (repeat' split) <;> simp [apply_ite Block.core, apply_ite Half.gen]

@[simp] theorem Block.allAbsent_core (b : Block) (gone : Nat → Bool) : (Block.allAbsent b gone).core = b.core := by
  simp [Block.allAbsent]

@[simp] theorem Half.issue_gen (x : Half) (w : MWrite) : (Half.issue x w).gen = x.gen := by
  simp [Half.issue]

@[simp] theorem Block.tellStop_core (b : Block) (h : HalfId) (adopted : Bool) (q : Nat) (consumed : Bool) : (Block.tellStop b h adopted q consumed).core = b.core := by
  unfold Block.tellStop; (repeat' split) <;> simp

@[simp] theorem Block.stopFetch_core (b : Block) (h : HalfId) (adopted : Bool) (q : Nat) (cause : Nat) (e : Entry) : (Block.stopFetch b h adopted q cause e).core = b.core := by
  unfold Block.stopFetch; (repeat' split) <;> simp [apply_ite Block.core, apply_ite Half.gen]

@[simp] theorem Block.answered_core (b : Block) (h : HalfId) (q : Nat) (seq : Nat) (e : Entry) (refused : Option Status) : (Block.answered b h q seq e refused).core = b.core := by
  unfold Block.answered; dsimp only; (repeat' split) <;> (repeat' first | rfl | rw [Block.onHalf_core] | (intros; rfl) | (intros; simp; done) | simp)

@[simp] theorem Half.mirrorRelease_gen (x : Half) (adopted : Bool) (seq : Nat) (q : Nat) (head : Nat) : (Half.mirrorRelease x adopted seq q head).gen = x.gen := by
  simp [Half.mirrorRelease]

@[simp] theorem Half.mirrorJournal_gen (x : Half) (es : List JEntry) (seq : Nat) (p : Progress) : (Half.mirrorJournal x es seq p).gen = x.gen := by
  simp [Half.mirrorJournal]

@[simp] theorem Half.mirrorFetch_gen (x : Half) (adopted : Bool) (seq : Nat) (q : Nat) (index : Nat) (e : Entry) (keyed : Bool) : (Half.mirrorFetch x adopted seq q index e keyed).gen = x.gen := by
  unfold Half.mirrorFetch; (repeat' split) <;> simp

@[simp] theorem Half.askCore_gen (x : Half) (id : Nat) : (Half.askCore x id).gen = x.gen := by
  simp [Half.askCore]

@[simp] theorem Block.askDecode_core (b : Block) (idx : Nat) (soft : Bool) : (Block.askDecode b idx soft).core = b.core := by
  unfold Block.askDecode; split <;> simp

@[simp] theorem Block.closeStream_core (b : Block) (h : HalfId) (n : Nat) : (Block.closeStream b h n).core = b.core := by
  unfold Block.closeStream; dsimp only; (repeat' split) <;> (try simp [apply_ite Block.core, apply_ite Half.gen]) <;> (first | apply Block.each_core | apply Block.onHalf_core | apply foldl_core | apply foldl_gen) <;> intros <;> (try dsimp only) <;> (repeat' split) <;> simp [apply_ite Block.core, apply_ite Half.gen]

@[simp] theorem Block.dropStream_core (b : Block) (h : HalfId) (n : Nat) : (Block.dropStream b h n).core = b.core := by
  unfold Block.dropStream
  dsimp only
  rw [Block.closeStream_core]
  have h1 : ∀ (c : Block) (f : Half → Half) (k : Nat), (∀ x, (f x).gen = x.gen) →
      ({ c.onHalf h f with freeUses := k } : Block).core = c.core := fun c f k hf => Block.onHalf_core c h f hf
  split
  · rw [h1, Block.cutStream_core]; intros; rfl
  · rw [Block.padUnbegun_core, h1, Block.cutStream_core]; intros; rfl

@[simp] theorem Block.askDrop_core (b : Block) (h : HalfId) (n : Nat) (w : Word) : (Block.askDrop b h n w).core = b.core := by
  simp [Block.askDrop, apply_ite Block.core, apply_ite Half.gen]

@[simp] theorem Block.askEntries_core (b : Block) (h : HalfId) (q : Nat) (cls : Nat) (l : List Entry) (bad : Option Nat) : (Block.askEntries b h q cls l bad).core = b.core := by
  unfold Block.askEntries; dsimp only; (repeat' split) <;> (try simp [apply_ite Block.core, apply_ite Half.gen]) <;> (first | apply Block.each_core | apply Block.onHalf_core | apply foldl_core | apply foldl_gen) <;> intros <;> (try dsimp only) <;> (repeat' split) <;> simp [apply_ite Block.core, apply_ite Half.gen]

@[simp] theorem Block.askWaiting_core (b : Block) : (Block.askWaiting b).core = b.core := by
  simp [Block.askWaiting]

@[simp] theorem Block.settle_core (b : Block) (seq : Nat) : (Block.settle b seq).core = b.core := by
  simp [Block.settle]

@[simp] theorem Block.startFill_core (b : Block) (h : HalfId) (r : Nat) (n : Nat) (second : Bool) : (Block.startFill b h r n second).core = b.core := by
  unfold Block.startFill; dsimp only; (repeat' split) <;> (try simp [apply_ite Block.core, apply_ite Half.gen]) <;> (first | apply Block.each_core | apply Block.onHalf_core | apply foldl_core | apply foldl_gen) <;> intros <;> (try dsimp only) <;> (repeat' split) <;> simp [apply_ite Block.core, apply_ite Half.gen]

@[simp] theorem Block.askFill_core (b : Block) (h : HalfId) (r : Nat) (n : Nat) : (Block.askFill b h r n).core = b.core := by
  unfold Block.askFill; dsimp only; (repeat' split) <;> (try simp [apply_ite Block.core, apply_ite Half.gen]) <;> (first | apply Block.each_core | apply Block.onHalf_core | apply foldl_core | apply foldl_gen) <;> intros <;> (try dsimp only) <;> (repeat' split) <;> simp [apply_ite Block.core, apply_ite Half.gen]

@[simp] theorem Block.freeze_core (b : Block) (cause : Nat) : (Block.freeze b cause).core = b.core := by
  unfold Block.freeze
  dsimp only
  rw [Block.onHalf_core, Block.onHalf_core, Block.settlePads_core, Block.onPair_core] <;> intros <;> rfl

@[simp] theorem Block.askFreeze_core (b : Block) (cause : Nat) : (Block.askFreeze b cause).core = b.core := by
  simp [Block.askFreeze, apply_ite Block.core, apply_ite Half.gen]

@[simp] theorem Block.askRetrain_core (b : Block) (h : HalfId) (c : Nat) (full : Bool) : (Block.askRetrain b h c full).core = b.core := by
  unfold Block.askRetrain; (repeat' split) <;> first | rfl | (apply Block.onHalf_core; intro x; (repeat' split) <;> rfl) | simp

@[simp] theorem Half.tested_gen (x : Half) (cause : Nat) : (Half.tested x cause).gen = x.gen := by
  simp [Half.tested]

@[simp] theorem Block.selfTested_core (b : Block) (h : HalfId) (cause : Nat) : (Block.selfTested b h cause).core = b.core := by
  simp [Block.selfTested]

@[simp] theorem Block.askSelftest_core (b : Block) (h : HalfId) (cause : Nat) : (Block.askSelftest b h cause).core = b.core := by
  simp [Block.askSelftest, apply_ite Block.core, apply_ite Half.gen]

@[simp] theorem Block.askYield_core (b : Block) (h : HalfId) : (Block.askYield b h).core = b.core := by
  unfold Block.askYield; dsimp only; (repeat' split) <;> (try simp [apply_ite Block.core, apply_ite Half.gen]) <;> (first | apply Block.each_core | apply Block.onHalf_core | apply foldl_core | apply foldl_gen) <;> intros <;> (try dsimp only) <;> (repeat' split) <;> simp [apply_ite Block.core, apply_ite Half.gen]

@[simp] theorem Half.refillSpares_gen (v : Variant) (grow : Bool) (x : Half) : (Half.refillSpares v grow x).gen = x.gen := by
  unfold Half.refillSpares; dsimp only; (repeat' split) <;> simp [apply_ite Block.core, apply_ite Half.gen]

@[simp] theorem Half.fitRoles_gen (v : Variant) (grow : Bool) (x : Half) : (Half.fitRoles v grow x).gen = x.gen := by
  simp [Half.fitRoles]

@[simp] theorem Half.bindEngine_gen (v : Variant) (x : Half) (e : Nat) (c : Nat) : (Half.bindEngine v x e c).gen = x.gen := by
  simp [Half.bindEngine]

@[simp] theorem Half.engage_gen (v : Variant) (x : Half) (e : Nat) (c : Nat) : (Half.engage v x e c).gen = x.gen := by
  simp [Half.engage, apply_ite Block.core, apply_ite Half.gen]

@[simp] theorem Half.placeJobs_gen (v : Variant) (x : Half) : (Half.placeJobs v x).gen = x.gen := by
  refine foldl_gen _ (fun y e => ?_) _ _
  split <;> simp

@[simp] theorem Block.placeJobs_core (b : Block) (h : HalfId) : (Block.placeJobs b h).core = b.core := by
  simp [Block.placeJobs, apply_ite Block.core, apply_ite Half.gen]

@[simp] theorem Block.shrinkReserves_core (b : Block) (h : HalfId) : (Block.shrinkReserves b h).core = b.core := by
  simp [Block.shrinkReserves]

@[simp] theorem Block.noSoft_core (b : Block) (h : HalfId) : (Block.noSoft b h).core = b.core := by
  unfold Block.noSoft
  dsimp only
  split
  · refine Block.each_core _ _ _ (fun a q => ?_)
    split
    · rfl
    · rw [Block.settle_core]
      refine Block.each_core _ _ _ (fun w i => ?_)
      (repeat' split) <;> simp
  · rfl

@[simp] theorem Block.movedNotice_core (b : Block) (h : HalfId) (c : Nat) (dir : Nat) (cause : Nat) : (Block.movedNotice b h c dir cause).core = b.core := by
  simp [Block.movedNotice]

@[simp] theorem Block.noteDegraded_core (b : Block) (h : HalfId) : (Block.noteDegraded b h).core = b.core := by
  simp [Block.noteDegraded]

@[simp] theorem Block.retireNotice_core (b : Block) (h : HalfId) (kind : Nat) (index : Nat) (cause : Nat) (restored : Bool) (word : Nat) (die : Nat) : (Block.retireNotice b h kind index cause restored word die).core = b.core := by
  simp [Block.retireNotice]

@[simp] theorem Block.onServedAt_core (b : Block) (o : DieOp) (pick : Cw → Bool) (f : Cw → Cw) : (Block.onServedAt b o pick f).core = b.core := by
  unfold Block.onServedAt
  split
  · rfl
  · rw [Block.settle_core]
    refine Block.each_core _ _ _ (fun a i => ?_)
    (repeat' split) <;> simp

@[simp] theorem Block.onServed_core (b : Block) (o : DieOp) (f : Cw → Cw) : (Block.onServed b o f).core = b.core := by
  exact Block.onServedAt_core _ _ _ _

@[simp] theorem Block.padNoticeAt_core (b : Block) (h : HalfId) (i : Nat) (n : Nat) : (Block.padNoticeAt b h i n).core = b.core := by
  simp [Block.padNoticeAt]

@[simp] theorem Block.degradedRow_core (b : Block) (h : HalfId) (i : Nat) (row : Nat) : (Block.degradedRow b h i row).core = b.core := by
  simp [Block.degradedRow]

@[simp] theorem Block.endPad_core (b : Block) (g : HalfId) (o : DieOp) (n : Nat) (ok : Bool) : (Block.endPad b g o n ok).core = b.core := by
  unfold Block.endPad; dsimp only; (repeat' split) <;> (repeat' first | rfl | rw [Block.onHalf_core] | (intros; rfl) | (intros; simp; done) | simp)

@[simp] theorem Half.pageEnded_gen (x : Half) (i : Nat) (page : Nat) (seq : Nat) (cls : Nat) : (Half.pageEnded x i page seq cls).gen = x.gen := by
  unfold Half.pageEnded; (repeat' split) <;> simp

@[simp] theorem Block.endPage_core (b : Block) (o : DieOp) (n : Nat) (ok : Bool) : (Block.endPage b o n ok).core = b.core := by
  unfold Block.endPage; (repeat' split) <;> simp [apply_ite Block.core, apply_ite Half.gen]

@[simp] theorem Block.endProgramOp_core (b : Block) (o : DieOp) (ok : Bool) : (Block.endProgramOp b o ok).core = b.core := by
  simp [Block.endProgramOp]

@[simp] theorem Half.freeSlot_gen (x : Half) (slot : Nat) : (Half.freeSlot x slot).gen = x.gen := by
  unfold Half.freeSlot; split <;> simp

@[simp] theorem Half.advanceParity_gen (x : Half) (slot : Nat) (n : Nat) : (Half.advanceParity x slot n).gen = x.gen := by
  induction n generalizing x with
  | zero => rfl
  | succ m ih =>
    unfold Half.advanceParity
    dsimp only
    (repeat' split) <;> simp [ih]

@[simp] theorem Block.endParity_core (b : Block) (o : DieOp) (ok : Bool) : (Block.endParity b o ok).core = b.core := by
  unfold Block.endParity
  dsimp only
  split
  · rfl
  · split
    · exact Block.each_core _ _ _ (fun a n => by simp)
    · rw [Block.onHalf_core]
      · split <;> simp
      · intro x
        split <;> simp

@[simp] theorem Block.rebuildErased_core (b : Block) (h : HalfId) (seq : Nat) (c : Ctx) (ok : Bool) : (Block.rebuildErased b h seq c ok).core = b.core := by
  unfold Block.rebuildErased; (repeat' split) <;> simp

@[simp] theorem Block.startPads_core (b : Block) (h : HalfId) : (Block.startPads b h).core = b.core := by
  unfold Block.startPads
  dsimp only
  rw [Block.each_core, Block.onHalf_core]
  · intros
    rfl
  · intro a r
    split <;> simp

@[simp] theorem Block.reErased_core (b : Block) (h : HalfId) (i : Nat) : (Block.reErased b h i).core = b.core := by
  unfold Block.reErased; dsimp only; (repeat' split) <;> (try simp [apply_ite Block.core, apply_ite Half.gen]) <;> (first | apply Block.each_core | apply Block.onHalf_core | apply foldl_core | apply foldl_gen) <;> intros <;> (try dsimp only) <;> (repeat' split) <;> simp [apply_ite Block.core, apply_ite Half.gen]

@[simp] theorem Block.endErase_core (b : Block) (o : DieOp) (ok : Bool) : (Block.endErase b o ok).core = b.core := by
  unfold Block.endErase; dsimp only; (repeat' split) <;> simp [apply_ite Block.core, apply_ite Half.gen]

@[simp] theorem Block.endEraseOp_core (b : Block) (o : DieOp) (ok : Bool) : (Block.endEraseOp b o ok).core = b.core := by
  unfold Block.endEraseOp; dsimp only; (repeat' split) <;> (try simp [apply_ite Block.core, apply_ite Half.gen]) <;> (first | apply Block.each_core | apply Block.onHalf_core | apply foldl_core | apply foldl_gen) <;> intros <;> (try dsimp only) <;> (repeat' split) <;> simp [apply_ite Block.core, apply_ite Half.gen]

@[simp] theorem Block.endOp_core (b : Block) (o : DieOp) : (Block.endOp b o).core = b.core := by
  unfold Block.endOp; (repeat' split) <;> simp

@[simp] theorem Block.endHeldResets_core (b : Block) (c : Nat) (out : List DieOp) : (Block.endHeldResets b c out).core = b.core := by
  simp [Block.endHeldResets]

@[simp] theorem Block.fillMirror_core (b : Block) (h : HalfId) : (Block.fillMirror b h).core = b.core := by
  simp [Block.fillMirror]

@[simp] theorem Block.takeUcode_core (b : Block) (h : HalfId) (desc : Tab RgnDesc) (good : List (Nat × Bool × Bool)) : (Block.takeUcode b h desc good).core = b.core := by
  simp [Block.takeUcode]

@[simp] theorem Half.bindEngines_gen (v : Variant) (x : Half) : (Half.bindEngines v x).gen = x.gen := by
  unfold Half.bindEngines; dsimp only; (repeat' split) <;> (try simp [apply_ite Block.core, apply_ite Half.gen]) <;> (first | apply Block.each_core | apply Block.onHalf_core | apply foldl_core | apply foldl_gen) <;> intros <;> (try dsimp only) <;> (repeat' split) <;> simp [apply_ite Block.core, apply_ite Half.gen]

@[simp] theorem Block.discoveryNotice_core (b : Block) (h : HalfId) (c : Nat) (d : Nat) (readId : BitVec 64) : (Block.discoveryNotice b h c d readId).core = b.core := by
  simp [Block.discoveryNotice]

@[simp] theorem Half.bindProfiles_gen (x : Half) (table : List Family) : (Half.bindProfiles x table).gen = x.gen := by
  simp [Half.bindProfiles]

@[simp] theorem Block.bindTable_core (b : Block) (h : HalfId) (table : List Family) : (Block.bindTable b h table).core = b.core := by
  unfold Block.bindTable
  exact (Block.each_core _ _ _ (fun a e => by simp)).trans (Block.setHalf_core _ _ _ (by simp))

@[simp] theorem Block.attachUcode_core (b : Block) (h : HalfId) (good : List (Nat × Bool × Bool)) (table : List Family) : (Block.attachUcode b h good table).core = b.core := by
  simp [Block.attachUcode]

@[simp] theorem Block.attachBoth_core (b : Block) : (Block.attachBoth b).core = b.core := by
  unfold Block.attachBoth; dsimp only; (repeat' split) <;> (try simp [apply_ite Block.core, apply_ite Half.gen]) <;> (first | apply Block.each_core | apply Block.onHalf_core | apply foldl_core | apply foldl_gen) <;> intros <;> (try dsimp only) <;> (repeat' split) <;> simp [apply_ite Block.core, apply_ite Half.gen]

@[simp] theorem Block.running_core (b : Block) (seq : Nat) : (Block.running b seq).core = b.core := by
  simp [Block.running]

@[simp] theorem Block.attachCmd_core (b : Block) (h : HalfId) (seq : Nat) (cause : Nat) : (Block.attachCmd b h seq cause).core = b.core := by
  unfold Block.attachCmd; dsimp only; (repeat' split) <;> (repeat' first | rfl | rw [Block.onHalf_core] | (intros; rfl) | (intros; simp; done) | simp)

@[simp] theorem Block.startCkpt_core (b : Block) (h : HalfId) (clean : Bool) : (Block.startCkpt b h clean).core = b.core := by
  unfold Block.startCkpt; dsimp only; (repeat' split) <;> (try simp [apply_ite Block.core, apply_ite Half.gen]) <;> (first | apply Block.each_core | apply Block.onHalf_core | apply foldl_core | apply foldl_gen) <;> intros <;> (try dsimp only) <;> (repeat' split) <;> simp [apply_ite Block.core, apply_ite Half.gen]

@[simp] theorem Half.openVisit_gen (x : Half) (n : Nat) (c : Ctx) (d : Descr) (addr : Option Nat) : (Half.openVisit x n c d addr).gen = x.gen := by
  simp [Half.openVisit]

@[simp] theorem Half.takeImplied_gen (x : Half) (n : Nat) (c : Ctx) (addr : Nat) (len : Nat) : (Half.takeImplied x n c addr len).gen = x.gen := by
  simp [Half.takeImplied]

@[simp] theorem Block.beginStream_core (b : Block) (h : HalfId) (n : Nat) (seq : Nat) (c : Ctx) : (Block.beginStream b h n seq c).core = b.core := by
  simp [Block.beginStream, apply_ite Block.core, apply_ite Half.gen]

@[simp] theorem Half.bindDue_gen (v : Variant) (x : Half) : (Half.bindDue v x).gen = x.gen := by
  refine foldl_gen _ (fun y e => ?_) _ _
  (repeat' split) <;> simp

@[simp] theorem Block.bindDue_core (b : Block) (h : HalfId) : (Block.bindDue b h).core = b.core := by
  simp [Block.bindDue, apply_ite Block.core, apply_ite Half.gen]

@[simp] theorem Block.sampleStart_core (b : Block) (seq : Nat) (c : Ctx) (t : Place) : (Block.sampleStart b seq c t).core = b.core := by
  simp [Block.sampleStart]

@[simp] theorem Block.blankCmd_core (b : Block) (h : HalfId) (seq : Nat) (c : Ctx) : (Block.blankCmd b h seq c).core = b.core := by
  unfold Block.blankCmd; (repeat' split) <;> simp [apply_ite Block.core, apply_ite Half.gen]

@[simp] theorem Half.brownWin_gen (x : Half) (h : HalfId) : (Half.brownWin x h).gen = x.gen := by
  simp [Half.brownWin, apply_ite Block.core, apply_ite Half.gen]

@[simp] theorem Half.brown_gen (x : Half) (h : HalfId) (holdup : Nat) : (Half.brown x h holdup).gen = x.gen := by
  simp [Half.brown, apply_ite Block.core, apply_ite Half.gen]

@[simp] theorem Block.feedPages_core (b : Block) (h : HalfId) (n : Nat) : (Block.feedPages b h n).core = b.core := by
  unfold Block.feedPages; dsimp only; (repeat' split) <;> (try simp [apply_ite Block.core, apply_ite Half.gen]) <;> (first | apply Block.each_core | apply Block.onHalf_core | apply foldl_core | apply foldl_gen) <;> intros <;> (try dsimp only) <;> (repeat' split) <;> simp [apply_ite Block.core, apply_ite Half.gen]

@[simp] theorem Half.writeMark_gen (x : Half) (addr : Option Nat) (code : Nat) : (Half.writeMark x addr code).gen = x.gen := by
  unfold Half.writeMark; split <;> simp

@[simp] theorem Block.dmaNotice_core (b : Block) (h : HalfId) (v : Visit) (kind : Nat) (status : Nat) : (Block.dmaNotice b h v kind status).core = b.core := by
  unfold Block.dmaNotice; dsimp only; (repeat' split) <;> simp [apply_ite Block.core, apply_ite Half.gen]

@[simp] theorem Block.signal_core (b : Block) (h : HalfId) (v : Visit) (full : Bool) : (Block.signal b h v full).core = b.core := by
  simp [Block.signal]

@[simp] theorem Block.settleVisit_core (b : Block) (h : HalfId) (slot : Nat) (gen : BitVec 8) (descNo : Nat) : (Block.settleVisit b h slot gen descNo).core = b.core := by
  unfold Block.settleVisit; dsimp only; (repeat' split) <;> (repeat' first | rfl | rw [Block.onHalf_core] | (intros; rfl) | (intros; simp; done) | simp)

@[simp] theorem Block.shortChain_core (b : Block) (h : HalfId) (n : Nat) : (Block.shortChain b h n).core = b.core := by
  unfold Block.shortChain; dsimp only; (repeat' split) <;> (try simp [apply_ite Block.core, apply_ite Half.gen]) <;> (first | apply Block.each_core | apply Block.onHalf_core | apply foldl_core | apply foldl_gen) <;> intros <;> (try dsimp only) <;> (repeat' split) <;> simp [apply_ite Block.core, apply_ite Half.gen]

@[simp] theorem Block.descDone_core (b : Block) (h : HalfId) (n : Nat) : (Block.descDone b h n).core = b.core := by
  unfold Block.descDone; dsimp only; (repeat' split) <;> (repeat' first | rfl | rw [Block.onHalf_core] | (intros; rfl) | (intros; simp; done) | simp)

@[simp] theorem Block.passDescr_core (b : Block) (h : HalfId) (n : Nat) (d : Descr) : (Block.passDescr b h n d).core = b.core := by
  unfold Block.passDescr; dsimp only; (repeat' split) <;> (try simp [apply_ite Block.core, apply_ite Half.gen]) <;> (first | apply Block.each_core | apply Block.onHalf_core | apply foldl_core | apply foldl_gen) <;> intros <;> (try dsimp only) <;> (repeat' split) <;> simp [apply_ite Block.core, apply_ite Half.gen]

@[simp] theorem Half.issueRead_gen (x : Half) (r : MRead) : (Half.issueRead x r).gen = x.gen := by
  simp [Half.issueRead]

@[simp] theorem Half.putBurst_gen (x : Half) (n : Nat) (c : Ctx) (t : Stream) (d : Descr) (a : Nat) (k : Nat) : (Half.putBurst x n c t d a k).gen = x.gen := by
  simp [Half.putBurst, apply_ite Block.core, apply_ite Half.gen]

@[simp] theorem Half.askPool_gen (x : Half) (id : Nat) : (Half.askPool x id).gen = x.gen := by
  simp [Half.askPool]

@[simp] theorem Block.burstOne_core (b : Block) (h : HalfId) (n : Nat) (c : Ctx) (t : Stream) (d : Descr) : (Block.burstOne b h n c t d).core = b.core := by
  unfold Block.burstOne; dsimp only; (repeat' split) <;> (try simp [apply_ite Block.core, apply_ite Half.gen]) <;> (first | apply Block.each_core | apply Block.onHalf_core | apply foldl_core | apply foldl_gen) <;> intros <;> (try dsimp only) <;> (repeat' split) <;> simp [apply_ite Block.core, apply_ite Half.gen]

@[simp] theorem Block.sensed_core (b : Block) (h : HalfId) (c : Nat) (d : Nat) : (Block.sensed b h c d).core = b.core := by
  unfold Block.sensed; (repeat' split) <;> (repeat' first | rfl | rw [Block.onHalf_core] | (intros; rfl) | (intros; simp; done) | simp)

@[simp] theorem Block.countSuspend_core (b : Block) (h : HalfId) (c : Nat) (d : Nat) (o : DieOp) : (Block.countSuspend b h c d o).core = b.core := by
  unfold Block.countSuspend; dsimp only; (repeat' split) <;> (try simp [apply_ite Block.core, apply_ite Half.gen]) <;> (first | apply Block.each_core | apply Block.onHalf_core | apply foldl_core | apply foldl_gen) <;> intros <;> (try dsimp only) <;> (repeat' split) <;> simp [apply_ite Block.core, apply_ite Half.gen]

@[simp] theorem Half.foldPage_gen (x : Half) (i : Nat) (page : Nat) (slots : List Payload) : (Half.foldPage x i page slots).gen = x.gen := by
  unfold Half.foldPage; (repeat' split) <;> simp

@[simp] theorem Block.foldOp_core (b : Block) (o : DieOp) : (Block.foldOp b o).core = b.core := by
  unfold Block.foldOp
  split
  · refine Block.each_core _ _ _ (fun a n => ?_)
    split <;> simp
  · rfl

@[simp] theorem Block.taskDone_core (b : Block) (h : HalfId) (c : Nat) (t : BusTask) : (Block.taskDone b h c t).core = b.core := by
  unfold Block.taskDone
  dsimp only
  have h1 : (b.onHalf h (fun x => x.onDie c t.die (fun e => e.afterTask t.kind))).core = b.core := by
    rw [Block.onHalf_core]; intros; rfl
  split
  · cases ((b.half h).die c t.die).op <;> simp [h1]
  all_goals (repeat' split) <;> first | exact h1 | (rw [Block.foldOp_core]; exact h1) | (rw [Block.sensed_core]; exact h1) | (rw [Block.onHalf_core]; exact h1; intros; rfl)

@[simp] theorem Half.askPoolFor_gen (x : Half) (v : Variant) (c : Nat) : (Half.askPoolFor x v c).gen = x.gen := by
  unfold Half.askPoolFor
  cases x.engineOf v c <;> simp [Option.elim]

@[simp] theorem Block.burstStep_core (b : Block) (h : HalfId) (c : Nat) (busy : Nat) (data : Nat) (t : BusTask) (p : Profile) (o : DieOp) (u : Burst) : (Block.burstStep b h c busy data t p o u).core = b.core := by
  unfold Block.burstStep; dsimp only; (repeat' split) <;> (repeat' first | rfl | rw [Block.onHalf_core] | (intros; rfl) | (intros; simp; done) | simp)

@[simp] theorem Block.plainTask_core (b : Block) (h : HalfId) (c : Nat) (busy : Nat) (data : Nat) (t : BusTask) (p : Profile) (first : Bool) : (Block.plainTask b h c busy data t p first).core = b.core := by
  unfold Block.plainTask; dsimp only; (repeat' split) <;> (try simp [apply_ite Block.core, apply_ite Half.gen]) <;> (first | apply Block.each_core | apply Block.onHalf_core | apply foldl_core | apply foldl_gen) <;> intros <;> (try dsimp only) <;> (repeat' split) <;> simp [apply_ite Block.core, apply_ite Half.gen]

@[simp] theorem Block.busTask_core (b : Block) (h : HalfId) (c : Nat) (busy : Nat) (data : Nat) : (Block.busTask b h c busy data).core = b.core := by
  unfold Block.busTask; dsimp only; (repeat' split) <;> (try simp [apply_ite Block.core, apply_ite Half.gen]) <;> (first | apply Block.each_core | apply Block.onHalf_core | apply foldl_core | apply foldl_gen) <;> intros <;> (try dsimp only) <;> (repeat' split) <;> simp [apply_ite Block.core, apply_ite Half.gen]

@[simp] theorem Block.capture_core (b : Block) (h : HalfId) (i : Nat) : (Block.capture b h i).core = b.core := by
  unfold Block.capture; dsimp only; (repeat' split) <;> (try simp [apply_ite Block.core, apply_ite Half.gen]) <;> (first | apply Block.each_core | apply Block.onHalf_core | apply foldl_core | apply foldl_gen) <;> intros <;> (try dsimp only) <;> (repeat' split) <;> simp [apply_ite Block.core, apply_ite Half.gen]

@[simp] theorem Block.loseDie_core (b : Block) (h : HalfId) (f : DieFind) : (Block.loseDie b h f).core = b.core := by
  unfold Block.loseDie; dsimp only; (repeat' split) <;> (try simp [apply_ite Block.core, apply_ite Half.gen]) <;> (first | apply Block.each_core | apply Block.onHalf_core | apply foldl_core | apply foldl_gen) <;> intros <;> (try dsimp only) <;> (repeat' split) <;> simp [apply_ite Block.core, apply_ite Half.gen]

@[simp] theorem Block.channelReset_core (b : Block) (h : HalfId) (c : Nat) (finds : List DieFind) : (Block.channelReset b h c finds).core = b.core := by
  unfold Block.channelReset
  dsimp only
  split
  · rw [Block.each_core]
    · (repeat' first | rfl | rw [Block.onHalf_core] | (intros; rfl) | (intros; simp; done) | simp)
    · intro a f
      split <;> (repeat' first | rfl | rw [Block.onHalf_core] | (intros; rfl) | (intros; simp; done) | simp)
  · rfl

@[simp] theorem Block.closeStart_core (b : Block) (h : HalfId) (seq : Nat) : (Block.closeStart b h seq).core = b.core := by
  unfold Block.closeStart; dsimp only; (repeat' split) <;> simp [apply_ite Block.core, apply_ite Half.gen]

@[simp] theorem Half.undo_gen (x : Half) (l : List (Nat × Int × Bool)) : (Half.undo x l).1.gen = x.gen := by
  unfold Half.undo
  suffices h : ∀ (l : List (Nat × Int × Bool)) (a : Half × List JEntry), (l.foldl (fun (a : Half × List JEntry) e =>
      let old := a.1.rec? e.1
      let new := undone old e.2.1 e.2.2
      ((a.1.setRec e.1 new).onStore (fun s => { s with underflow := s.underflow || backUnder old.valid e.2.1 }), a.2 ++ [recEntry old new e.1 0 0 false])) a).1.gen = a.1.gen from h l (x, [])
  intro l
  induction l with
  | nil => intro a; rfl
  | cons e l ih => intro a; rw [List.foldl_cons, ih]; simp

@[simp] theorem Block.undoGroup_core (b : Block) (h : HalfId) (seq : Nat) (tag : Nat) (g : Group) : (Block.undoGroup b h seq tag g).core = b.core := by
  simp [Block.undoGroup, apply_ite Block.core, apply_ite Half.gen]

@[simp] theorem Block.commitGroup_core (b : Block) (h : HalfId) (seq : Nat) (c : Ctx) (g : Group) : (Block.commitGroup b h seq c g).core = b.core := by
  unfold Block.commitGroup
  dsimp only
  rw [Block.finish_core, Block.onPair_core _ _ (by intro p; rfl)]
  split <;> simp

@[simp] theorem Block.completionNotice_core (b : Block) (h : HalfId) (adopted : Bool) (q : Nat) (i : Nat) (status : Nat) (cmdId : Nat) : (Block.completionNotice b h adopted q i status cmdId).core = b.core := by
  unfold Block.completionNotice; dsimp only; (repeat' split) <;> simp [apply_ite Block.core, apply_ite Half.gen]

@[simp] theorem Block.queueCtl_core (b : Block) (h : HalfId) (adopted : Bool) (q : Nat) (a : QAct) : (Block.queueCtl b h adopted q a).core = b.core := by
  simp [Block.queueCtl, apply_ite Block.core, apply_ite Half.gen]

@[simp] theorem Block.control_core (b : Block) (h : HalfId) (adopted : Bool) (q : Nat) (a : QAct) : (Block.control b h adopted q a).core = b.core := by
  unfold Block.control; split <;> simp

@[simp] theorem Block.touchNru_core (b : Block) (seq : Nat) (t : Place) : (Block.touchNru b seq t).core = b.core := by
  simp [Block.touchNru, apply_ite Block.core, apply_ite Half.gen]

@[simp] theorem Block.readFrom_core (b : Block) (seq : Nat) (t : Place) (slot : Nat) (n : Nat) (nru : Bool) (stream : Bool) : (Block.readFrom b seq t slot n nru stream).core = b.core := by
  simp [Block.readFrom, apply_ite Block.core, apply_ite Half.gen]

@[simp] theorem Block.copyCmd_core (b : Block) (h : HalfId) (seq : Nat) (c : Ctx) : (Block.copyCmd b h seq c).core = b.core := by
  unfold Block.copyCmd; dsimp only; (repeat' split) <;> simp [apply_ite Block.core, apply_ite Half.gen]

@[simp] theorem Block.retireDie_core (b : Block) (h : HalfId) (c : Nat) (d : Nat) (cause : Nat) : (Block.retireDie b h c d cause).core = b.core := by
  unfold Block.retireDie; dsimp only; (repeat' split) <;> (try simp [apply_ite Block.core, apply_ite Half.gen]) <;> (first | apply Block.each_core | apply Block.onHalf_core | apply foldl_core | apply foldl_gen) <;> intros <;> (try dsimp only) <;> (repeat' split) <;> simp [apply_ite Block.core, apply_ite Half.gen]

@[simp] theorem Block.countTimeout_core (b : Block) (h : HalfId) (c : Nat) (d : Nat) : (Block.countTimeout b h c d).core = b.core := by
  unfold Block.countTimeout; dsimp only; (repeat' split) <;> (try simp [apply_ite Block.core, apply_ite Half.gen]) <;> (first | apply Block.each_core | apply Block.onHalf_core | apply foldl_core | apply foldl_gen) <;> intros <;> (try dsimp only) <;> (repeat' split) <;> simp [apply_ite Block.core, apply_ite Half.gen]

@[simp] theorem Block.cutParity_core (b : Block) (h : HalfId) (o : DieOp) : (Block.cutParity b h o).core = b.core := by
  simp [Block.cutParity]

@[simp] theorem Block.dbgRespond_core (b : Block) (r : Resp) : (Block.dbgRespond b r).core = b.core := by
  unfold Block.dbgRespond; (repeat' split) <;> first | rfl | (apply Block.onHalf_core; intro x; (repeat' split) <;> rfl) | simp

@[simp] theorem Block.roData_core (b : Block) (h : HalfId) (image : Word) : (Block.roData b h image).1.core = b.core := by
  unfold Block.roData; dsimp only; (repeat' split) <;> simp [apply_ite Block.core, apply_ite Half.gen]

@[simp] theorem Block.debugGut_core (b : Block) (h : HalfId) (g : Nat) : (Block.debugGut b h g).1.core = b.core := by
  unfold Block.debugGut; dsimp only; (repeat' split) <;> (try simp [apply_ite Block.core, apply_ite Half.gen]) <;> (first | apply Block.each_core | apply Block.onHalf_core | apply foldl_core | apply foldl_gen) <;> intros <;> (try dsimp only) <;> (repeat' split) <;> simp [apply_ite Block.core, apply_ite Half.gen]

@[simp] theorem Block.debugRead_core (b : Block) (h : HalfId) (o : Nat) : (Block.debugRead b h o).1.core = b.core := by
  unfold Block.debugRead; dsimp only; (repeat' split) <;> (try simp [apply_ite Block.core, apply_ite Half.gen]) <;> (first | apply Block.each_core | apply Block.onHalf_core | apply foldl_core | apply foldl_gen) <;> intros <;> (try dsimp only) <;> (repeat' split) <;> simp [apply_ite Block.core, apply_ite Half.gen]

@[simp] theorem Half.drive_gen (x : Half) (l : List Nat) : (Half.drive x l).gen = x.gen := by
  simp [Half.drive]

@[simp] theorem Block.keepTaken_core (b : Block) (h : HalfId) : (Block.keepTaken b h).core = b.core := by
  simp [Block.keepTaken, apply_ite Block.core, apply_ite Half.gen]

@[simp] theorem Block.driveWp_core (b : Block) (h : HalfId) (on : Bool) : (Block.driveWp b h on).core = b.core := by
  exact Block.onPair_core _ _ (fun p => foldl_pair (fun q c => q.onPad c (fun r => { r with wp := on })) (fun _ _ => rfl) _ _)

@[simp] theorem Block.withdraw_core (b : Block) (seq : Nat) (i : Nat) : (Block.withdraw b seq i).core = b.core := by
  unfold Block.withdraw; (repeat' split) <;> first | rfl | (apply Block.onHalf_core; intro x; (repeat' split) <;> rfl) | simp

@[simp] theorem Block.lockOutProgram_core (b : Block) (seq : Nat) (c : Ctx) : (Block.lockOutProgram b seq c).core = b.core := by
  simp [Block.lockOutProgram]

@[simp] theorem Block.lockOutErase_core (b : Block) (h : HalfId) (seq : Nat) (t : Place) (r : Rec) : (Block.lockOutErase b h seq t r).core = b.core := by
  simp [Block.lockOutErase]

@[simp] theorem Block.lockOut_core (b : Block) (h : HalfId) (seq : Nat) (c : Ctx) : (Block.lockOut b h seq c).core = b.core := by
  unfold Block.lockOut; (repeat' split) <;> first | rfl | (apply Block.onHalf_core; intro x; (repeat' split) <;> rfl) | simp

@[simp] theorem Block.stopUpdates_core (b : Block) (h : HalfId) : (Block.stopUpdates b h).core = b.core := by
  simp [Block.stopUpdates, apply_ite Block.core, apply_ite Half.gen]

@[simp] theorem Block.syncUpdate_core (b : Block) (h : HalfId) : (Block.syncUpdate b h).core = b.core := by
  unfold Block.syncUpdate; dsimp only; (repeat' split) <;> (try simp [apply_ite Block.core, apply_ite Half.gen]) <;> (first | apply Block.each_core | apply Block.onHalf_core | apply foldl_core | apply foldl_gen) <;> intros <;> (try dsimp only) <;> (repeat' split) <;> simp [apply_ite Block.core, apply_ite Half.gen]

@[simp] theorem Half.thawed_gen (x : Half) : (Half.thawed x).gen = x.gen := by
  simp [Half.thawed, apply_ite Block.core, apply_ite Half.gen]

@[simp] theorem Half.writeMem_gen (x : Half) (o : Nat) (w : Word) : (Half.writeMem x o w).gen = x.gen := by
  unfold Half.writeMem; dsimp only; (repeat' split) <;> (try simp [apply_ite Block.core, apply_ite Half.gen]) <;> (first | apply Block.each_core | apply Block.onHalf_core | apply foldl_core | apply foldl_gen) <;> intros <;> (try dsimp only) <;> (repeat' split) <;> simp [apply_ite Block.core, apply_ite Half.gen]

@[simp] theorem Half.stray_gen (x : Half) (adopted : Bool) (q : Nat) : (Half.stray x adopted q).gen = x.gen := by
  simp [Half.stray]

@[simp] theorem Block.doorbell_core (b : Block) (h : HalfId) (adopted : Bool) (q : Nat) (t : Nat) : (Block.doorbell b h adopted q t).core = b.core := by
  unfold Block.doorbell; dsimp only; (repeat' split) <;> (repeat' first | rfl | rw [Block.onHalf_core] | (intros; rfl) | (intros; simp; done) | simp)

@[simp] theorem Block.writeDbl_core (b : Block) (h : HalfId) (o : Nat) (w : Word) : (Block.writeDbl b h o w).core = b.core := by
  unfold Block.writeDbl; split <;> simp

@[simp] theorem Block.writePool_core (b : Block) (h : HalfId) (o : Nat) (w : Word) : (Block.writePool b h o w).core = b.core := by
  simp [Block.writePool, apply_ite Block.core, apply_ite Half.gen]

@[simp] theorem Block.writeChn_core (b : Block) (h : HalfId) (o : Nat) (w : Word) : (Block.writeChn b h o w).core = b.core := by
  unfold Block.writeChn; dsimp only; (repeat' split) <;> (try simp [apply_ite Block.core, apply_ite Half.gen]) <;> (first | apply Block.each_core | apply Block.onHalf_core | apply foldl_core | apply foldl_gen) <;> intros <;> (try dsimp only) <;> (repeat' split) <;> simp [apply_ite Block.core, apply_ite Half.gen]

@[simp] theorem Block.writeFrzCtl_core (b : Block) (w : Word) (dbg : Bool) : (Block.writeFrzCtl b w dbg).core = b.core := by
  simp [Block.writeFrzCtl, apply_ite Block.core, apply_ite Half.gen]

@[simp] theorem Half.writeRoCtl_gen (x : Half) (w : Word) : (Half.writeRoCtl x w).gen = x.gen := by
  simp [Half.writeRoCtl]

@[simp] theorem Block.writeFrz_core (b : Block) (h : HalfId) (o : Nat) (w : Word) (dbg : Bool) : (Block.writeFrz b h o w dbg).core = b.core := by
  unfold Block.writeFrz; (repeat' split) <;> first | rfl | (apply Block.onHalf_core; intro x; (repeat' split) <;> rfl) | simp

@[simp] theorem Half.spillFree_gen (x : Half) (g : Nat) (w : Word) : (Half.spillFree x g w).gen = x.gen := by
  simp [Half.spillFree]

@[simp] theorem Half.unstall_gen (x : Half) (g : Nat) : (Half.unstall x g).gen = x.gen := by
  simp [Half.unstall, apply_ite Block.core, apply_ite Half.gen]

@[simp] theorem Half.writeGutCfg_gen (v : Variant) (x : Half) (g : Nat) (w : Word) : (Half.writeGutCfg v x g w).gen = x.gen := by
  simp [Half.writeGutCfg, apply_ite Block.core, apply_ite Half.gen]

@[simp] theorem Half.writeGutter_gen (v : Variant) (x : Half) (g : Nat) (o : Nat) (w : Word) : (Half.writeGutter v x g o w).gen = x.gen := by
  simp [Half.writeGutter, apply_ite Block.core, apply_ite Half.gen]

@[simp] theorem Half.writeGut_gen (v : Variant) (x : Half) (o : Nat) (w : Word) : (Half.writeGut v x o w).gen = x.gen := by
  unfold Half.writeGut; (repeat' split) <;> simp

@[simp] theorem Block.writeDma_core (b : Block) (h : HalfId) (o : Nat) (w : Word) : (Block.writeDma b h o w).core = b.core := by
  unfold Block.writeDma; (repeat' split) <;> first | rfl | (apply Block.onHalf_core; intro x; (repeat' split) <;> rfl) | simp

@[simp] theorem Block.writeQctl_core (b : Block) (h : HalfId) (adopted : Bool) (q : Nat) (w : Word) : (Block.writeQctl b h adopted q w).core = b.core := by
  simp [Block.writeQctl, apply_ite Block.core, apply_ite Half.gen]

@[simp] theorem Block.writeAdmCfg_core (b : Block) (h : HalfId) (w : Word) : (Block.writeAdmCfg b h w).core = b.core := by
  unfold Block.writeAdmCfg; dsimp only; (repeat' split) <;> (repeat' first | rfl | rw [Block.onHalf_core] | (intros; rfl) | (intros; simp; done) | simp)

@[simp] theorem Block.writeQue_core (b : Block) (h : HalfId) (o : Nat) (w : Word) : (Block.writeQue b h o w).core = b.core := by
  unfold Block.writeQue; dsimp only; (repeat' split) <;> (try simp [apply_ite Block.core, apply_ite Half.gen]) <;> (first | apply Block.each_core | apply Block.onHalf_core | apply foldl_core | apply foldl_gen) <;> intros <;> (try dsimp only) <;> (repeat' split) <;> simp [apply_ite Block.core, apply_ite Half.gen]

@[simp] theorem Block.writeTwn_core (b : Block) (h : HalfId) (o : Nat) (w : Word) : (Block.writeTwn b h o w).core = b.core := by
  unfold Block.writeTwn; dsimp only; (repeat' split) <;> (try simp [apply_ite Block.core, apply_ite Half.gen]) <;> (first | apply Block.each_core | apply Block.onHalf_core | apply foldl_core | apply foldl_gen) <;> intros <;> (try dsimp only) <;> (repeat' split) <;> simp [apply_ite Block.core, apply_ite Half.gen]

@[simp] theorem Block.startLoop_core (b : Block) (h : HalfId) (n : Nat) : (Block.startLoop b h n).core = b.core := by
  unfold Block.startLoop; dsimp only; (repeat' split) <;> (try simp [apply_ite Block.core, apply_ite Half.gen]) <;> (first | apply Block.each_core | apply Block.onHalf_core | apply foldl_core | apply foldl_gen) <;> intros <;> (try dsimp only) <;> (repeat' split) <;> simp [apply_ite Block.core, apply_ite Half.gen]

@[simp] theorem Block.writeEn_core (b : Block) (h : HalfId) (n : Nat) (on : Bool) : (Block.writeEn b h n on).core = b.core := by
  unfold Block.writeEn; dsimp only; (repeat' split) <;> (try simp [apply_ite Block.core, apply_ite Half.gen]) <;> (first | apply Block.each_core | apply Block.onHalf_core | apply foldl_core | apply foldl_gen) <;> intros <;> (try dsimp only) <;> (repeat' split) <;> simp [apply_ite Block.core, apply_ite Half.gen]

@[simp] theorem Block.writeScfg_core (b : Block) (h : HalfId) (n : Nat) (w : Word) : (Block.writeScfg b h n w).core = b.core := by
  unfold Block.writeScfg; dsimp only; (repeat' split) <;> (try simp [apply_ite Block.core, apply_ite Half.gen]) <;> (first | apply Block.each_core | apply Block.onHalf_core | apply foldl_core | apply foldl_gen) <;> intros <;> (try dsimp only) <;> (repeat' split) <;> simp [apply_ite Block.core, apply_ite Half.gen]

@[simp] theorem Block.writeLoop_core (b : Block) (h : HalfId) (o : Nat) (w : Word) : (Block.writeLoop b h o w).core = b.core := by
  unfold Block.writeLoop; (repeat' split) <;> first | rfl | (apply Block.onHalf_core; intro x; (repeat' split) <;> rfl) | simp

@[simp] theorem Block.writeSeed_core (b : Block) (h : HalfId) (w : Word) : (Block.writeSeed b h w).core = b.core := by
  unfold Block.writeSeed
  dsimp only
  (repeat' split) <;> (try rw [Block.onPair_core _ _ (fun _ => rfl)]) <;> (try simp [apply_ite Block.core]) <;> (try rw [Block.onPair_core _ _ (fun _ => rfl)]) <;> (try rfl)

@[simp] theorem Block.writeDec_core (b : Block) (h : HalfId) (o : Nat) (w : Word) : (Block.writeDec b h o w).core = b.core := by
  simp [Block.writeDec, apply_ite Block.core, apply_ite Half.gen]

@[simp] theorem Block.formatHalf_core (b : Block) (h : HalfId) : (Block.formatHalf b h).core = b.core := by
  simp [Block.formatHalf, apply_ite Block.core, apply_ite Half.gen]

@[simp] theorem Half.warm_gen (v : Variant) (x : Half) : (Half.warm v x).gen = x.gen := by
  simp [Half.warm]

@[simp] theorem Block.refuseReset_core (b : Block) (h : HalfId) : (Block.refuseReset b h).core = b.core := by
  simp [Block.refuseReset]

@[simp] theorem Block.tellWarm_core (b : Block) (h : HalfId) (old : QueMgr) : (Block.tellWarm b h old).core = b.core := by
  unfold Block.tellWarm; (repeat' split) <;> simp

@[simp] theorem Block.warmReset_core (b : Block) (h : HalfId) : (Block.warmReset b h).core = b.core := by
  simp [Block.warmReset, apply_ite Block.core, apply_ite Half.gen]

@[simp] theorem Block.writeRst_core (b : Block) (h : HalfId) (w : Word) : (Block.writeRst b h w).core = b.core := by
  simp [Block.writeRst, apply_ite Block.core, apply_ite Half.gen]

@[simp] theorem Half.endIrq_gen (x : Half) (k : Nat) (w : Word) : (Half.endIrq x k w).gen = x.gen := by
  simp [Half.endIrq]

@[simp] theorem Half.writeIrq_gen (v : Variant) (x : Half) (o : Nat) (w : Word) : (Half.writeIrq v x o w).gen = x.gen := by
  unfold Half.writeIrq; (repeat' split) <;> simp

@[simp] theorem Block.writeRec_core (b : Block) (h : HalfId) (o : Nat) (w : Word) : (Block.writeRec b h o w).core = b.core := by
  unfold Block.writeRec; (repeat' split) <;> first | rfl | (apply Block.onHalf_core; intro x; (repeat' split) <;> rfl) | simp

@[simp] theorem Half.ackAll_gen (x : Half) : (Half.ackAll x).gen = x.gen := by
  simp [Half.ackAll]

@[simp] theorem Block.declareLoss_core (b : Block) (h : HalfId) : (Block.declareLoss b h).core = b.core := by
  simp [Block.declareLoss, apply_ite Block.core, apply_ite Half.gen]

@[simp] theorem Block.degradedLine_core (b : Block) (h : HalfId) (r : Nat) (n : Nat) : (Block.degradedLine b h r n).core = b.core := by
  unfold Block.degradedLine; split <;> simp

@[simp] theorem Half.countAcc_gen (x : Half) : (Half.countAcc x).gen = x.gen := by
  simp [Half.countAcc]

@[simp] theorem Half.adoptQueues_gen (x : Half) (l : Tab Queue) (lost : Bool) : (Half.adoptQueues x l lost).gen = x.gen := by
  simp [Half.adoptQueues, apply_ite Block.core, apply_ite Half.gen]

@[simp] theorem Half.adoptStripes_gen (x : Half) (l : Tab Stripe) : (Half.adoptStripes x l).gen = x.gen := by
  simp [Half.adoptStripes]

@[simp] theorem Block.loseHold_core (b : Block) (h : HalfId) (why : Nat) (tag : Nat) : (Block.loseHold b h why tag).core = b.core := by
  simp [Block.loseHold, apply_ite Block.core, apply_ite Half.gen]

@[simp] theorem Half.emptied_gen (x : Half) : (Half.emptied x).gen = x.gen := by
  simp [Half.emptied]

@[simp] theorem Half.takeWatch_gen (x : Half) (adopted : Bool) (q : Nat) (k : Nat) (thresh : Nat) : (Half.takeWatch x adopted q k thresh).gen = x.gen := by
  simp [Half.takeWatch]

@[simp] theorem Half.adoptWatch_gen (x : Half) : (Half.adoptWatch x).gen = x.gen := by
  unfold Half.adoptWatch
  refine foldl_gen _ (fun y e => ?_) _ _
  (repeat' split) <;> simp

@[simp] theorem Half.adoptRecords_gen (x : Half) : (Half.adoptRecords x).gen = x.gen := by
  simp [Half.adoptRecords]

@[simp] theorem Block.dieResetCmd_core (b : Block) (h : HalfId) (seq : Nat) (e : Entry) : (Block.dieResetCmd b h seq e).core = b.core := by
  unfold Block.dieResetCmd; dsimp only; (repeat' split) <;> (repeat' first | rfl | rw [Block.onHalf_core] | (intros; rfl) | (intros; simp; done) | simp)

@[simp] theorem Block.drainJrnl_core (b : Block) (h : HalfId) (n : Nat) : (Block.drainJrnl b h n).core = b.core := by
  induction n generalizing b with
  | zero => rfl
  | succ m ih =>
    unfold Block.drainJrnl
    (repeat' split)
    · rw [Block.onHalf_core]; intros; rfl
    · rw [ih, Block.appendJrnl_core, Block.onHalf_core]; intros; rfl
    · rfl

@[simp] theorem Block.dropEngine_core (b : Block) (h : HalfId) (e : Nat) (cause : Nat) (word : Nat) : (Block.dropEngine b h e cause word).core = b.core := by
  unfold Block.dropEngine; (repeat' split) <;> (repeat' first | rfl | rw [Block.onHalf_core] | (intros; rfl) | (intros; simp; done) | simp)

@[simp] theorem Block.dropHeld_core (b : Block) (h : HalfId) : (Block.dropHeld b h).core = b.core := by
  unfold Block.dropHeld; (repeat' split) <;> first | rfl | (apply Block.onHalf_core; intro x; (repeat' split) <;> rfl) | simp

@[simp] theorem Half.issueSetup_gen (x : Half) (c : Nat) (d : Nat) (seq : Nat) (p : Profile) : (Half.issueSetup x c d seq p).gen = x.gen := by
  simp [Half.issueSetup]

@[simp] theorem Block.endReset_core (b : Block) (h : HalfId) (c : Nat) (d : Nat) (o : DieOp) : (Block.endReset b h c d o).core = b.core := by
  unfold Block.endReset; dsimp only; (repeat' split) <;> (repeat' first | rfl | rw [Block.onHalf_core] | (intros; rfl) | (intros; simp; done) | simp)

@[simp] theorem Block.endSetup_core (b : Block) (h : HalfId) (c : Nat) (d : Nat) (o : DieOp) : (Block.endSetup b h c d o).core = b.core := by
  unfold Block.endSetup
  rw [Block.endOp_core, Block.onHalf_core]
  intros
  rfl

@[simp] theorem Block.enterErasing_core (b : Block) (seq : Nat) (t : Place) (slc : Bool) : (Block.enterErasing b seq t slc).core = b.core := by
  unfold Block.enterErasing
  dsimp only
  split
  · simp
  · rw [Block.journal_core, Block.onHalf_core]
    intro x
    cases (b.half t.keep).openStripe t.idx <;> simp

@[simp] theorem Block.entering_core (b : Block) (g : HalfId) (seq : Nat) (k : Cw) (raw : BitVec 36864) : (Block.entering b g seq k raw).1.core = b.core := by
  unfold Block.entering; dsimp only; (repeat' split) <;> simp [apply_ite Block.core, apply_ite Half.gen]

@[simp] theorem Block.eraseCmd_core (b : Block) (h : HalfId) (seq : Nat) (c : Ctx) : (Block.eraseCmd b h seq c).core = b.core := by
  unfold Block.eraseCmd; (repeat' split) <;> simp

@[simp] theorem Half.leaveSync_gen (x : Half) : (Half.leaveSync x).gen = x.gen := by
  simp [Half.leaveSync]

@[simp] theorem Block.failAttach_core (b : Block) (h : HalfId) : (Block.failAttach b h).core = b.core := by
  unfold Block.failAttach
  refine Block.each_core _ _ _ (fun a e => ?_)
  (repeat' split) <;> (repeat' first | rfl | rw [Block.onHalf_core] | (intros; rfl) | (intros; simp; done) | simp)

@[simp] theorem Block.failCore_core (b : Block) (h : HalfId) (soft : Bool) (k : Nat) : (Block.failCore b h soft k).core = b.core := by
  simp [Block.failCore]

@[simp] theorem Block.failEngine_core (b : Block) (h : HalfId) (e : Nat) : (Block.failEngine b h e).core = b.core := by
  unfold Block.failEngine; (repeat' split) <;> (repeat' first | rfl | rw [Block.onHalf_core] | (intros; rfl) | (intros; simp; done) | simp)

@[simp] theorem Block.featureCmd_core (b : Block) (h : HalfId) (seq : Nat) (e : Entry) (values : BitVec 32) : (Block.featureCmd b h seq e values).core = b.core := by
  unfold Block.featureCmd; dsimp only; (repeat' split) <;> (try simp [apply_ite Block.core, apply_ite Half.gen]) <;> (first | apply Block.each_core | apply Block.onHalf_core | apply foldl_core | apply foldl_gen) <;> intros <;> (try dsimp only) <;> (repeat' split) <;> simp [apply_ite Block.core, apply_ite Half.gen]

@[simp] theorem Block.takeSeq_core (b : Block) : (Block.takeSeq b).2.core = b.core := by
  unfold Block.takeSeq; (repeat' split) <;> first | rfl | (apply Block.onHalf_core; intro x; (repeat' split) <;> rfl) | simp

@[simp] theorem Block.takeEntries_core (b : Block) (h : HalfId) (adopted : Bool) (q : Nat) (l : List Entry) : (Block.takeEntries b h adopted q l).core = b.core := by
  induction l generalizing b with
  | nil => rfl
  | cons e r ih =>
    unfold Block.takeEntries
    (repeat' split) <;> simp [ih]

@[simp] theorem Block.fetchBurst_core (b : Block) (h : HalfId) (adopted : Bool) (q : Nat) (l : List Entry) (bad : Option Nat) : (Block.fetchBurst b h adopted q l bad).core = b.core := by
  unfold Block.fetchBurst; dsimp only; (repeat' split) <;> (try simp [apply_ite Block.core, apply_ite Half.gen]) <;> (first | apply Block.each_core | apply Block.onHalf_core | apply foldl_core | apply foldl_gen) <;> intros <;> (try dsimp only) <;> (repeat' split) <;> simp [apply_ite Block.core, apply_ite Half.gen]

@[simp] theorem Block.prefetch_core (b : Block) (h : HalfId) (r : Nat) (n : Nat) (offset : Nat) : (Block.prefetch b h r n offset).core = b.core := by
  simp [Block.prefetch, apply_ite Block.core, apply_ite Half.gen]

@[simp] theorem Block.fetchLine_core (b : Block) (h : HalfId) (offset : Nat) (beats : Nat) (attr : Bool) : (Block.fetchLine b h offset beats attr).core = b.core := by
  unfold Block.fetchLine; dsimp only; (repeat' split) <;> (try simp [apply_ite Block.core, apply_ite Half.gen]) <;> (first | apply Block.each_core | apply Block.onHalf_core | apply foldl_core | apply foldl_gen) <;> intros <;> (try dsimp only) <;> (repeat' split) <;> simp [apply_ite Block.core, apply_ite Half.gen]

@[simp] theorem Half.serveStalled_gen (x : Half) : (Half.serveStalled x).gen = x.gen := by
  simp [Half.serveStalled]

@[simp] theorem Half.fillLine_gen (x : Half) (h : HalfId) (l : FLine) : (Half.fillLine x h l).gen = x.gen := by
  simp [Half.fillLine]

@[simp] theorem Block.fillStep_core (b : Block) (h : HalfId) (r : Nat) (n : Nat) : (Block.fillStep b h r n).core = b.core := by
  unfold Block.fillStep; dsimp only; (repeat' split) <;> simp [apply_ite Block.core, apply_ite Half.gen]

@[simp] theorem Block.giveNumber_core (b : Block) (h : HalfId) (q : Nat) (index : Nat) (e : Entry) : (Block.giveNumber b h q index e).core = b.core := by
  unfold Block.giveNumber; dsimp only; (repeat' split) <;> (repeat' first | rfl | rw [Block.onHalf_core] | (intros; rfl) | (intros; simp; done) | simp)

@[simp] theorem Block.grantCore_core (b : Block) (h : HalfId) (soft : Bool) : (Block.grantCore b h soft).core = b.core := by
  unfold Block.grantCore; dsimp only; (repeat' split) <;> (try simp [apply_ite Block.core, apply_ite Half.gen]) <;> (first | apply Block.each_core | apply Block.onHalf_core | apply foldl_core | apply foldl_gen) <;> intros <;> (try dsimp only) <;> (repeat' split) <;> simp [apply_ite Block.core, apply_ite Half.gen]

@[simp] theorem Block.takeAbsent_core (b : Block) (h : HalfId) : (Block.takeAbsent b h).core = b.core := by
  simp [Block.takeAbsent]

@[simp] theorem Half.freeWatch_gen (x : Half) (w : Option Nat) : (Half.freeWatch x w).gen = x.gen := by
  unfold Half.freeWatch; dsimp only; (repeat' split) <;> simp [apply_ite Block.core, apply_ite Half.gen]

@[simp] theorem Block.headerWaiter_core (b : Block) (h : HalfId) (adopted : Bool) (q : Nat) : (Block.headerWaiter b h adopted q).core = b.core := by
  unfold Block.headerWaiter; (repeat' split) <;> (repeat' first | rfl | rw [Block.onHalf_core] | (intros; rfl) | (intros; simp; done) | simp)

@[simp] theorem Block.underflow_core (b : Block) (h : HalfId) (yes : Bool) : (Block.underflow b h yes).core = b.core := by
  unfold Block.underflow; (repeat' split) <;> first | rfl | (apply Block.onHalf_core; intro x; (repeat' split) <;> rfl) | simp

@[simp] theorem Block.invalidateCmd_core (b : Block) (h : HalfId) (seq : Nat) (c : Ctx) : (Block.invalidateCmd b h seq c).core = b.core := by
  unfold Block.invalidateCmd; dsimp only; (repeat' split) <;> simp [apply_ite Block.core, apply_ite Half.gen]

@[simp] theorem Block.issueRow_core (b : Block) (h : HalfId) (slot : Nat) (row : Nat) (s : Stripe) : (Block.issueRow b h slot row s).core = b.core := by
  unfold Block.issueRow; dsimp only; (repeat' split) <;> (try simp [apply_ite Block.core, apply_ite Half.gen]) <;> (first | apply Block.each_core | apply Block.onHalf_core | apply foldl_core | apply foldl_gen) <;> intros <;> (try dsimp only) <;> (repeat' split) <;> simp [apply_ite Block.core, apply_ite Half.gen]

@[simp] theorem Block.jobEnded_core (b : Block) (h : HalfId) (e : Nat) : (Block.jobEnded b h e).core = b.core := by
  simp [Block.jobEnded]

@[simp] theorem Block.keepLost_core (b : Block) (h : HalfId) : (Block.keepLost b h).core = b.core := by
  simp [Block.keepLost]

@[simp] theorem Block.linkFault_core (b : Block) (h : HalfId) (detail : Nat) : (Block.linkFault b h detail).core = b.core := by
  simp [Block.linkFault]

@[simp] theorem Block.loseCtx_core (b : Block) (h : HalfId) (seq : Nat) : (Block.loseCtx b h seq).core = b.core := by
  unfold Block.loseCtx; (repeat' split) <;> simp

@[simp] theorem Half.loseDmaWord_gen (x : Half) (slot : Nat) (pos : Nat) : (Half.loseDmaWord x slot pos).gen = x.gen := by
  simp [Half.loseDmaWord, apply_ite Block.core, apply_ite Half.gen]

@[simp] theorem Block.lostHolds_core (b : Block) (h : HalfId) (tags : List Nat) : (Block.lostHolds b h tags).core = b.core := by
  simp [Block.lostHolds]

@[simp] theorem Block.opEnded_core (b : Block) (h : HalfId) (c : Nat) (d : Nat) (o : DieOp) (ok : Bool) : (Block.opEnded b h c d o ok).core = b.core := by
  unfold Block.opEnded; dsimp only; (repeat' split) <;> (try simp [apply_ite Block.core, apply_ite Half.gen]) <;> (first | apply Block.each_core | apply Block.onHalf_core | apply foldl_core | apply foldl_gen) <;> intros <;> (try dsimp only) <;> (repeat' split) <;> simp [apply_ite Block.core, apply_ite Half.gen]

@[simp] theorem Block.lunDone_core (b : Block) (h : HalfId) (c : Nat) (d : Nat) (fail : Bool) : (Block.lunDone b h c d fail).core = b.core := by
  unfold Block.lunDone; dsimp only; (repeat' split) <;> (try simp [apply_ite Block.core, apply_ite Half.gen]) <;> (first | apply Block.each_core | apply Block.onHalf_core | apply foldl_core | apply foldl_gen) <;> intros <;> (try dsimp only) <;> (repeat' split) <;> simp [apply_ite Block.core, apply_ite Half.gen]

@[simp] theorem Block.memNotice_core (b : Block) (h : HalfId) (m : Nat) (word : Nat) (repaired : Bool) : (Block.memNotice b h m word repaired).core = b.core := by
  simp [Block.memNotice]

@[simp] theorem Block.openRegion_core (b : Block) (h : HalfId) (own : Bool) (seq : Nat) (n : Nat) (d : RgnDesc) : (Block.openRegion b h own seq n d).core = b.core := by
  unfold Block.openRegion; dsimp only; (repeat' split) <;> (repeat' first | rfl | rw [Block.onHalf_core] | (intros; rfl) | (intros; simp; done) | simp)

@[simp] theorem Block.ownOps_core (b : Block) (h : HalfId) (l : List Nat) (ops : List DieOp) : (Block.ownOps b h l ops).core = b.core := by
  unfold Block.ownOps; dsimp only; (repeat' split) <;> (try simp [apply_ite Block.core, apply_ite Half.gen]) <;> (first | apply Block.each_core | apply Block.onHalf_core | apply foldl_core | apply foldl_gen) <;> intros <;> (try dsimp only) <;> (repeat' split) <;> simp [apply_ite Block.core, apply_ite Half.gen]

@[simp] theorem Half.filterPass_gen (v : Variant) (x : Half) (s : Nat) : (Half.filterPass v x s).gen = x.gen := by
  simp [Half.filterPass, apply_ite Block.core, apply_ite Half.gen]

@[simp] theorem Block.pitchQueue_core (b : Block) (h : HalfId) (ad : Bool) (seq : Nat) (e : Entry) : (Block.pitchQueue b h ad seq e).core = b.core := by
  unfold Block.pitchQueue; dsimp only; (repeat' split) <;> (try simp [apply_ite Block.core, apply_ite Half.gen]) <;> (first | apply Block.each_core | apply Block.onHalf_core | apply foldl_core | apply foldl_gen) <;> intros <;> (try dsimp only) <;> (repeat' split) <;> simp [apply_ite Block.core, apply_ite Half.gen]

@[simp] theorem Block.poisonTaken_core (b : Block) (h : HalfId) (n : Nat) : (Block.poisonTaken b h n).core = b.core := by
  simp [Block.poisonTaken]

@[simp] theorem Half.dropHold_gen (x : Half) (tag : Nat) : (Half.dropHold x tag).gen = x.gen := by
  simp [Half.dropHold]

@[simp] theorem Block.programStart_core (b : Block) (h : HalfId) (seq : Nat) (c : Ctx) (t : Place) (held : Bool) : (Block.programStart b h seq c t held).core = b.core := by
  simp [Block.programStart, apply_ite Block.core, apply_ite Half.gen]

@[simp] theorem Block.programCmd_core (b : Block) (h : HalfId) (seq : Nat) (c : Ctx) (place : Option Place) (at? : Option Nat) : (Block.programCmd b h seq c place at?).core = b.core := by
  unfold Block.programCmd; dsimp only; (repeat' split) <;> simp [apply_ite Block.core, apply_ite Half.gen]

@[simp] theorem Block.rawCmd_core (b : Block) (h : HalfId) (seq : Nat) (c : Ctx) : (Block.rawCmd b h seq c).core = b.core := by
  unfold Block.rawCmd; dsimp only; (repeat' split) <;> simp [apply_ite Block.core, apply_ite Half.gen]

@[simp] theorem Block.readCmd_core (b : Block) (h : HalfId) (seq : Nat) (c : Ctx) (nru : Bool) (stream : Bool) : (Block.readCmd b h seq c nru stream).core = b.core := by
  unfold Block.readCmd; dsimp only; (repeat' split) <;> simp [apply_ite Block.core, apply_ite Half.gen]

@[simp] theorem Block.readReturn_core (b : Block) (h : HalfId) (n : Nat) (r : MRead) (data : Nat) (poison : BitVec 64) (err : Bool) : (Block.readReturn b h n r data poison err).core = b.core := by
  unfold Block.readReturn; dsimp only; (repeat' split) <;> (repeat' first | rfl | rw [Block.onHalf_core] | (intros; rfl) | (intros; simp; done) | simp)

@[simp] theorem Block.rebuildAcc_core (b : Block) (h : HalfId) (slot : Nat) (flash : List FlashPage) : (Block.rebuildAcc b h slot flash).core = b.core := by
  unfold Block.rebuildAcc
  dsimp only
  have h1 : ∀ (c : Block) (f : Half → Half) (k : Nat), (∀ x, (f x).gen = x.gen) →
      ({ c.onHalf h f with freeUses := k } : Block).core = c.core := fun c f k hf => Block.onHalf_core c h f hf
  split
  · rfl
  · split
    · rw [Block.onHalf_core, Block.each_core, h1] <;> intros <;> simp
    · rw [Block.each_core, h1] <;> intros <;> simp

@[simp] theorem Block.rebuildAccs_core (b : Block) (h : HalfId) (slots : List Nat) (flash : List FlashPage) : (Block.rebuildAccs b h slots flash).core = b.core := by
  simp [Block.rebuildAccs]

@[simp] theorem Block.rebuildStart_core (b : Block) (h : HalfId) (seq : Nat) (src : Nat) (dst : Nat) : (Block.rebuildStart b h seq src dst).core = b.core := by
  unfold Block.rebuildStart; dsimp only; (repeat' split) <;> (try simp [apply_ite Block.core, apply_ite Half.gen]) <;> (first | apply Block.each_core | apply Block.onHalf_core | apply foldl_core | apply foldl_gen) <;> intros <;> (try dsimp only) <;> (repeat' split) <;> simp [apply_ite Block.core, apply_ite Half.gen]

@[simp] theorem Block.rebuildAgain_core (b : Block) (h : HalfId) (seq : Nat) (c : Ctx) (src : Nat) (dst : Nat) : (Block.rebuildAgain b h seq c src dst).core = b.core := by
  simp [Block.rebuildAgain]

@[simp] theorem Block.rereadCw_core (b : Block) (seq : Nat) (i : Nat) : (Block.rereadCw b seq i).core = b.core := by
  unfold Block.rereadCw; (repeat' split) <;> simp

@[simp] theorem Block.redoRow_core (b : Block) (h : HalfId) (slot : Nat) (row : Nat) (flash : List FlashPage) : (Block.redoRow b h slot row flash).core = b.core := by
  unfold Block.redoRow; dsimp only; (repeat' split) <;> (try simp [apply_ite Block.core, apply_ite Half.gen]) <;> (first | apply Block.each_core | apply Block.onHalf_core | apply foldl_core | apply foldl_gen) <;> intros <;> (try dsimp only) <;> (repeat' split) <;> simp [apply_ite Block.core, apply_ite Half.gen]

@[simp] theorem Block.unissue_core (b : Block) (seq : Nat) (i : Nat) (n : Nat) : (Block.unissue b seq i n).core = b.core := by
  unfold Block.unissue; dsimp only; (repeat' split) <;> (try simp [apply_ite Block.core, apply_ite Half.gen]) <;> (first | apply Block.each_core | apply Block.onHalf_core | apply foldl_core | apply foldl_gen) <;> intros <;> (try dsimp only) <;> (repeat' split) <;> simp [apply_ite Block.core, apply_ite Half.gen]

@[simp] theorem Block.rereadSource_core (b : Block) (seq : Nat) (c : Ctx) (p : UPage) : (Block.rereadSource b seq c p).core = b.core := by
  unfold Block.rereadSource; (repeat' split) <;> simp

@[simp] theorem Block.refetchPage_core (b : Block) (seq : Nat) (n : Nat) : (Block.refetchPage b seq n).core = b.core := by
  unfold Block.refetchPage; (repeat' split) <;> simp [apply_ite Block.core, apply_ite Half.gen]

@[simp] theorem Half.refetch_gen (x : Half) (seq : Nat) : (Half.refetch x seq).gen = x.gen := by
  unfold Half.refetch; (repeat' split) <;> simp

@[simp] theorem Block.rebuildBank_core (b : Block) (h : HalfId) (l : BankLoss) : (Block.rebuildBank b h l).core = b.core := by
  unfold Block.rebuildBank; dsimp only; (repeat' split) <;> (repeat' first | rfl | rw [Block.onHalf_core] | (intros; rfl) | (intros; simp; done) | simp)

@[simp] theorem Block.releaseHeld_core (b : Block) (h : HalfId) (c : Nat) : (Block.releaseHeld b h c).core = b.core := by
  unfold Block.releaseHeld; dsimp only; (repeat' split) <;> (try simp [apply_ite Block.core, apply_ite Half.gen]) <;> (first | apply Block.each_core | apply Block.onHalf_core | apply foldl_core | apply foldl_gen) <;> intros <;> (try dsimp only) <;> (repeat' split) <;> simp [apply_ite Block.core, apply_ite Half.gen]

@[simp] theorem Block.replaceFly_core (b : Block) (h : HalfId) (role : Nat) : (Block.replaceFly b h role).core = b.core := by
  unfold Block.replaceFly; dsimp only; (repeat' split) <;> (repeat' first | rfl | rw [Block.onHalf_core] | (intros; rfl) | (intros; simp; done) | simp)

@[simp] theorem Half.detached_gen (x : Half) : (Half.detached x).gen = x.gen := by
  simp [Half.detached]

@[simp] theorem Half.conflicted_gen (x : Half) : (Half.conflicted x).gen = x.gen := by
  simp [Half.conflicted]

@[simp] theorem Block.resolveStraps_core (b0 : Block) : (Block.resolveStraps b0).core = b0.core := by
  unfold Block.resolveStraps; dsimp only; (repeat' split) <;> simp [apply_ite Block.core, apply_ite Half.gen]

@[simp] theorem Block.restartLoops_core (b : Block) (h : HalfId) : (Block.restartLoops b h).core = b.core := by
  unfold Block.restartLoops; dsimp only; (repeat' split) <;> (try simp [apply_ite Block.core, apply_ite Half.gen]) <;> (first | apply Block.each_core | apply Block.onHalf_core | apply foldl_core | apply foldl_gen) <;> intros <;> (try dsimp only) <;> (repeat' split) <;> simp [apply_ite Block.core, apply_ite Half.gen]

@[simp] theorem Block.showMarks_core (b : Block) (h : HalfId) (l : List SpareRead) : (Block.showMarks b h l).core = b.core := by
  unfold Block.showMarks
  refine Block.onHalf_core _ _ _ (fun x => foldl_gen _ (fun y r => ?_) _ _)
  split <;> simp

@[simp] theorem Half.restoreFrom_gen (x : Half) (src : HalfId) (own : Bool) (slots : List Ckpt) (copies : List FlyRecord) (samples : List UnitSample) (marks : List SpareRead) : (Half.restoreFrom x src own slots copies samples marks).gen = x.gen := by
  unfold Half.restoreFrom; (repeat' split) <;> simp

@[simp] theorem Block.restoreFirst_core (b : Block) (h : HalfId) (slots : List Ckpt) (copies : List FlyRecord) (samples : List UnitSample) (marks : List SpareRead) (flash : List FlashPage) : (Block.restoreFirst b h slots copies samples marks flash).core = b.core := by
  unfold Block.restoreFirst
  extract_lets b0 x wide b1 top
  have h0 : b0.core = b.core := Block.showMarks_core _ _ _
  have h1 : b1.core = b0.core := by
    unfold b1
    refine Block.onHalf_core _ _ _ (fun y => ?_)
    dsimp only
    split <;> simp
  rw [Block.onPair_core, Block.rebuildAccs_core, h1, h0]
  exact fun p => Pair.takeSeed_core p _

@[simp] theorem Block.sealCkpt_core (b : Block) (h : HalfId) (j0 : Nat) : (Block.sealCkpt b h j0).core = b.core := by
  unfold Block.sealCkpt; dsimp only; (repeat' split) <;> (repeat' first | rfl | rw [Block.onHalf_core] | (intros; rfl) | (intros; simp; done) | simp)

@[simp] theorem Block.restoreLast_core (b : Block) (h : HalfId) : (Block.restoreLast b h).core = b.core := by
  simp [Block.restoreLast, apply_ite Block.core, apply_ite Half.gen]

@[simp] theorem Block.restoreNow_core (b : Block) (h : HalfId) (slots : List Ckpt) (copies : List FlyRecord) (samples : List UnitSample) (marks : List SpareRead) (flash : List FlashPage) : (Block.restoreNow b h slots copies samples marks flash).core = b.core := by
  simp [Block.restoreNow, apply_ite Block.core, apply_ite Half.gen]

@[simp] theorem Block.sampleOne_core (b : Block) (h : HalfId) (n : Nat) : (Block.sampleOne b h n).core = b.core := by
  unfold Block.sampleOne; dsimp only; (repeat' split) <;> (try simp [apply_ite Block.core, apply_ite Half.gen]) <;> (first | apply Block.each_core | apply Block.onHalf_core | apply foldl_core | apply foldl_gen) <;> intros <;> (try dsimp only) <;> (repeat' split) <;> simp [apply_ite Block.core, apply_ite Half.gen]

@[simp] theorem Block.sample_core (b : Block) (h : HalfId) (n : Nat) : (Block.sample b h n).core = b.core := by
  unfold Block.sample; (repeat' split) <;> first | rfl | (apply Block.onHalf_core; intro x; (repeat' split) <;> rfl) | simp

@[simp] theorem Half.abandon_gen (x : Half) (c : Nat) (d : Nat) (o : DieOp) : (Half.abandon x c d o).gen = x.gen := by
  simp [Half.abandon]

@[simp] theorem Half.askSuspend_gen (x : Half) (c : Nat) (d : Nat) (o : DieOp) : (Half.askSuspend x c d o).gen = x.gen := by
  simp [Half.askSuspend]

@[simp] theorem Half.issueOp_gen (x : Half) (c : Nat) (d : Nat) (p : Profile) (m : Tab Int) (o : DieOp) (below : Option Nat) : (Half.issueOp x c d p m o below).gen = x.gen := by
  simp [Half.issueOp, apply_ite Block.core, apply_ite Half.gen]

@[simp] theorem Block.schedule_core (b : Block) (h : HalfId) (c : Nat) (d : Nat) : (Block.schedule b h c d).core = b.core := by
  unfold Block.schedule; dsimp only; (repeat' split) <;> (try simp [apply_ite Block.core, apply_ite Half.gen]) <;> (first | apply Block.each_core | apply Block.onHalf_core | apply foldl_core | apply foldl_gen) <;> intros <;> (try dsimp only) <;> (repeat' split) <;> simp [apply_ite Block.core, apply_ite Half.gen]

@[simp] theorem Block.setUpdate_core (b : Block) (on : Bool) : (Block.setUpdate b on).core = b.core := by
  unfold Block.setUpdate
  rw [Block.syncUpdate_core, Block.syncUpdate_core, Block.onPair_core]
  intros
  rfl

@[simp] theorem Block.startRecovery_core (b : Block) (h : HalfId) : (Block.startRecovery b h).core = b.core := by
  unfold Block.startRecovery; dsimp only; (repeat' split) <;> (try simp [apply_ite Block.core, apply_ite Half.gen]) <;> (first | apply Block.each_core | apply Block.onHalf_core | apply foldl_core | apply foldl_gen) <;> intros <;> (try dsimp only) <;> (repeat' split) <;> simp [apply_ite Block.core, apply_ite Half.gen]

@[simp] theorem Block.stopQueue_core (b : Block) (h : HalfId) (adopted : Bool) (q : Nat) (cause : Nat) (index : Queue → Nat) : (Block.stopQueue b h adopted q cause index).core = b.core := by
  unfold Block.stopQueue; (repeat' split) <;> (repeat' first | rfl | rw [Block.onHalf_core] | (intros; rfl) | (intros; simp; done) | simp)

@[simp] theorem Half.writeHeader_gen (x : Half) (adopted : Bool) (q : Nat) (u : Queue) : (Half.writeHeader x adopted q u).gen = x.gen := by
  simp [Half.writeHeader]

@[simp] theorem Block.struck_core (b : Block) (h : HalfId) (ad : Bool) (q : Nat) : (Block.struck b h ad q).core = b.core := by
  unfold Block.struck; dsimp only; (repeat' split) <;> simp [apply_ite Block.core, apply_ite Half.gen]

@[simp] theorem Block.strikeQueue_core (b : Block) (h : HalfId) (ad : Bool) (seq : Nat) (q : Nat) (abort : Bool) : (Block.strikeQueue b h ad seq q abort).core = b.core := by
  unfold Block.strikeQueue
  dsimp only
  rw [Block.struck_core]
  split
  · rw [Block.each_core]
    · (repeat' first | rfl | rw [Block.onHalf_core] | (intros; rfl) | (intros; simp; done) | simp)
    · intro a e
      split <;> simp
  · (repeat' first | rfl | rw [Block.onHalf_core] | (intros; rfl) | (intros; simp; done) | simp)

@[simp] theorem Half.swapStripe_gen (x : Half) (src : Nat) (dst : Nat) : (Half.swapStripe x src dst).gen = x.gen := by
  unfold Half.swapStripe; split <;> simp

@[simp] theorem Block.swap_core (b : Block) (h : HalfId) (n : Nat) (r : Rebuild) : (Block.swap b h n r).core = b.core := by
  simp [Block.swap]

@[simp] theorem Block.takeFind_core (b : Block) (h : HalfId) (table : List Family) (f : DieFind) : (Block.takeFind b h table f).core = b.core := by
  unfold Block.takeFind; dsimp only; (repeat' split) <;> (try simp [apply_ite Block.core, apply_ite Half.gen]) <;> (first | apply Block.each_core | apply Block.onHalf_core | apply foldl_core | apply foldl_gen) <;> intros <;> (try dsimp only) <;> (repeat' split) <;> simp [apply_ite Block.core, apply_ite Half.gen]

@[simp] theorem Block.tookOver_core (b : Block) (h : HalfId) (t : Taken) : (Block.tookOver b h t).core = b.core := by
  simp [Block.tookOver]

@[simp] theorem Block.voidRanges_core (b : Block) (h : HalfId) (l : List (Nat × Nat × Nat × Nat × Nat)) : (Block.voidRanges b h l).core = b.core := by
  simp [Block.voidRanges]

@[simp] theorem Half.disown_gen (x : Half) (seqs : List Nat) : (Half.disown x seqs).gen = x.gen := by
  simp [Half.disown]

@[simp] theorem Block.tellRelease_core (b : Block) (h : HalfId) (adopted : Bool) (q : Nat) (seq : Nat) : (Block.tellRelease b h adopted q seq).core = b.core := by
  unfold Block.tellRelease; split <;> simp

@[simp] theorem Block.toBuf_core (b : Block) (seq : Nat) (data : Nat) (n : Nat) (result : Nat) : (Block.toBuf b seq data n result).core = b.core := by
  simp [Block.toBuf]

@[simp] theorem Block.tooLate_core (b : Block) (h : HalfId) : (Block.tooLate b h).core = b.core := by
  simp [Block.tooLate]

@[simp] theorem Block.walk_core (b : Block) (h : HalfId) (n : Nat) (c : Ctx) (d : Descr) : (Block.walk b h n c d).core = b.core := by
  simp [Block.walk, apply_ite Block.core, apply_ite Half.gen]

@[simp] theorem Block.writeAnswered_core (b : Block) (h : HalfId) (w : MWrite) (n : Nat) (gen : BitVec 8) (descNo : Nat) (err : Bool) : (Block.writeAnswered b h w n gen descNo err).core = b.core := by
  unfold Block.writeAnswered; dsimp only; (repeat' split) <;> (repeat' first | rfl | rw [Block.onHalf_core] | (intros; rfl) | (intros; simp; done) | simp)

@[simp] theorem Half.askBack_gen (x : Half) (n : Nat) : (Half.askBack x n).gen = x.gen := by
  simp [Half.askBack]

@[simp] theorem Half.assignFly_gen (v : Variant) (h : HalfId) (x : Half) : (Half.assignFly v h x).gen = x.gen := by
  unfold Half.assignFly; split <;> simp

@[simp] theorem Half.coreDone_gen (x : Half) (id : Nat) : (Half.coreDone x id).gen = x.gen := by
  simp [Half.coreDone]

@[simp] theorem Half.countEdge_gen (x : Half) : (Half.countEdge x).gen = x.gen := by
  simp [Half.countEdge]

@[simp] theorem Half.fillAll_gen (x : Half) : (Half.fillAll x).gen = x.gen := by
  unfold Half.fillAll; dsimp only; (repeat' split) <;> (try simp [apply_ite Block.core, apply_ite Half.gen]) <;> (first | apply Block.each_core | apply Block.onHalf_core | apply foldl_core | apply foldl_gen) <;> intros <;> (try dsimp only) <;> (repeat' split) <;> simp [apply_ite Block.core, apply_ite Half.gen]

@[simp] theorem Half.gutRead_gen (x : Half) (g : Nat) : (Half.gutRead x g).gen = x.gen := by
  simp [Half.gutRead, apply_ite Block.core, apply_ite Half.gen]

@[simp] theorem Half.landed_gen (x : Half) (k : WriteKind) : (Half.landed x k).gen = x.gen := by
  simp [Half.landed]

@[simp] theorem Half.onDone_gen (x : Half) (c : Ctx) : (Half.onDone x c).gen = x.gen := by
  unfold Half.onDone; (repeat' split) <;> simp

@[simp] theorem Half.releaseCtx_gen (x : Half) (seq : Nat) : (Half.releaseCtx x seq).gen = x.gen := by
  simp [Half.releaseCtx]

@[simp] theorem Half.spillAck_gen (x : Half) (g : Nat) : (Half.spillAck x g).gen = x.gen := by
  unfold Half.spillAck; split <;> simp

@[simp] theorem Half.spillFail_gen (x : Half) (g : Nat) : (Half.spillFail x g).gen = x.gen := by
  simp [Half.spillFail, apply_ite Block.core, apply_ite Half.gen]

@[simp] theorem Half.strikeAll_gen (x : Half) : (Half.strikeAll x).gen = x.gen := by
  simp [Half.strikeAll, apply_ite Block.core, apply_ite Half.gen]

@[simp] theorem Half.writeReply_gen (x : Half) (seq : Nat) (c : Ctx) (u : Queue) (st : Status) : (Half.writeReply x seq c u st).gen = x.gen := by
  simp [Half.writeReply]

end Sys2Proof.Machine
end

