-- ==== Sys2Proof/Laws/Inv.lean ====
section
/-!
SUPPORT. The operations that do touch the general settings or the enables of the interlock keep `CoreOk`, the invariant of the block read
on `Block.core`.
-/

namespace Sys2Proof.Machine

open Sys2Proof

/-- What a block keeps, on its core: its configuration `v0`, its general settings inside their limits, its enables rising by channel, and,
where `fin` asks for it, a brown-out latched for good (R34, R548, R640). -/
def CoreOk (v0 : Variant) (fin : Bool) (k : Variant × GenCfg × GenCfg × Tab HalfId × Bool × Bool × Bool) : Prop :=
  k.1 = v0 ∧ k.2.1.inLimits v0 = true ∧ k.2.2.1.inLimits v0 = true ∧ Tab.risingFrom 0 k.2.2.2.1 = true ∧
    (fin = true → k.2.2.2.2 = (true, true, false))

variable {v0 : Variant} {fin : Bool}

theorem Block.inv_iff (b : Block) : b.Inv ↔ CoreOk b.variant false b.core := by
  constructor
  · rintro ⟨h1, h2⟩
    exact ⟨rfl, h1 .a, h1 .b, h2, fun h => nomatch h⟩
  · rintro ⟨-, h1, h2, h3, -⟩
    refine ⟨fun h => ?_, h3⟩
    cases h
    · exact h1
    · exact h2

theorem Block.inv_final_iff (b : Block) : (b.Inv ∧ b.LatchedForGood) ↔ CoreOk b.variant true b.core := by
  constructor
  · rintro ⟨⟨h1, h2⟩, h3, h4, h5⟩
    refine ⟨rfl, h1 .a, h1 .b, h2, fun _ => ?_⟩
    show (b.pair.latched, b.pair.ranPhase, b.pair.bringHold) = _
    rw [h3, h4, h5]
  · rintro ⟨-, h1, h2, h3, h4⟩
    have h5 : (b.pair.latched, b.pair.ranPhase, b.pair.bringHold) = (true, true, false) := h4 rfl
    refine ⟨⟨fun h => ?_, h3⟩, congrArg Prod.fst h5, congrArg (fun e => e.2.1) h5, congrArg (fun e => e.2.2) h5⟩
    cases h
    · exact h1
    · exact h2

/-- A change of one half that keeps its general settings inside their limits. -/
theorem Block.onHalf_ok (b : Block) (h : HalfId) (f : Half → Half)
    (hf : ∀ x, x.gen.inLimits v0 = true → (f x).gen.inLimits v0 = true) (hb : CoreOk v0 fin b.core) :
    CoreOk v0 fin (b.onHalf h f).core := by
  cases h
  · exact ⟨hb.1, hf _ hb.2.1, hb.2.2⟩
  · exact ⟨hb.1, hb.2.1, hf _ hb.2.2.1, hb.2.2.2⟩

/-- A change of one half that leaves its general settings alone. -/
theorem Block.onHalf_same (b : Block) (h : HalfId) (f : Half → Half) (hf : ∀ x, (f x).gen = x.gen) (hb : CoreOk v0 fin b.core) :
    CoreOk v0 fin (b.onHalf h f).core := by
  rw [Block.onHalf_core _ _ _ hf]
  exact hb

/-- A change of what the halves share that keeps the enables rising and a brown-out latched for good. -/
theorem Block.onPair_ok (b : Block) (f : Pair → Pair)
    (hf : Tab.risingFrom 0 b.pair.enable = true → Tab.risingFrom 0 (f b.pair).enable = true)
    (hl : b.pair.core.2 = (true, true, false) → (f b.pair).core.2 = (true, true, false)) (hb : CoreOk v0 fin b.core) :
    CoreOk v0 fin (b.onPair f).core := ⟨hb.1, hb.2.1, hb.2.2.1, hf hb.2.2.2.1, fun h => hl (hb.2.2.2.2 h)⟩

/-- A change of what the halves share that leaves their core alone. -/
theorem Block.onPair_same (b : Block) (f : Pair → Pair) (hf : ∀ p, (f p).core = p.core) (hb : CoreOk v0 fin b.core) :
    CoreOk v0 fin (b.onPair f).core := by
  rw [Block.onPair_core _ _ hf]
  exact hb

@[simp] theorem foldl_ok {α : Type} (f : Block → α → Block) (hf : ∀ a e, CoreOk v0 fin a.core → CoreOk v0 fin (f a e).core) (l : List α) (b : Block)
    (hb : CoreOk v0 fin b.core) : CoreOk v0 fin (l.foldl f b).core := by
  induction l generalizing b with
  | nil => exact hb
  | cons e l ih => exact ih _ (hf _ _ hb)

@[simp] theorem Block.each_ok {α : Type} (b : Block) (l : List α) (f : Block → α → Block) (hf : ∀ a e, CoreOk v0 fin a.core → CoreOk v0 fin (f a e).core)
    (hb : CoreOk v0 fin b.core) : CoreOk v0 fin (b.each l f).core := foldl_ok f hf l b hb

@[simp] theorem Block.when_ok (b : Block) (c : Bool) (f : Block → Block) (hf : ∀ a, CoreOk v0 fin a.core → CoreOk v0 fin (f a).core) (hb : CoreOk v0 fin b.core) :
    CoreOk v0 fin (b.when c f).core := by
  unfold Block.when
  split
  · exact hf b hb
  · exact hb

theorem Word.field_lt (w : Word) (a n : Nat) : w.field a n < 2 ^ n := by
  exact Nat.mod_lt _ (Nat.two_pow_pos n)

/-- A write of a general register keeps the settings inside the limits at which they are stored. -/
theorem GenCfg.write_inLimits (v : Variant) (g : GenCfg) (o : Nat) (w : Word) (hg : g.inLimits v = true) :
    (g.write v o w).inLimits v = true := by
  have f4 := Word.field_lt w
  simp only [GenCfg.inLimits, Bool.and_eq_true, decide_eq_true_eq] at hg
  unfold GenCfg.write
  split <;> simp only [GenCfg.inLimits, Bool.and_eq_true, decide_eq_true_eq] <;>
    simp_all only [and_self, true_and, and_true]
  · exact Nat.min_le_right _ _
  · have := f4 8 6; have := f4 16 8
    refine ⟨⟨?_, ?_⟩, ?_⟩ <;> (try unfold atLeast1) <;> (try split) <;> omega
  · have := f4 16 16
    have : 1 ≤ Config.openLimit v := by cases v <;> decide
    have := Nat.min_le_right (w.field 9 7) 64
    refine ⟨⟨⟨?_, ?_⟩, ?_⟩, ?_⟩
    · unfold clampTo
      (repeat' split) <;> omega
    · unfold clampTo
      (repeat' split) <;> omega
    · assumption
    · assumption
  · exact f4 0 10
  · exact ⟨⟨⟨f4 0 4, f4 4 4⟩, f4 8 4⟩, f4 12 4⟩

theorem GenCfg.reset_inLimits (v : Variant) : (GenCfg.reset v).inLimits v = true := by
  cases v <;> decide

theorem ite_ok {c : Prop} [Decidable c] {x y : Block} (hx : CoreOk v0 fin x.core) (hy : CoreOk v0 fin y.core) : CoreOk v0 fin (if c then x else y).core := by
  split
  · exact hx
  · exact hy


@[simp] theorem Block.takeEnable_ok (b : Block) (h : HalfId) (c : Nat) (hb : CoreOk v0 fin b.core) : CoreOk v0 fin (Block.takeEnable b h c).core := by
  unfold Block.takeEnable
  split
  · exact hb
  · split
    · exact hb
    · simp only [Block.notePool_core]
      rw [Block.onHalf_core _ _ _ (by simp), Block.settlePads_core]
      refine Block.onPair_ok _ _ (fun he => Tab.rising_put (Nat.zero_le _) _ he) (fun hl => ?_) hb
      have h1 : b.pair.latched = true := congrArg Prod.fst hl
      have h2 : b.pair.bringHold = false := congrArg (fun e => e.2.2) hl
      show (b.pair.latched, true, b.pair.bringHold) = _
      rw [h1, h2]

@[simp] theorem Block.takeAll_ok (b : Block) (h : HalfId) (hb : CoreOk v0 fin b.core) : CoreOk v0 fin (Block.takeAll b h).core := by
  exact Block.each_ok _ _ _ (fun a c ha => Block.takeEnable_ok _ _ _ ha) hb

@[simp] theorem Block.wakeOne_ok (b : Block) (h : HalfId) (cause : Nat) (hb : CoreOk v0 fin b.core) : CoreOk v0 fin (Block.wakeOne b h cause).core := by
  unfold Block.wakeOne; dsimp only; (repeat' split) <;> (try simp [hb]) <;> (first | apply Block.each_ok | apply Block.onHalf_ok | apply foldl_ok) <;> (try intros) <;> (try dsimp only) <;> (repeat' split) <;> simp [*]

@[simp] theorem Block.wake_ok (b : Block) (h : HalfId) (cause : Nat) (hb : CoreOk v0 fin b.core) : CoreOk v0 fin (Block.wake b h cause).core := by
  unfold Block.wake; (repeat' split) <;> simp [hb]

@[simp] theorem Block.dropEnable_ok (b : Block) (h : HalfId) (c : Nat) (hb : CoreOk v0 fin b.core) : CoreOk v0 fin (Block.dropEnable b h c).core := by
  unfold Block.dropEnable
  split
  · rw [Block.onHalf_core _ _ _ (by simp), Block.settlePads_core]
    exact Block.onPair_ok _ _ (fun he => Tab.rising_drop _ he) (fun hl => hl) hb
  · exact hb

@[simp] theorem Block.dropAll_ok (b : Block) (h : HalfId) (hb : CoreOk v0 fin b.core) : CoreOk v0 fin (Block.dropAll b h).core := by
  exact Block.each_ok _ _ _ (fun a c ha => Block.dropEnable_ok _ _ _ ha) hb

@[simp] theorem Block.beginPs2_ok (b : Block) (h : HalfId) (hb : CoreOk v0 fin b.core) : CoreOk v0 fin (Block.beginPs2 b h).core := by
  simp [Block.beginPs2, hb]

@[simp] theorem Block.fellAsleep_ok (b : Block) (h : HalfId) (hb : CoreOk v0 fin b.core) : CoreOk v0 fin (Block.fellAsleep b h).core := by
  unfold Block.fellAsleep; (repeat' split) <;> simp [hb]

@[simp] theorem Block.ackOldest_ok (b : Block) (h : HalfId) (hb : CoreOk v0 fin b.core) : CoreOk v0 fin (Block.ackOldest b h).core := by
  unfold Block.ackOldest; (repeat' split) <;> simp [hb]

@[simp] theorem Block.raiseWake_ok (b : Block) (h : HalfId) (s : Nat) (hb : CoreOk v0 fin b.core) : CoreOk v0 fin (Block.raiseWake b h s).core := by
  unfold Block.raiseWake; (repeat' split) <;> simp [hb]

@[simp] theorem Block.twinAnnounces_ok (b : Block) (h : HalfId) (n : Nat) (watch : Bool) (hb : CoreOk v0 fin b.core) : CoreOk v0 fin (Block.twinAnnounces b h n watch).core := by
  unfold Block.twinAnnounces; dsimp only; (repeat' split) <;> simp [hb]

@[simp] theorem Block.applyMsg_ok (b : Block) (h : HalfId) (m : Msg) (hb : CoreOk v0 fin b.core) : CoreOk v0 fin (Block.applyMsg b h m).core := by
  cases m with
  | fetch own adopted seq q index e keyed refused =>
    cases own
    · simp only [Block.applyMsg]
      split <;> simp [hb]
    · exact Block.onHalf_same _ _ _ (by simp) hb
  | wake => exact Block.wake_ok _ _ _ hb
  | tail | queue | journal | profile | bind | complete | release => exact Block.onHalf_same _ _ _ (by simp) hb
  | sleep | awake => simp [Block.applyMsg, hb]
  | _ => exact hb

@[simp] theorem Block.retireChannel_ok (b : Block) (h : HalfId) (c : Nat) (cause : Nat) (hb : CoreOk v0 fin b.core) : CoreOk v0 fin (Block.retireChannel b h c cause).core := by
  unfold Block.retireChannel
  extract_lets ops b1 b2
  have h1 : CoreOk v0 fin b1.core := Block.onHalf_same _ _ _ (by simp) (Block.dropEnable_ok _ _ _ hb)
  have h2 : CoreOk v0 fin b2.core := Block.each_ok _ _ _ (fun a c ha => by simp [ha]) (by simp [h1])
  simp [h2]

@[simp] theorem Block.moveChan_ok (b : Block) (giver : HalfId) (c : Nat) (cause : Nat) (hb : CoreOk v0 fin b.core) : CoreOk v0 fin (Block.moveChan b giver c cause).core := by
  unfold Block.moveChan
  extract_lets v x taker back b1 b2 b3 b4 b5 b6
  have h1 : CoreOk v0 fin b1.core := Block.dropEnable_ok _ _ _ (by simp [hb])
  have h2 : CoreOk v0 fin b2.core := by
    refine Block.onHalf_same _ _ _ (fun y => ?_) h1
    cases Half.engineOf v y c <;> simp [Option.elim]
  have h3 : CoreOk v0 fin b3.core := Block.onHalf_same _ _ _ (by simp) h2
  have h4 : CoreOk v0 fin b4.core := Block.takeEnable_ok _ _ _ h3
  have h5 : CoreOk v0 fin b5.core := by
    unfold b5
    split
    · exact h4
    · rw [Block.placeJobs_core]
      exact Block.onHalf_same _ _ _ (by simp) h4
  have h6 : CoreOk v0 fin b6.core := by
    simp only [b6, Block.noSoft_core, Block.shrinkReserves_core]
    exact h5
  simp only [Block.notePool_core, Block.movedNotice_core]
  exact h6

@[simp] theorem Block.serveChannel_ok (b : Block) (h : HalfId) (c : Nat) (cause : Nat) (hb : CoreOk v0 fin b.core) : CoreOk v0 fin (Block.serveChannel b h c cause).core := by
  unfold Block.serveChannel
  split
  · rw [Block.noteDegraded_core, Block.placeJobs_core]
    exact Block.onHalf_same _ _ _ (by simp) hb
  · split
    · rw [Block.noteDegraded_core]
      exact Block.moveChan_ok _ _ _ _ hb
    · exact Block.retireChannel_ok _ _ _ _ hb

@[simp] theorem Block.serveUnbound_ok (b : Block) (h : HalfId) (hb : CoreOk v0 fin b.core) : CoreOk v0 fin (Block.serveUnbound b h).core := by
  exact Block.each_ok _ _ _ (fun a c ha => by split <;> simp [ha]) hb

@[simp] theorem Block.attach_ok (b : Block) (h : HalfId) (good : List (Nat × Bool × Bool)) (table : List Family) (hb : CoreOk v0 fin b.core) : CoreOk v0 fin (Block.attach b h good table).core := by
  unfold Block.attach
  dsimp only
  rw [Block.noteDegraded_core]
  refine Block.serveUnbound_ok _ _ ?_
  rw [Block.raise_core]
  refine Block.onPair_same _ _ (fun _ => rfl) (Block.onHalf_same _ _ _ (fun _ => rfl) (Block.onHalf_same _ _ _ (fun _ => rfl) ?_))
  rw [Block.fillMirror_core, Block.attachUcode_core]
  exact hb

@[simp] theorem Block.attachSynced_ok (b : Block) (h : HalfId) (seq : Nat) (c : Ctx) (good : List (Nat × Bool × Bool)) (table : List Family) (hb : CoreOk v0 fin b.core) : CoreOk v0 fin (Block.attachSynced b h seq c good table).core := by
  unfold Block.attachSynced; dsimp only; (repeat' split) <;> (try simp [hb]) <;> (first | apply Block.each_ok | apply Block.onHalf_ok | apply foldl_ok) <;> (try intros) <;> (try dsimp only) <;> (repeat' split) <;> simp [*]

@[simp] theorem Block.beginPs4_ok (b : Block) (h : HalfId) (hb : CoreOk v0 fin b.core) : CoreOk v0 fin (Block.beginPs4 b h).core := by
  simp [Block.beginPs4, hb]

@[simp] theorem Block.brownAll_ok (b : Block) (holdup : Nat) (hb : CoreOk v0 fin b.core) : CoreOk v0 fin (Block.brownAll b holdup).core := by
  unfold Block.brownAll; dsimp only; (repeat' split) <;> simp [hb]

@[simp] theorem Block.padLost_ok (b : Block) (h : HalfId) (c : Nat) (hb : CoreOk v0 fin b.core) : CoreOk v0 fin (Block.padLost b h c).core := by
  unfold Block.padLost; dsimp only; (repeat' split) <;> simp [hb]

@[simp] theorem Block.padFault_ok (b : Block) (h : HalfId) (c : Nat) (hb : CoreOk v0 fin b.core) : CoreOk v0 fin (Block.padFault b h c).core := by
  unfold Block.padFault
  split
  · exact hb
  · exact Block.padLost_ok _ _ _ (Block.onHalf_same _ _ _ (by simp) hb)

@[simp] theorem Block.checkWp_ok (b : Block) (h : HalfId) (c : Nat) (status : Byte) (hb : CoreOk v0 fin b.core) : CoreOk v0 fin (Block.checkWp b h c status).core := by
  unfold Block.checkWp; (repeat' split) <;> simp [hb]

@[simp] theorem Block.writeGen_ok (b : Block) (h : HalfId) (o : Nat) (w : Word) (hb : CoreOk v0 fin b.core) : CoreOk v0 fin (Block.writeGen b h o w).core := by
  have e : b.variant = v0 := hb.1
  subst e
  unfold Block.writeGen
  split
  · split
    · exact Block.onHalf_same _ _ _ (fun _ => rfl) hb
    · exact hb
  · rw [Block.writeRst_core]
    exact hb
  · rw [Block.noteDegraded_core, Block.placeJobs_core]
    exact Block.onHalf_ok _ _ _ (fun x hx => by rw [Half.fitRoles_gen]; exact GenCfg.write_inLimits _ _ _ _ hx) hb
  · refine Block.onHalf_ok _ _ _ (fun x hx => ?_) hb
    dsimp only
    split
    · rw [Half.onDriven_gen]; exact GenCfg.write_inLimits _ _ _ _ hx
    · exact GenCfg.write_inLimits _ _ _ _ hx
  · exact Block.onHalf_ok _ _ _ (fun x hx => GenCfg.write_inLimits _ _ _ _ hx) hb

@[simp] theorem Block.writeReg_ok (b : Block) (h : HalfId) (o : Nat) (w : Word) (dbg : Bool) (hb : CoreOk v0 fin b.core) : CoreOk v0 fin (Block.writeReg b h o w dbg).core := by
  have same : ∀ f : Half → Half, (∀ x, (f x).gen = x.gen) → CoreOk v0 fin (b.onHalf h f).core := fun f hf => Block.onHalf_same _ _ _ hf hb
  unfold Block.writeReg
  refine ite_ok (Block.writeGen_ok _ _ _ _ hb) ?_
  refine ite_ok (by rw [Block.writeQue_core]; exact hb) ?_
  refine ite_ok (by rw [Block.writeDbl_core]; exact hb) ?_
  refine ite_ok (by rw [Block.writeChn_core]; exact hb) ?_
  refine ite_ok (by rw [Block.writeDec_core]; exact hb) ?_
  refine ite_ok (same _ (fun x => by simp)) ?_
  refine ite_ok (by rw [Block.writePool_core]; exact hb) ?_
  refine ite_ok (same _ (fun x => by simp)) ?_
  refine ite_ok (same _ (fun x => by simp)) ?_
  refine ite_ok (by rw [Block.writeLoop_core]; exact hb) ?_
  refine ite_ok (same _ (fun x => by simp)) ?_
  refine ite_ok (same _ (fun x => by simp)) ?_
  refine ite_ok (by rw [Block.writeTwn_core]; exact hb) ?_
  refine ite_ok (by rw [Block.writeFrz_core]; exact hb) ?_
  refine ite_ok (same _ (fun x => by simp)) ?_
  refine ite_ok (same _ (fun x => by simp)) ?_
  refine ite_ok (by rw [Block.writeDma_core]; exact hb) ?_
  refine ite_ok (by rw [Block.writeRec_core]; exact hb) ?_
  refine ite_ok (same _ (fun x => by simp)) ?_
  refine ite_ok (same _ (fun x => by simp)) ?_
  exact hb

@[simp] theorem Block.padsThawed_ok (b : Block) (hb : CoreOk v0 fin b.core) : CoreOk v0 fin (Block.padsThawed b).core := by
  unfold Block.padsThawed
  rw [Block.settlePads_core]
  exact Block.each_ok _ _ _ (fun a e ha => Block.dropEnable_ok _ _ _ ha) hb

@[simp] theorem Block.enterDiscovery_ok (b : Block) (h : HalfId) (hb : CoreOk v0 fin b.core) : CoreOk v0 fin (Block.enterDiscovery b h).core := by
  simp [Block.enterDiscovery, hb]

@[simp] theorem Block.goDiscover_ok (b : Block) (h : HalfId) (hb : CoreOk v0 fin b.core) : CoreOk v0 fin (Block.goDiscover b h).core := by
  unfold Block.goDiscover; (repeat' split) <;> simp [hb]

@[simp] theorem Block.resumeBring_ok (b : Block) (h : HalfId) (hb : CoreOk v0 fin b.core) : CoreOk v0 fin (Block.resumeBring b h).core := by
  unfold Block.resumeBring; dsimp only; (repeat' split) <;> simp [hb]

@[simp] theorem Block.wakeLatched_ok (b : Block) (h : HalfId) (hb : CoreOk v0 fin b.core) : CoreOk v0 fin (Block.wakeLatched b h).core := by
  unfold Block.wakeLatched; (repeat' split) <;> simp [hb]

@[simp] theorem Block.thaw_ok (b : Block) (ticks : Nat) (hb : CoreOk v0 fin b.core) : CoreOk v0 fin (Block.thaw b ticks).core := by
  unfold Block.thaw
  split
  · extract_lets b1 b2
    have h1 : CoreOk v0 fin b1.core := Block.padsThawed_ok _ (Block.onPair_same _ _ (fun _ => rfl) hb)
    have h2 : CoreOk v0 fin b2.core := by
      simp only [b2, Block.syncUpdate_core]
      exact Block.onHalf_same _ _ _ (by simp) (Block.onHalf_same _ _ _ (by simp) h1)
    exact Block.wakeLatched_ok _ _ (Block.wakeLatched_ok _ _ (Block.resumeBring_ok _ _ (Block.resumeBring_ok _ _ h2)))
  · exact hb

@[simp] theorem Block.thawFree_ok (b : Block) (hb : CoreOk v0 fin b.core) : CoreOk v0 fin (Block.thawFree b).core := by
  exact Block.thaw_ok _ _ hb

@[simp] theorem Block.declinePs4_ok (b : Block) (h : HalfId) (hb : CoreOk v0 fin b.core) : CoreOk v0 fin (Block.declinePs4 b h).core := by
  unfold Block.declinePs4; (repeat' split) <;> simp [hb]

@[simp] theorem Block.fitReserves_ok (b : Block) (h : HalfId) (n : Nat) (hb : CoreOk v0 fin b.core) : CoreOk v0 fin (Block.fitReserves b h n).core := by
  induction n generalizing b with
  | zero =>
    unfold Block.fitReserves
    exact Block.onHalf_same _ _ _ (fun _ => rfl) hb
  | succ k ih =>
    unfold Block.fitReserves
    dsimp only
    (repeat' split)
    · exact Block.onHalf_same _ _ _ (fun _ => rfl) hb
    · exact hb
    · exact ih _ (Block.moveChan_ok _ _ _ _ hb)
    · exact Block.onHalf_same _ _ _ (fun _ => rfl) hb

@[simp] theorem Block.detach_ok (b : Block) (h : HalfId) (seq : Nat) (hb : CoreOk v0 fin b.core) : CoreOk v0 fin (Block.detach b h seq).core := by
  unfold Block.detach
  extract_lets t y b1 b2 b3 b4 b5
  have h1 : CoreOk v0 fin b1.core := Block.each_ok _ _ _ (fun a c ha => by split <;> simp [ha]) hb
  have h2 : CoreOk v0 fin b2.core := Block.onHalf_same _ _ _ (by simp) h1
  have h3 : CoreOk v0 fin b3.core := Block.onHalf_same _ _ _ (by simp) h2
  have h4 : CoreOk v0 fin b4.core := Block.onHalf_same _ _ _ (by simp) (Block.each_ok _ _ _ (fun a c ha => by simp [ha]) h3)
  have h5 : CoreOk v0 fin b5.core := Block.onHalf_same _ _ _ (by simp) (Block.onPair_same _ _ (fun _ => rfl) h4)
  simp [h5]

@[simp] theorem Block.discardEarly_ok (b : Block) (hfin : fin = false) (hb : CoreOk v0 fin b.core) : CoreOk v0 fin (Block.discardEarly b).core := by
  subst hfin
  unfold Block.discardEarly
  extract_lets clear
  have hc : ∀ x : Half, (clear x).gen = x.gen := fun _ => rfl
  have h0 : CoreOk v0 false (b.onPair (fun p => { p with latched := false, bringHold := false })).core :=
    ⟨hb.1, hb.2.1, hb.2.2.1, hb.2.2.2.1, fun h => nomatch h⟩
  have h1 := Block.onHalf_same _ .b clear hc (Block.onHalf_same _ .a clear hc h0)
  simp only [Block.goDiscover_ok, h1]

@[simp] theorem Block.endYield_ok (b : Block) (h : HalfId) (hb : CoreOk v0 fin b.core) : CoreOk v0 fin (Block.endYield b h).core := by
  simp [Block.endYield, hb]

@[simp] theorem Block.enterPs4_ok (b : Block) (h : HalfId) (hb : CoreOk v0 fin b.core) : CoreOk v0 fin (Block.enterPs4 b h).core := by
  simp [Block.enterPs4, hb]

@[simp] theorem Block.halfFault_ok (b : Block) (h : HalfId) (hb : CoreOk v0 fin b.core) : CoreOk v0 fin (Block.halfFault b h).core := by
  simp [Block.halfFault, hb]

@[simp] theorem Block.retireCore_ok (b : Block) (h : HalfId) (soft : Bool) (k : Nat) (cause : Nat) (hb : CoreOk v0 fin b.core) : CoreOk v0 fin (Block.retireCore b h soft k cause).core := by
  unfold Block.retireCore
  extract_lets work b1 b2 b3
  have h1 : CoreOk v0 fin b1.core := Block.onHalf_same _ _ _ (fun _ => rfl) hb
  have h2 : CoreOk v0 fin b2.core := Block.each_ok _ _ _ (fun a c ha => by (repeat' split) <;> simp [ha]) h1
  have h3 : CoreOk v0 fin b3.core := by simp [b3, h2]
  split
  · exact Block.halfFault_ok _ _ h3
  · exact h3

@[simp] theorem Block.retireEngine_ok (b : Block) (h : HalfId) (e : Nat) (cause : Nat) (word : Nat) (hb : CoreOk v0 fin b.core) : CoreOk v0 fin (Block.retireEngine b h e cause word).core := by
  unfold Block.retireEngine; dsimp only; (repeat' split) <;> simp [hb]

@[simp] theorem Block.failHolder_ok (b : Block) (h : HalfId) (who : Nat) (hb : CoreOk v0 fin b.core) : CoreOk v0 fin (Block.failHolder b h who).core := by
  unfold Block.failHolder; (repeat' split) <;> simp [hb]

@[simp] theorem Block.halt_ok (b : Block) (h : HalfId) (cause : Nat) (hb : CoreOk v0 fin b.core) : CoreOk v0 fin (Block.halt b h cause).core := by
  simp [Block.halt, hb]

@[simp] theorem Block.leftAlone_ok (b : Block) (h : HalfId) (hb : CoreOk v0 fin b.core) : CoreOk v0 fin (Block.leftAlone b h).core := by
  unfold Block.leftAlone; dsimp only; (repeat' split) <;> simp [hb]

@[simp] theorem Block.haltShort_ok (b : Block) (h : HalfId) (cause : Nat) (hb : CoreOk v0 fin b.core) : CoreOk v0 fin (Block.haltShort b h cause).core := by
  unfold Block.haltShort; (repeat' split) <;> simp [hb]

@[simp] theorem Block.handBack_ok (b : Block) (h : HalfId) (hb : CoreOk v0 fin b.core) : CoreOk v0 fin (Block.handBack b h).core := by
  unfold Block.handBack
  extract_lets t homes b1 b2 x back isBack b3 b4 b5 b6
  have h1 : CoreOk v0 fin b1.core := Block.onHalf_same _ _ _ (fun _ => rfl) hb
  have h2 : CoreOk v0 fin b2.core := Block.each_ok _ _ _ (fun a c ha => by split <;> simp [ha]) h1
  have h3 : CoreOk v0 fin b3.core := Block.onHalf_same _ _ _ (by simp) h2
  have h4 : CoreOk v0 fin b4.core := Block.onHalf_same _ _ _ (fun z => foldl_gen _ (by simp) _ _) h3
  have h5 : CoreOk v0 fin b5.core := by
    refine Block.onHalf_same _ _ _ (fun z => ?_) h4
    simp only [Half.countAcc_gen]
    exact foldl_gen _ (by simp) _ _
  have h6 : CoreOk v0 fin b6.core := Block.fitReserves_ok _ _ _ (Block.onHalf_same _ _ _ (by simp) h5)
  simp [h6]

@[simp] theorem Block.loseWord_ok (b : Block) (h : HalfId) (hit : MemHit) (hb : CoreOk v0 fin b.core) : CoreOk v0 fin (Block.loseWord b h hit).core := by
  unfold Block.loseWord; dsimp only; (repeat' split) <;> (try simp [hb]) <;> (first | apply Block.each_ok | apply Block.onHalf_ok | apply foldl_ok) <;> (try intros) <;> (try dsimp only) <;> (repeat' split) <;> simp [*]

@[simp] theorem Block.lunReady_ok (b : Block) (h : HalfId) (c : Nat) (d : Nat) (status : Byte) (hb : CoreOk v0 fin b.core) : CoreOk v0 fin (Block.lunReady b h c d status).core := by
  unfold Block.lunReady; (repeat' split) <;> simp [hb]

@[simp] theorem Block.passFilter_ok (b : Block) (h : HalfId) (n : Nat) (hb : CoreOk v0 fin b.core) : CoreOk v0 fin (Block.passFilter b h n).core := by
  unfold Block.passFilter; dsimp only; (repeat' split) <;> simp [hb]

@[simp] theorem Block.restoreUnit_ok (b : Block) (h : HalfId) (kind : Nat) (index : Nat) (die : Nat) (hb : CoreOk v0 fin b.core) : CoreOk v0 fin (Block.restoreUnit b h kind index die).core := by
  unfold Block.restoreUnit
  extract_lets b0 b1
  have same : ∀ f : Half → Half, (∀ x, (f x).gen = x.gen) → CoreOk v0 fin (b.onHalf h f).core := fun f hf => Block.onHalf_same _ _ _ hf hb
  have h0 : CoreOk v0 fin b0.core := Block.takeEnable_ok _ _ _ (same _ (by simp))
  have h1 : CoreOk v0 fin b1.core := by
    unfold b1
    split
    iterate 6 exact same _ (fun _ => by first | rfl | simp)
    split
    · exact Block.serveChannel_ok _ _ _ _ h0
    · exact h0
  simp only [Block.noteDegraded_core, Block.notePool_core, Block.retireNotice_core, Block.shrinkReserves_core]
  exact h1

@[simp] theorem Block.retireBank_ok (b : Block) (h : HalfId) (bank : Nat) (cause : Nat) (lost : BankLoss) (hb : CoreOk v0 fin b.core) : CoreOk v0 fin (Block.retireBank b h bank cause lost).core := by
  unfold Block.retireBank
  split
  · extract_lets b1 b2 b3
    have h1 : CoreOk v0 fin b1.core := Block.onHalf_same _ _ _ (fun _ => rfl) hb
    have h2 : CoreOk v0 fin b2.core := by
      simp only [b2, Block.rebuildBank_core, Block.retireNotice_core]
      exact h1
    have h3 : CoreOk v0 fin b3.core := by
      simp only [b3, Block.noteDegraded_core, Block.notePool_core]
      exact Block.fitReserves_ok _ _ _ h2
    split
    · exact Block.halfFault_ok _ _ h3
    · exact h3
  · exact hb

@[simp] theorem Block.retireUnit_ok (b : Block) (h : HalfId) (kind : Nat) (index : Nat) (die : Nat) (lost : BankLoss) (hb : CoreOk v0 fin b.core) : CoreOk v0 fin (Block.retireUnit b h kind index die lost).core := by
  unfold Block.retireUnit
  split
  · simp [hb]
  · simp [hb]
  · simp [hb]
  · simp [hb]
  · extract_lets b1
    have h1 : CoreOk v0 fin b1.core := by
      simp only [b1, Block.retireNotice_core]
      exact Block.onHalf_same _ _ _ (by simp) hb
    split
    · exact Block.moveChan_ok _ _ _ _ h1
    · exact h1
  · simp [hb]
  · simp [hb]

@[simp] theorem Block.ueLimit_ok (b : Block) (h : HalfId) (m : Nat) (w : Nat) (lost : BankLoss) (hb : CoreOk v0 fin b.core) : CoreOk v0 fin (Block.ueLimit b h m w lost).core := by
  unfold Block.ueLimit; dsimp only; (repeat' split) <;> simp [hb]

@[simp] theorem Block.uncorrected_ok (b : Block) (h : HalfId) (m : Nat) (w : Nat) (hit : MemHit) (lost : BankLoss) (hb : CoreOk v0 fin b.core) : CoreOk v0 fin (Block.uncorrected b h m w hit lost).core := by
  unfold Block.uncorrected
  extract_lets fixed b1 b2
  have h1 : CoreOk v0 fin b1.core := Block.onHalf_same _ _ _ (by simp) hb
  have h2 : CoreOk v0 fin b2.core := by
    simp only [b2, Block.memNotice_core]
    split
    · exact h1
    · exact Block.loseWord_ok _ _ _ h1
  exact Block.ueLimit_ok _ _ _ _ _ h2

@[simp] theorem Block.scrub_ok (b : Block) (h : HalfId) (m : Nat) (error : Option Bool) (hit : MemHit) (lost : BankLoss) (hb : CoreOk v0 fin b.core) : CoreOk v0 fin (Block.scrub b h m error hit lost).core := by
  unfold Block.scrub
  extract_lets y w b1
  have h1 : CoreOk v0 fin b1.core := by
    refine Block.onHalf_same _ _ _ (fun x => ?_) hb
    dsimp only
    split <;> simp
  split
  · exact h1
  · split
    · exact h1
    · exact Block.onHalf_same _ _ _ (by simp) h1
    · exact Block.uncorrected_ok _ _ _ _ _ _ h1

@[simp] theorem Block.seize_ok (b : Block) (h : HalfId) (l : List Nat) (hb : CoreOk v0 fin b.core) : CoreOk v0 fin (Block.seize b h l).core := by
  unfold Block.seize
  extract_lets v b1
  have h1 : CoreOk v0 fin b1.core := by
    refine Block.each_ok _ _ _ (fun a c ha => ?_) hb
    extract_lets k a1
    have h0 : CoreOk v0 fin a1.core := Block.onHalf_same _ _ _ (by simp) ha
    split
    · exact h0
    · exact Block.takeEnable_ok _ _ _ h0
  exact Block.fitReserves_ok _ _ _ (Block.onHalf_same _ _ _ (by simp) h1)

@[simp] theorem Block.sleep_ok (b : Block) (h : HalfId) (hb : CoreOk v0 fin b.core) : CoreOk v0 fin (Block.sleep b h).core := by
  unfold Block.sleep; dsimp only; (repeat' split) <;> simp [hb]

@[simp] theorem Block.suspendReady_ok (b : Block) (h : HalfId) (c : Nat) (d : Nat) (status : Byte) (o : DieOp) (hb : CoreOk v0 fin b.core) : CoreOk v0 fin (Block.suspendReady b h c d status o).core := by
  unfold Block.suspendReady
  refine Block.checkWp_ok _ _ _ _ ?_
  (repeat' split) <;> first | exact hb | exact Block.onHalf_same _ _ _ (by simp) hb | simp [hb]

@[simp] theorem Block.takeYielded_ok (b : Block) (h : HalfId) (c : Nat) (hb : CoreOk v0 fin b.core) : CoreOk v0 fin (Block.takeYielded b h c).core := by
  unfold Block.takeYielded
  extract_lets x b1
  have h1 : CoreOk v0 fin b1.core := Block.onHalf_same _ _ _ (by simp) hb
  simp [h1]

@[simp] theorem Block.takeAfterYield_ok (b : Block) (h : HalfId) (ckpt : Ckpt) (flash : List FlashPage) (hb : CoreOk v0 fin b.core) : CoreOk v0 fin (Block.takeAfterYield b h ckpt flash).core := by
  unfold Block.takeAfterYield
  extract_lets b1 b2 b3
  have h1 : CoreOk v0 fin b1.core := Block.onHalf_same _ _ _ (by simp) hb
  have h2 : CoreOk v0 fin b2.core := Block.onHalf_same _ _ _ (by simp) (Block.each_ok _ _ _ (fun a c ha => Block.takeYielded_ok _ _ _ ha) h1)
  have h3 : CoreOk v0 fin b3.core := by
    simp only [b3, Block.rebuildAccs_core]
    exact Block.serveUnbound_ok _ _ (Block.fitReserves_ok _ _ _ h2)
  exact Block.onPair_same _ _ (fun _ => rfl) (by simp only [Block.notePool_core, Block.noteDegraded_core, Block.raise_core]; exact h3)

@[simp] theorem Block.takeOver_ok (b : Block) (h : HalfId) (us : Nat) (flash : List FlashPage) (hb : CoreOk v0 fin b.core) : CoreOk v0 fin (Block.takeOver b h us flash).core := by
  unfold Block.takeOver
  extract_lets x m l ops ctxs redo ranges top b0 b1 b2 b3 b4 b5 b6 waiting b7 b8
  have h0 : CoreOk v0 fin b0.core := Block.onHalf_same _ _ _ (by simp) hb
  have h1 : CoreOk v0 fin b1.core := Block.onPair_same _ _ (fun _ => rfl) (Block.seize_ok _ _ _ h0)
  have h2 : CoreOk v0 fin b2.core := Block.onHalf_same _ _ _ (by simp) h1
  have h3 : CoreOk v0 fin b3.core := Block.each_ok _ _ _ (fun a c ha => by simp [ha]) h2
  have h4 : CoreOk v0 fin b4.core := Block.onHalf_same _ _ _ (by simp) h3
  have h5 : CoreOk v0 fin b5.core := by
    simp only [b5, Block.ownOps_core]
    exact Block.each_ok _ _ _ (fun a c ha => by simp [ha]) h4
  have h6 : CoreOk v0 fin b6.core := by
    simp only [b6, Block.lostHolds_core, Block.rebuildAccs_core]
    exact h5
  have h7 : CoreOk v0 fin b7.core := Block.each_ok _ _ _ (fun a c ha => by (repeat' split) <;> simp [ha]) h6
  have h8 : CoreOk v0 fin b8.core := Block.serveUnbound_ok _ _ h7
  simp only [Block.tookOver_core]
  exact h8

@[simp] theorem Block.trainFailed_ok (b : Block) (h : HalfId) (c : Nat) (found : List DieTrain) (codes : List Nat) (us : Nat) (hb : CoreOk v0 fin b.core) : CoreOk v0 fin (Block.trainFailed b h c found codes us).core := by
  exact Block.padLost_ok _ _ _ (Block.onHalf_same _ _ _ (by simp) hb)

@[simp] theorem Block.trainFull_ok (b : Block) (h : HalfId) (c : Nat) (found : List DieTrain) (us : Nat) (hb : CoreOk v0 fin b.core) : CoreOk v0 fin (Block.trainFull b h c found us).core := by
  unfold Block.trainFull; dsimp only; (repeat' split) <;> (try simp [hb]) <;> (first | apply Block.each_ok | apply Block.onHalf_ok | apply foldl_ok) <;> (try intros) <;> (try dsimp only) <;> (repeat' split) <;> simp [*]

@[simp] theorem Block.unpower_ok (b : Block) (h : HalfId) (hb : CoreOk v0 fin b.core) : CoreOk v0 fin (Block.unpower b h).core := by
  unfold Block.unpower
  extract_lets b1 r
  have h1 : CoreOk v0 fin b1.core := by
    simp only [b1, Block.dropHeld_core]
    refine Block.dropAll_ok _ _ ?_
    split <;> simp [hb]
  refine Block.onHalf_ok _ _ _ (fun z _ => ?_) h1
  have e : b.variant = v0 := hb.1
  show (GenCfg.reset b.variant).inLimits v0 = true
  rw [e]
  exact GenCfg.reset_inLimits v0

@[simp] theorem Block.access_ok (b : Block) (h : HalfId) (cause : Nat) (i : Instr) (f : Block → Block) (hf : ∀ a, CoreOk v0 fin a.core → CoreOk v0 fin (f a).core) (hb : CoreOk v0 fin b.core) : CoreOk v0 fin (Block.access b h cause i f).core := by
  unfold Block.access
  split
  · simp [hb]
  · split
    · simp [hb]
    · exact hf _ (by simp [hb])

@[simp] theorem Block.cold_ok (b : Block) (powered : Bool) (hfin : fin = false) (hb : CoreOk v0 fin b.core) : CoreOk v0 fin (Block.cold b powered).core := by
  subst hfin
  exact ⟨hb.1, hb.1 ▸ GenCfg.reset_inLimits _, hb.1 ▸ GenCfg.reset_inLimits _, rfl, fun h => nomatch h⟩

@[simp] theorem Block.resetHalf_ok (b : Block) (h : HalfId) (lock : Bool) (hb : CoreOk v0 fin b.core) : CoreOk v0 fin (Block.resetHalf b h lock).core := by
  unfold Block.resetHalf
  extract_lets x v stop twin b1 standby b2 b3
  have h1 : CoreOk v0 fin b1.core := by
    simp only [b1, Block.dropHeld_core]
    refine Block.dropAll_ok _ _ ?_
    split <;> simp [hb]
  have h2 : CoreOk v0 fin b2.core := by
    refine Block.onHalf_ok _ _ _ (fun z _ => ?_) h1
    have e : v = v0 := hb.1
    rw [e]
    exact GenCfg.reset_inLimits v0
  have h3 : CoreOk v0 fin b3.core := by
    unfold b3
    split
    · exact Block.onHalf_same _ _ _ (fun _ => rfl) h2
    · exact h2
  split
  · exact Block.onHalf_same _ _ _ (fun _ => rfl) h3
  · exact Block.resumeBring_ok _ _ h3

/-! ### A command's outcome -/

theorem run_ok {f : Block → Block} {s t : State} (hf : ∀ b, CoreOk v0 fin b.core → CoreOk v0 fin (f b).core) (hs : CoreOk v0 fin s.blk.core)
    (he : run f s = .next t) : CoreOk v0 fin t.blk.core := by
  cases he
  exact hf _ hs

theorem portRun_ok {f : Block → Block} {s t : State} {h : HalfId} {c : Nat} {i : Instr} (hf : ∀ b, CoreOk v0 fin b.core → CoreOk v0 fin (f b).core)
    (hs : CoreOk v0 fin s.blk.core) (he : portRun h c i f s = .next t) : CoreOk v0 fin t.blk.core := by
  unfold portRun at he
  split at he
  · exact run_ok (fun b hb => Block.access_ok b h c i f hf hb) hs he
  · cases he

theorem masterRun_ok {f : Block → Block} {s t : State} {h : HalfId} {i : Instr} (hf : ∀ b, CoreOk v0 fin b.core → CoreOk v0 fin (f b).core)
    (hs : CoreOk v0 fin s.blk.core) (he : masterRun h i f s = .next t) : CoreOk v0 fin t.blk.core := by
  refine run_ok (fun b hb => ?_) hs he
  split
  · simp [hb]
  · exact hf _ hb

theorem dbgRun_ok {f : Block → Block} {s t : State} {h : HalfId} (hf : ∀ b, CoreOk v0 fin b.core → CoreOk v0 fin (f b).core)
    (hs : CoreOk v0 fin s.blk.core) (he : dbgRun h f s = .next t) : CoreOk v0 fin t.blk.core := by
  unfold dbgRun at he
  split at he
  · exact run_ok (fun b hb => hf _ (by simp [hb])) hs he
  · cases he

theorem onLeft_ok {h : HalfId} {seq : Nat} {o : Opcode} {f : Block → Ctx → Block} {s t : State}
    (hf : ∀ b c, CoreOk v0 fin b.core → CoreOk v0 fin (f b c).core) (hs : CoreOk v0 fin s.blk.core)
    (he : onLeft h seq o f s = .next t) : CoreOk v0 fin t.blk.core := by
  unfold onLeft at he
  refine run_ok (fun b hb => ?_) hs he
  (repeat' split) <;> first | exact hb | exact hf _ _ hb


end Sys2Proof.Machine
end

