-- ==== Sys2Proof/Tests/Slice0.lean ====
section
/-!
SUPPORT. The model's own tests: an ill-formed command for each check of WellFormed, single commands on small states with results taken from the
rules cited, and for each statement with hypotheses a state and operands that meet them, clause by clause.
-/

namespace Sys2Proof.Tests

open Sys2Proof Sys2Proof.Machine

set_option Elab.async false

/-! ### Small states -/

/-- A profile of one plane and 16 blocks of 512 pages: 16 units of 512 unit pages. -/
def profile : Profile :=
  let f := fun (i n v : Nat) => v % 2 ^ (8 * n) * 2 ^ (8 * i)
  BitVec.ofNat 4096 (f 0 4 0x11 + f 4 1 1 + f 5 1 1 + f 6 1 1 + f 7 1 1 + f 8 2 16 + f 10 2 512 + f 12 2 512 + f 14 2 2048 + f 17 1 6 +
    f 18 1 5 + f 19 1 0x91 + f 20 1 3 + f 24 4 40000 + f 28 4 400000 + f 32 4 3000000)

/-- A die found, bound to profile slot 0. -/
def die : Die := { Die.absent with present := true, mode := .run 4, slot := some 0 }

/-- Queue 1: active, of 16 entries, in class HOST. -/
def queue : Queue :=
  { Queue.admin with cls := 1, size := 4, ring := 0x30000, hdr := 0x40000, state := .active, tail := 4, seen := 4 }

/-- A half of BRX-4T in service, driving two channels. -/
def service (c : Nat) : Half :=
  let r := Half.reset .brx4T
  { r with
    boot := { r.boot with strap := 0x0003, latched := true, coreLock := true, decLock := true, filled := true, stage := 7 }
    twn := { r.twn with st := .attached, drives := [c, c + 1] }
    pwr := { r.pwr with twinState := 0, decGated := false }
    store := { r.store with profiles := [(0, profile)] }
    chans := [(c, { Chan.reset with rate := 4, trained := true, dies := [(0, die)] }),
              (c + 1, { Chan.reset with rate := 4, trained := true, dies := [(0, die)] })]
    engines := [(0, { role := .bound, chan := c, job := none, next := none }), (1, { role := .bound, chan := c + 1, job := none, next := none }),
                (2, Engine.idle .background), (3, Engine.idle .spare)]
    que := { r.que with queues := [(0, { Queue.admin with size := 4, state := .active, gutter := some 0 }), (1, queue)]
                        adopted := [(2, queue)] } }

/-- A pair of BRX-4T in service, its halves attached. -/
def up : State :=
  { blk :=
      { variant := .brx4T, ha := service 0, hb := service 8, freeUses := 0,
        pair := { Pair.reset with
          phase := .parked, ranPhase := true, nextSeq := 9, budget := 200, budgetIn := 200
          enable := [(0, .a), (1, .a), (8, .b), (9, .b)] } },
    pending := [] }

/-- The pair in service with half A changed. -/
def withA (f : Half → Half) : State := up.withBlock (up.blk.onHalf .a f)

/-- The pair in service with its shared state changed. -/
def withP (f : Pair → Pair) : State := up.withBlock (up.blk.onPair f)

/-- Half A alone, its twin lost. -/
def alone (f : Half → Half) : State :=
  up.withBlock ((up.blk.onHalf .a (fun x => f { x with twn := { x.twn with st := .solo } })).onHalf .b (fun x =>
    { x with boot := { x.boot with failed := true }, twn := { x.twn with st := .solo, drives := [] } }))

/-- An entry with the values `v` of `n` bytes from byte `i`. -/
def entry (l : List (Nat × Nat × Nat)) : Entry := BitVec.ofNat 512 ((l.map (fun e => e.2.2 % 2 ^ (8 * e.2.1) * 2 ^ (8 * e.1))).sum)

/-- The context of command 5, of queue 1, in a phase. -/
def ctx (o : Opcode) (p : Phase) (e : Entry) : Ctx := { Ctx.fresh 1 false 0 e o 1 true with phase := p }

/-- The pair in service with command 5 at half A having left the range-lock table. -/
def left (o : Opcode) (l : List (Nat × Nat × Nat)) (f : Half → Half := id) : State :=
  withA (fun x => f { x with que := { x.que with ctxs := [(5, ctx o .left (entry l))] } })

/-- The context of that command. -/
def leftCtx (o : Opcode) (l : List (Nat × Nat × Nat)) : Ctx := ctx o .left (entry l)

/-- A unit of die 0 on channel 0, in bytes 20 to 27, or in those from byte `i`. -/
def unitOf (u : Nat) : Nat := u * 2 ^ 14

/-- Half A with record `u` of channel 0 set. -/
def setRec (u : Nat) (r : Rec) (x : Half) : Half := { x with store := { x.store with recs := [(u, r)] } }

/-- The outcome is a next state whose block passes a test. -/
def okay (o : Host.Outcome State Fault Refusal) (f : Block → Bool) : Bool :=
  match o with
  | .next t => f t.blk
  | _ => false

theorem Takes.of {b : Block} {h : HalfId} (e : (b.alive h && !b.pair.frozen && !b.held h) = true) : b.Takes h := by
  simpa [Block.Takes, and_assoc] using e

theorem Left.of {b : Block} {h : HalfId} {seq : Nat} {o : Opcode} {c : Ctx}
    (e : (decide ((b.half h).leftCtx seq o = some c) && b.coreRuns h && b.journalOpen h) = true) : b.Left h seq o c := by
  simpa [Block.Left, and_assoc] using e

theorem up_takes : up.blk.Takes .a := Takes.of (by decide +kernel)

/-! ### Statements about the whole machine -/

theorem wit_StepRunsFrontCommand : State.reset.pending = [] := rfl

theorem wit_CommandsLeaveTheQueue : ∃ t, exec .updateEnRise up = .next t := ⟨_, rfl⟩

theorem wit_PoweredPairNeverStops : (∀ h, up.blk.alive h = true) ∧
    accessOf .brownoutFall = none ∧ onDebug .brownoutFall = false := ⟨fun h => by cases h <;> decide +kernel, by decide +kernel⟩

theorem wit_AccessesWithoutEffect : accessOf (.doorbell .a 127 0) = some (.a, causeDoorbell) ∧
    responseOf (.spillError .a 15) = some .a ∧ (withP (fun p => { p with powered := false })).blk.alive .a = false ∧
    (withP (fun p => { p with frozen := true })).blk.pair.frozen = true ∧ up.blk.alive .a = true ∧ up.blk.held .a = false ∧
    (withA (fun x => { x with boot := { x.boot with heldReset := true } })).blk.held .a = true := by decide +kernel

theorem wit_StepKeepsInvariant : ∃ t, up.blk.Inv ∧ step { up with pending := [.updateEnRise] } = .next t :=
  ⟨_, ⟨fun h => by cases h <;> decide +kernel, rfl⟩, rfl⟩

/-- A brown-out latched once the pair has run. -/
def latched : State := withP (fun p => { p with brownout := true, latched := true })

theorem wit_LatchedBrownoutIsFinal : ∃ t, latched.blk.Inv ∧ latched.blk.LatchedForGood ∧
    step { latched with pending := [.brownoutFall] } = .next t :=
  ⟨_, ⟨fun h => by cases h <;> decide +kernel, rfl⟩, ⟨rfl, rfl, rfl⟩, rfl⟩

theorem wit_PaddrFieldsReadBack :
    let a : Addr := { slot := 3, page := 4095, block := 4095, plane := 7, lun := 3, target := 3, channel := 15 }
    a.slot < 4 ∧ a.page < 4096 ∧ a.block < 4096 ∧ a.plane < 8 ∧ a.lun < 4 ∧ a.target < 4 ∧ a.channel < 16 ∧
      (0x1FFFFFFFFF : Paddr).toNat < 2 ^ 37 := by decide +kernel

theorem wit_RecordIndexOfUnit : 15 < 16 ∧ 7 < 8 ∧ 2047 < 2048 := by decide

/-! ### Resets and bring-up -/

/-- Half A at stage 2, with `f`. -/
def stage (n : Nat) (f : Half → Half := id) : State := withA (fun x => f { x with boot := { x.boot with stage := n } })

/-- Half A without its CLK_CORE. -/
def noCore : State := withA (fun x => { x with boot := { x.boot with coreLock := false } })

theorem wit_ColdResetsClearThePair : up.blk.pair.frozen = false ∧ up.blk.EnablesOk := ⟨rfl, by unfold Block.EnablesOk; decide +kernel⟩

theorem wit_HalfResetClearsTheHalf : up.blk.alive .a = true ∧ up.blk.pair.phase ≠ .reset ∧ (up.blk.half .a).boot.coreLock = true ∧
    (up.blk.half .a).pwr.state ≤ 2 := by decide +kernel

theorem wit_PegPhaseLatchesStraps :
    let two := withA (fun x => { x with boot := { x.boot with samples := [1, 3], latched := false } })
    let three := withA (fun x => { x with boot := { x.boot with samples := [1, 3, 2], latched := false } })
    State.reset.blk.pair.powered = true ∧ State.reset.blk.pair.phase = .reset ∧
      two.blk.pair.phase ≠ .reset ∧ two.blk.alive .a = true ∧ (two.blk.half .a).boot.latched = false ∧
      (two.blk.half .a).boot.samples.length < 3 ∧
      (three.blk.half .a).boot.samples = [1, 3, 2] ∧ (three.blk.half .a).boot.latched = false := by decide +kernel

theorem wit_ClocksAndFill :
    let step := noCore.withBlock (noCore.blk.onHalf .a (fun x => { x with boot := { x.boot with strap := 0x2003, stage := 1, filled := false } }))
    let once := withA (fun x => { x with boot := { x.boot with pllTries := [(0, 1)] } })
    let fill := withA (fun x => { x with boot := { x.boot with strap := 0x2003, stage := 5, filled := false } })
    (noCore.blk.half .a).boot.latched = true ∧ noCore.blk.alive .a = true ∧ (noCore.blk.half .a).boot.failed = false ∧
      (noCore.blk.half .a).boot.phyLock.contains 9 = false ∧ (noCore.blk.half .a).boot.coreLock = false ∧
      noCore.blk.pair.latched = false ∧ Tab.get 0 (noCore.blk.half .a).boot.pllTries (pllKey .core) = 0 ∧ noCore.blk.pair.frozen = false ∧
      (step.blk.half .a).boot.latched = true ∧ step.blk.alive .a = true ∧ (step.blk.half .a).boot.failed = false ∧
      (step.blk.half .a).boot.coreLock = false ∧ (step.blk.half .a).boot.heldReset = false ∧ step.blk.pair.frozen = false ∧
      (step.blk.half .a).boot.hrst = false ∧ (step.blk.half .a).boot.stage ≤ 1 ∧ groundsheet (step.blk.half .a).boot.strap = true ∧
      (step.blk.half .a).boot.filled = false ∧
      (once.blk.half .a).boot.latched = true ∧ once.blk.alive .a = true ∧ (once.blk.half .a).boot.failed = false ∧
      once.blk.pair.frozen = false ∧ Tab.get 0 (once.blk.half .a).boot.pllTries (pllKey .core) ≠ 0 ∧
      groundsheet (fill.blk.half .a).boot.strap = true ∧ (fill.blk.half .a).boot.filled = false ∧ fill.blk.coreRuns .a = true ∧
      (fill.blk.half .a).boot.stage = 5 := by decide +kernel

/-- The pair with half A at its fill step, a brown-out latched before any enable. -/
def early : State := (stage 1).withBlock ((stage 1).blk.onPair (fun p => { p with latched := true, ranPhase := false }))

theorem wit_InputPins :
    let lone := up.withBlock (up.blk.onHalf .b (fun x => { x with boot := Boot.reset }))
    let ans := early.withBlock (early.blk.onHalf .a (fun x => { x with boot := { x.boot with answered := true } }))
    let high := ans.withBlock (ans.blk.onPair (fun p => { p with brownout := true }))
    let rise := withP (fun p => { p with updateEn := true })
    let fall := withA (fun x => { x with win := { x.win with updateEn := true } })
    up.blk.pair.bringHold = false ∧ noCore.blk.coreRuns .a = false ∧ rise.blk.coreRuns .a = true ∧ (rise.blk.half .a).win.updateEn = false ∧
      fall.blk.coreRuns .a = true ∧ (fall.blk.half .a).win.updateEn = true ∧ fall.blk.pair.updateEn = false ∧ up.blk.pair.frozen = false ∧
      (withP (fun p => { p with frozen := true })).blk.pair.frozen = true ∧
      (lone.blk.half .a).boot.latched = true ∧ (lone.blk.half .a).boot.strapErr = false ∧ (lone.blk.half .a).boot.answered = false ∧
      (lone.blk.half .a).boot.twinAbsent = false ∧ (lone.blk.half .a).boot.startedDetached = false ∧ lone.blk.pair.frozen = false ∧
      ans.blk.pair.latched = true ∧ ans.blk.pair.ranPhase = false ∧ ans.blk.ha.fillDone = true ∧ ans.blk.pair.brownout = false ∧
      high.blk.pair.latched = true ∧ high.blk.pair.ranPhase = false ∧ high.blk.ha.fillDone = true ∧ high.blk.pair.brownout = true := by
  decide +kernel

/-- A sealed checkpoint of half A. -/
def ckpt : Ckpt :=
  { half := .a, slot := 0, seq := 1, sealed := 3, clean := true, recs := [], regions := [], stripes := [], seed := 7, nextSeq := 20,
    defects := [], j0 := 0, flyUnits := [] }

theorem wit_BringupStages :
    let blank := stage 4 (fun x => { x with boot := { x.boot with blank := true } })
    let sync := (stage 6).withBlock ((stage 6).blk.onHalf .b (fun x => { x with boot := { x.boot with stage := 6 } }))
    (stage 2).blk.coreRuns .a = true ∧ ((stage 2).blk.half .a).boot.stage = 2 ∧
      newestSealed ([ckpt].filter (fun c => decide (c.half = .a))) = some ckpt ∧
      newestSealed ([ckpt].filter (fun c => decide (c.half = .b))) = none ∧
      (stage 3).blk.coreRuns .a = true ∧ ((stage 3).blk.half .a).boot.stage = 3 ∧ ((stage 3).blk.half .a).twn.st ≠ .standby ∧
      blank.blk.coreRuns .a = true ∧ blank.blk.pair.latched = false ∧ (blank.blk.half .a).boot.stage = 4 ∧
      (blank.blk.half .a).boot.blank = true ∧ ((stage 4).blk.half .a).boot.blank = false ∧ ((stage 4).blk.half .a).boot.stage = 4 ∧
      (stage 4).blk.coreRuns .a = true ∧ (stage 4).blk.pair.latched = false ∧ (stage 6).blk.coreRuns .a = true ∧
      ((stage 6).blk.half .a).boot.stage = 6 ∧ ((stage 6).blk.half .a).twn.st = .attached ∧ ((stage 6).blk.half .a).fly.phase ≠ 4 ∧
      sync.blk.ha.boot.stage = 6 ∧ sync.blk.hb.boot.stage = 6 ∧ sync.blk.pair.frozen = false ∧ sync.blk.ha.boot.coreLock = true ∧
      sync.blk.hb.boot.coreLock = true := by decide +kernel

/-! ### Power loss and freeze -/

/-- A frozen pair. -/
def frozen : State := withP (fun p => { p with frozen := true })

theorem wit_BrownoutIsLatched :
    let early := withP (fun p => { p with ranPhase := false })
    let cold := frozen.withBlock (frozen.blk.onPair (fun p => { p with ranPhase := false }))
    let ready := latched.withBlock (latched.blk.onHalf .a (fun x => { x with fly := { x.fly with phase := 1, units := [(0, 4), (1, 5)] } }))
    early.blk.pair.latched = false ∧ early.blk.pair.phase ≠ .reset ∧ early.blk.pair.brownout = false ∧ early.blk.pair.held = [] ∧
      early.blk.pair.ranPhase = false ∧ early.blk.pair.frozen = false ∧
      up.blk.pair.latched = false ∧ up.blk.pair.phase ≠ .reset ∧ up.blk.pair.brownout = false ∧ up.blk.pair.held = [] ∧
      up.blk.pair.ranPhase = true ∧ up.blk.pair.frozen = false ∧
      cold.blk.pair.latched = false ∧ cold.blk.pair.phase ≠ .reset ∧ cold.blk.pair.brownout = false ∧ cold.blk.pair.held = [] ∧
      cold.blk.pair.ranPhase = false ∧ cold.blk.pair.frozen = true ∧ (up.blk.half .a).pwr.state ≠ 4 ∧ (up.blk.half .a).fly.phase ≠ 4 ∧
      ready.blk.pair.latched = true ∧ (ready.blk.half .a).fly.phase = 1 ∧ ready.blk.coreRuns .a = true ∧
      (ready.blk.half .a).lunsReady = true ∧ (ready.blk.half .a).copySealed 0 3 = true ∧ (ready.blk.half .a).copySealed 1 4 = false := by
  decide +kernel

theorem wit_CheckpointsTrimTheJournal :
    let e : JEntry := plainEntry (.seed 5 9)
    let full := withA (fun x => { x with fly := { x.fly with waiting := [(none, [e])] } })
    let run := withA (fun x => { x with fly := { x.fly with journal := [e], ckptFrom := some 1, ckptNew := some ckpt, copies := 1 } })
    (full.blk.half .a).ckptDue = true ∧
      full.blk.coreRuns .a = true ∧ full.blk.pair.latched = false ∧ (full.blk.half .a).twn.st ≠ .yielding ∧ (full.blk.half .a).ready = true ∧
      (full.blk.half .a).boot.recovering = false ∧ (full.blk.half .a).fly.ckptFrom = none ∧ (full.blk.half .a).boot.blank = false ∧
      run.blk.coreRuns .a = true ∧ run.blk.pair.latched = false ∧ (run.blk.half .a).fly.ckptFrom = some 1 ∧
      (run.blk.half .a).fly.ckptNew = some ckpt ∧ (run.blk.half .a).pwr.entering = false ∧ (run.blk.half .a).twn.st ≠ .yielding ∧
      (run.blk.half .a).fly.waiting = [] := by decide +kernel

theorem wit_FreezeBegins : up.blk.Takes .a ∧ up.blk.pair.frozen = false ∧ up.blk.pair.latched = false ∧ up.blk.pair.phase = .parked ∧
    State.reset.blk.pair.phase ≠ .parked ∧ State.reset.blk.pair.frozen = false ∧ State.reset.blk.pair.latched = false ∧
    up.blk.alive .a = true := ⟨up_takes, by decide +kernel⟩

theorem wit_FreezeIsNotTakenTwice : up.blk.Takes .a ∧ (∀ h, frozen.blk.alive h = true) ∧ frozen.blk.pair.frozen = true ∧ frozen.blk.held .a = false ∧
    (∀ h, latched.blk.alive h = true) ∧ latched.blk.pair.latched = true ∧ latched.blk.pair.frozen = false :=
  ⟨up_takes, fun h => by cases h <;> decide +kernel, by decide +kernel, by decide +kernel, fun h => by cases h <;> decide +kernel,
    by decide +kernel⟩

/-- A frozen pair whose half A sleeps with an event latched. -/
def frozenAsleep : State :=
  let b := (frozen.blk.onHalf .a (fun x => { x with
    pwr := { x.pwr with state := 2 }, irq := { (x.irq.onSrc 120 (fun y => { y with mask := false })) with latched := [120] } }))
  frozen.withBlock b

theorem wit_ThawThroughTheDebugPort : frozen.blk.alive .a = true ∧ frozen.blk.pair.frozen = true ∧ up.blk.Takes .a ∧
    up.blk.pair.frozen = false ∧ up.blk.pair.held = [] ∧
    2 ≤ (frozenAsleep.blk.half .a).pwr.state ∧ 2 ≤ (frozenAsleep.blk.half .a).boot.stage ∧ 120 ∈ (frozenAsleep.blk.half .a).irq.latched ∧
    srcExists frozenAsleep.blk.variant 120 = true ∧ ((frozenAsleep.blk.half .a).irq.src 120).mask = false ∧
    frozenAsleep.blk.pair.frozen = true :=
  ⟨by decide +kernel, by decide +kernel, up_takes, by decide +kernel⟩

theorem wit_ReadOutOfAFrozenPair : up.blk.Takes .a ∧ frozen.blk.pair.frozen = true ∧ frozen.blk.alive .a = true ∧
    (frozen.blk.half .a).ro.src = false ∧ 17 < 18 := ⟨up_takes, by decide +kernel⟩

/-! ### The register window and the code window -/

/-- The target port of a half takes accesses, as a test. -/
def takes (b : Block) (h : HalfId) : Bool := b.alive h && !b.pair.frozen && !b.held h

/-- A command has left the range-lock table of half A, as a test. -/
def leaves (b : Block) (o : Opcode) (l : List (Nat × Nat × Nat)) : Bool :=
  decide ((b.half .a).leftCtx 5 o = some (leftCtx o l)) && b.coreRuns .a && b.journalOpen .a

theorem takes_spec {b : Block} {h : HalfId} (e : takes b h = true) : b.Takes h := Takes.of e

theorem leaves_spec {b : Block} {o : Opcode} {l : List (Nat × Nat × Nat)} (e : leaves b o l = true) : b.Left .a 5 o (leftCtx o l) := Left.of e

/-- Half A held in reset. -/
def held : State := withA (fun x => { x with boot := { x.boot with heldReset := true } })

theorem wit_RegisterAccess : takes up.blk .a = true ∧ up.blk.alive .a = true ∧ up.blk.pair.frozen = false ∧ up.blk.held .a = false ∧
    frozen.blk.alive .a = true ∧ frozen.blk.pair.frozen = true ∧ held.blk.held .a = true ∧ held.blk.alive .a = true ∧
    (debugPlace 0x8FFFC).1 = .a ∧ inFrz (debugPlace 0x8FFFC).2 = false ∧ inFrz (debugPlace 0x90000).2 = true ∧
    (debugPlace 0x90004).2 ≠ 0x90000 ∧ inFrz (debugPlace 0x90004).2 = true ∧
    inFrz (debugPlace 0x190FFC).2 = true ∧ inFrz (debugPlace 0x191000).2 = false := by and_intros <;> decide +kernel

/-- The code window with region 1, a closed code region of two pages of 64 KiB, mapped at 0, and a changed by `f`. -/
def window (f : Window → Window) : State := withA (fun x => { x with win := f { x.win with
  desc := [(1, { RgnDesc.none with kind := .code, state := .closed, size := 2 })]
  map := [(1, { base := 0, en := true })], shadow := [(1, { base := 0, en := true })], prefetch := false } })

/-- A codeword of unit 3 at a state of the ladder, climbing steps `steps`. -/
def cw (st : CwState) (step : Nat) (steps : BitVec 3) : Cw :=
  { paddr := 0, idx := 3, page := 0, slot := 0, st := st, step := step, steps := steps, start := 0, entry := 0, tries := 0, best := 0,
    unsat := none, senses := 0, bits := 0, fin := none, data := zeroPayload, raw := 0, again := 0, low := 0, high := 0, poison := false,
    role := .main, sets := .none }

theorem wit_CodeWindow :
    let line : FLine := { region := 1, line := 31, data := 5, poison := false }
    let empty := window id
    let hit := window (fun w => { w with lines := [line] })
    let brown := empty.withBlock (empty.blk.onPair (fun p => { p with latched := true }))
    let fill := window (fun w => { w with fills := [(1, 31)], stalled := [(0x1FFC0, 1)] })
    let k : Cw := { cw .done 1 7 with fin := some .hard }
    let read := fill.withBlock (fill.blk.onHalf .a (fun x => { x with que := { x.que with
      jobs := [(fillKey .a 1 31 false, { leftCtx .read [] with cws := [k] }), (fillKey .a 1 31 true, { leftCtx .read [] with cws := [k] })] } }))
    let past := window (fun w => { w with shadow := [(1, { base := 4095, en := true })] })
    let w := ((empty.blk.taken .a causeRegister).half .a).win
    let u := ((fill.blk.taken .a causeRegister).half .a).win
    let q := ((past.blk.taken .a causeRegister).half .a).win
    let e := ((empty.blk.taken .a causeFetch).half .a).win
    let g := ((hit.blk.taken .a causeFetch).half .a).win
    takes empty.blk .a = true ∧ takes hit.blk .a = true ∧ takes fill.blk .a = true ∧ takes past.blk .a = true ∧ takes brown.blk .a = true ∧
      burstOk 0x1FFC0 1 true = true ∧ burstOk 0x1FFC0 1 false = false ∧ burstOk 0x1FFC0 2 true = false ∧
      e.burstLines 0x20000 1 = none ∧ e.burstLines 0x1FFC0 1 = some [(1, 31)] ∧ burstOk 0x1FC0 3 true = false ∧ burstOk 0xFC0 3 true = true ∧
      e.burstLines 0xFC0 3 = some [(1, 0), (1, 1)] ∧ e.holds [(1, 31)] = false ∧ e.prefetch = false ∧
      (empty.blk.taken .a causeFetch).pair.latched = false ∧ g.burstLines 0x1FFC0 1 = some [(1, 31)] ∧ g.holds [(1, 31)] = true ∧
      g.prefetch = false ∧ (((brown.blk.taken .a causeFetch).half .a).win).burstLines 0x1FFC0 1 = some [(1, 31)] ∧
      (((brown.blk.taken .a causeFetch).half .a).win).holds [(1, 31)] = false ∧ (brown.blk.taken .a causeFetch).pair.latched = true ∧
      read.blk.coreRuns .a = true ∧ (read.blk.half .a).win.fills.find? (read.blk.fillDue .a) = some (1, 31) ∧
      read.blk.fillRead .a 1 31 false = some k ∧ k.unc = false ∧ (fill.blk.half .a).win.pend = none ∧ (fill.blk.half .a).win.flushDue = false ∧
      w.fills = [] ∧ w.stalled = [] ∧ w.flushDue = false ∧ w.pend = none ∧ w.mapFault w.shadow = none ∧
      q.fills = [] ∧ q.stalled = [] ∧ q.flushDue = false ∧ q.mapFault q.shadow = some 2 ∧ u.fills ≠ [] := by
  and_intros <;> decide +kernel

/-! ### Queues -/

/-- Half A with its queue 1 changed. -/
def withQ (f : Queue → Queue) : State := withA (fun x => x.onQueue false 1 f)

theorem wit_DoorbellsMoveTheTail :
    let b := up.blk.taken .a causeDoorbell
    let off := ((withQ (fun u => { u with live := false })).blk.taken .a causeDoorbell)
    let solo := (alone id).blk.taken .a causeDoorbell
    let early := (stage 6).blk.taken .a causeDoorbell
    takes up.blk .a = true ∧ takes (withQ (fun u => { u with live := false })).blk .a = true ∧ takes (alone id).blk .a = true ∧
      takes (stage 6).blk .a = true ∧
      127 < Config.queues up.blk.variant ∧ (early.half .a).takesDoorbells = false ∧ (b.half .a).takesDoorbells = true ∧
      (b.half .a).que.queue? false 127 = none ∧ (b.half .a).que.queue? false 1 = some queue ∧ (b.half .a).que.queue? true 2 = some queue ∧
      (off.half .a).takesDoorbells = true ∧ (off.half .a).que.queue? false 1 = some { queue with live := false } ∧
      queue.size ≠ 0 ∧ queue.live = true ∧ queue.state ≠ .error ∧ queue.ringSize = 16 ∧ (16 : Word).field 0 16 = 16 ∧
      queue.claimed 0 = 12 ∧ queue.free = 11 ∧ queue.claimed 15 = 11 ∧ queue.claimed 4 = 0 ∧
      b.linked = true ∧ solo.linked = false ∧ (solo.half .a).que.queue? false 1 = some queue ∧ (solo.half .a).takesDoorbells = true := by
  and_intros <;> decide +kernel

theorem wit_DoorbellOfAStoppedQueue :
    let s := withQ (fun u => { u with state := .error, errCause := 6 })
    let b := s.blk.taken .a causeDoorbell
    takes s.blk .a = true ∧ 1 < Config.queues s.blk.variant ∧ (b.half .a).takesDoorbells = true ∧
      (b.half .a).que.queue? false 1 = some { queue with state := .error, errCause := 6 } := by and_intros <;> decide +kernel

theorem wit_QueueControl :
    let stopped := alone (fun x => x.onQueue false 1 (fun u => { u with state := .error, errCause := 6 }))
    let b := (alone id).blk.taken .a causeRegister
    let ringless := withA (fun x => { x with que := QueMgr.reset })
    takes up.blk .a = true ∧ takes (alone id).blk .a = true ∧ takes stopped.blk .a = true ∧
      b.linked = false ∧ (b.half .a).que.queue? false 1 = some queue ∧ queue.state ≠ .error ∧
      (stopped.blk.taken .a causeRegister).linked = false ∧
      ((stopped.blk.taken .a causeRegister).half .a).que.queue? false 1 = some { queue with state := .error, errCause := 6 } ∧
      (up.blk.taken .a causeRegister).linked = true ∧ ((up.blk.taken .a causeRegister).half .a).que.queue? true 2 = some queue ∧
      takes ringless.blk .a = true ∧ ((ringless.blk.taken .a causeRegister).half .a).que.admSize = 0 ∧
      (4 : Word).field 0 4 = 4 ∧ (14 : Word).field 0 4 = 14 ∧ (3 : Word).field 0 4 < 4 ∧ 14 < (15 : Word).field 0 4 := by
  and_intros <;> decide +kernel

/-- A READ entry with MARK. -/
def readEntry : Entry := entry [(0, 1, 1), (63, 1, 0x50)]

theorem wit_EntryFetching :
    let ask := up.withBlock (up.blk.onHalf .b (fun x => { x with twn := { x.twn with sent := [(0, .seqAsk 1 0 readEntry)] } }))
    let c : Ctx := { leftCtx .read [] with phase := .stalled }
    let wait := withA (fun x => { x with que := { x.que with
      ctxs := [(5, c)], locks := [{ seq := 5, start := 0, len := 1, excl := false, own := true }] } })
    (up.blk.half .a).que.queue? false 1 = some queue ∧ up.blk.fetches .a = true ∧ (up.blk.half .a).canRead = true ∧
      (up.blk.half .a).fetchTurn up.blk.variant = some (turnKey false 1) ∧ up.blk.allocates .a = true ∧ queue.state ≠ .error ∧
      (up.blk.half .b).que.queue? false 1 = some queue ∧ up.blk.fetches .b = true ∧ (up.blk.half .b).canRead = true ∧
      (up.blk.half .b).fetchTurn up.blk.variant = some (turnKey false 1) ∧ up.blk.allocates .b = false ∧
      entryCause queue.cls 1 readEntry = none ∧ entryCause queue.cls 1 0 = some 1 ∧
      ask.blk.incoming .a = some (.seqAsk 1 0 readEntry) ∧ ask.blk.coreRuns .a = true ∧ ask.blk.pair.owner = .a ∧
      (wait.blk.half .a).ctx? 5 = some c ∧ wait.blk.coreRuns .a = true ∧ c.phase = .stalled ∧
      (wait.blk.half .a).que.mayLeave 5 = true ∧ c.waitAck = [] := by and_intros <;> decide +kernel

/-- Command 5 with its reply due, and with its reply outstanding. -/
def due : Ctx := { leftCtx .read [] with phase := .finished, final := some .doneOk }

theorem wit_RepliesAndHeaders :
    let fin := withA (fun x => { x with que := { x.que with
      ctxs := [(5, due)]
      malformed := [{ adopted := false, queue := 1, index := 3, cmdId := 0, failed := false }] } })
    let w (k : WriteKind) : MWrite := { kind := k, addr := 0, len := 16, data := 0, poison := 0, ordered := true }
    let out := withA (fun x => { x with
      que := { x.que with ctxs := [(5, { due with phase := .replying })] }
      dma := { x.dma with writes := [w (.reply 5), w (.header 1 false)] } })
    let dirty := withQ (fun u => { u with hdrDirty := true })
    fin.blk.coreRuns .a = true ∧ out.blk.coreRuns .a = true ∧ dirty.blk.coreRuns .a = true ∧
      (fin.blk.half .a).canWrite = true ∧ (fin.blk.half .a).ctx? 5 = some due ∧
      (fin.blk.half .a).que.queue? due.adopted due.queue = some queue ∧ due.final = some .doneOk ∧ due.mayReply = true ∧
      (fin.blk.half .a).outWrite (.malformedReply 1 false 3) = false ∧
      (fin.blk.half .a).que.malformed.any (fun m => decide (m.adopted = false) && decide (m.queue = 1) && decide (m.index = 3) && !m.failed)
        = true ∧
      (out.blk.half .a).ctx? 5 = some { due with phase := .replying } ∧ (out.blk.half .a).outWrite (.reply 5) = true ∧
      (out.blk.half .a).outWrite (.header 1 false) = true ∧
      (dirty.blk.half .a).que.queue? false 1 = some { queue with hdrDirty := true } ∧ queue.hdrOut = false ∧
      (dirty.blk.half .a).canWrite = true := by and_intros <;> decide +kernel

/-! ### Commands that have left the range-lock table -/

/-- A record in a state, its pages below `wp` reserved, `valid` of them valid. -/
def recIn (st : UnitState) (wp valid : Nat) : Rec := { Rec.blank with state := st, wp := BitVec.ofNat 16 wp, valid := BitVec.ofNat 16 valid }

/-- The place of unit page `n` of unit `u` of die 0 on channel 0. -/
def place (u n : Nat) : Place := { keep := .a, drv := .a, idx := u, page := n, prof := profile, slc := false }

/-- PARAM of a read of `n` codewords at the start of unit `u`. -/
def readAt (u n : Nat) : List (Nat × Nat × Nat) := [(20, 8, unitOf u), (44, 2, n)]

/-- A unit PADDR on a channel of no half. -/
def nowhere : List (Nat × Nat × Nat) := [(20, 8, 5 * 2 ^ 33), (44, 2, 1)]

theorem wit_ReadsStartTheLadder :
    let full := setRec 3 (recIn .full 512 512)
    let gone := setRec 3 (recIn .retired 0 0)
    let p (l : List (Nat × Nat × Nat)) := (leftCtx .read l).entry.paddr
    leaves (left .read nowhere).blk .read nowhere = true ∧ (left .read nowhere).blk.locate (p nowhere) = none ∧
      leaves (left .read (readAt 3 2048) full).blk .read (readAt 3 2048) = true ∧
      (left .read (readAt 3 2048) full).blk.locate (p (readAt 3 2048)) = some (place 3 0) ∧
      (left .read (readAt 3 2048) full).blk.readFault (place 3 0) 0 2048 = none ∧
      (left .read (readAt 3 2049) full).blk.readFault (place 3 0) 0 2049 = some .addressRange ∧
      (left .read (readAt 3 1) gone).blk.readFault (place 3 0) 0 1 = some .unitState ∧
      leaves (left .patrol nowhere).blk .patrol nowhere = true ∧ (left .patrol nowhere).blk.locate (p nowhere) = none ∧
      leaves (left .patrol (readAt 3 1) full).blk .patrol (readAt 3 1) = true ∧
      (left .patrol (readAt 3 1) full).blk.locate (p (readAt 3 1)) = some (place 3 0) ∧
      (left .patrol (readAt 3 1) full).blk.readFault (place 3 0) 0 1 = none ∧
      (left .patrol (readAt 3 2049) full).blk.readFault (place 3 0) 0 2049 = some .addressRange ∧
      leaves (left .patrol (readAt 3 2049) full).blk .patrol (readAt 3 2049) = true ∧
      leaves (left .readRaw nowhere).blk .readRaw nowhere = true ∧
      leaves (left .readRaw (readAt 3 1) full).blk .readRaw (readAt 3 1) = true ∧
      (left .readRaw (readAt 3 1) full).blk.locate (p (readAt 3 1)) = some (place 3 0) ∧
      (left .readRaw (readAt 3 1) full).blk.readFault (place 3 0) 0 1 = none ∧
      (left .readRaw (readAt 3 1) full).blk.goneUnit (place 3 0) = false := by and_intros <;> decide +kernel

theorem wit_QueriesAnswer :
    let log := [(20, 1, 1), (28, 4, 64)]
    let blank := [(20, 8, unitOf 3), (28, 2, 64)]
    let b := (left .blankCheck blank).blk
    leaves (left .victim [(21, 1, 32)]).blk .victim [(21, 1, 32)] = true ∧ leaves (left .identify []).blk .identify [] = true ∧
      leaves (left .logGet log).blk .logGet log = true ∧ 0 < (leftCtx .logGet log).entry.bytes 28 4 ∧
      leaves b .blankCheck blank = true ∧ b.locateUnit (leftCtx .blankCheck blank).entry.paddr = some (place 3 0) ∧
      b.lostRec .a 3 = false ∧ (b.recAt (place 3 0)).fly = false ∧ b.dieRetired 3 = false ∧
      (b.recAt (place 3 0)).rgnOwn = false ∧ b.pair.latched = false := by and_intros <;> decide +kernel

/-- PARAM of a program of `n` unit pages at the start of unit `u`. -/
def progAt (u n : Nat) : List (Nat × Nat × Nat) := [(20, 8, unitOf u), (44, 1, n)]

theorem wit_ProgramsReserveTheirPages :
    let ready := setRec 3 (recIn .erased 0 0)
    let most := setRec 3 (recIn .opened 257 0)
    let l := progAt 3 255
    let a := [(20, 8, unitOf 3 + 257 * 4), (44, 1, 255)]
    let held := progAt 3 1 ++ [(1, 1, 4), (45, 1, 7)]
    let hold : Hold := { pages := [[]], poison := [] }
    let withHold := fun (x : Half) => ready { x with pool := { x.pool with holds := [(7, hold)] } }
    let took : Ctx := { leftCtx .program held with took := true }
    let holder := withA (fun x => withHold { x with que := { x.que with ctxs := [(5, took)] } })
    let offer := l ++ [(1, 1, 8)]
    let tight := fun (x : Half) => ready { x with loops := { x.loops with zones := [(0, { Zone.reset with tight := 32 })] } }
    let loose := fun (x : Half) => ready { x with loops := { x.loops with zones := [(0, { Zone.reset with tight := 0 })] } }
    (left .program l most).blk.orderHeld .a 5 (leftCtx .program l) 3 = false ∧ leaves (left .program l most).blk .program l = true ∧
      (left .program l most).blk.locateUnit (leftCtx .program l).entry.paddr = some (place 3 0) ∧
      (leftCtx .program l).entry.flag 2 = false ∧ (left .program l most).blk.programFault (place 3 0) 255 none true = none ∧
      (left .program l most).blk.programFault (place 3 0) 256 none true = some .unitSpace ∧
      (holder.blk.half .a).leftCtx 5 .program = some took ∧ holder.blk.coreRuns .a = true ∧ holder.blk.journalOpen .a = true ∧
      holder.blk.locateUnit took.entry.paddr = some (place 3 0) ∧ took.opcode = .program ∧
      took.entry.flag 2 = true ∧ took.redo = false ∧ holder.blk.programFault (place 3 0) 1 none true = none ∧
      (holder.blk.half .a).holdFault took = none ∧ holder.blk.orderHeld .a 5 took 3 = false ∧
      leaves (left .programAt a most).blk .programAt a = true ∧
      (left .programAt a most).blk.locatePage (leftCtx .programAt a).entry.paddr = some (place 3 257) ∧
      (left .programAt a most).blk.programFault (place 3 257) 255 (some 257) true = none ∧
      (left .programAt a most).blk.orderHeld .a 5 (leftCtx .programAt a) 3 = false ∧
      leaves (left .offer offer tight).blk .offer offer = true ∧ leaves (left .offer offer loose).blk .offer offer = true ∧
      (left .offer offer tight).blk.locateUnit (leftCtx .offer offer).entry.paddr = some (place 3 0) ∧
      (left .offer offer tight).blk.programFault (place 3 0) 255 none false = none ∧
      (left .offer offer tight).blk.declines (leftCtx .offer offer) (place 3 0) = true ∧
      (left .offer offer loose).blk.declines (leftCtx .offer offer) (place 3 0) = false ∧
      (left .offer offer tight).blk.orderHeld .a 5 (leftCtx .offer offer) 3 = false ∧
      leaves (left .copy (progAt 3 1) (setRec 3 (recIn .full 512 512))).blk .copy (progAt 3 1) = true ∧
      (left .copy (progAt 3 1) (setRec 3 (recIn .full 512 512))).blk.locatePage (leftCtx .copy (progAt 3 1)).entry.paddr = some (place 3 0) ∧
      (left .copy (progAt 3 1) (setRec 3 (recIn .full 512 512))).blk.readFault (place 3 0) 0 4 = none ∧
      (recIn .opened 257 0).wp.toNat + 255 < 2 ^ 16 := by and_intros <;> decide +kernel

theorem wit_ErasesAndInvalidations :
    let l := [(20, 8, unitOf 3)]
    let n := l ++ [(28, 2, 7)]
    let free := setRec 3 (recIn .free 0 0)
    let gone := setRec 3 (recIn .retired 0 0)
    let full := setRec 3 (recIn .full 512 7)
    leaves (left .erase l free).blk .erase l = true ∧ (left .erase l free).blk.locateUnit (leftCtx .erase l).entry.paddr = some (place 3 0) ∧
      (leftCtx .erase l).redo = false ∧ (left .erase l free).blk.eraseFault (place 3 0) = none ∧
      ((left .erase l free).blk.recAt (place 3 0)).role = .none ∧
      leaves (left .erase l gone).blk .erase l = true ∧ (left .erase l gone).blk.eraseFault (place 3 0) = some .unitState ∧
      leaves (left .invalidate n full).blk .invalidate n = true ∧
      (left .invalidate n full).blk.locateUnit (leftCtx .invalidate n).entry.paddr = some (place 3 0) ∧
      (left .invalidate n full).blk.lostRec .a 3 = false ∧ invalidateFault ((left .invalidate n full).blk.recAt (place 3 0)) = none ∧
      leaves (left .invalidate n free).blk .invalidate n = true ∧
      invalidateFault ((left .invalidate n free).blk.recAt (place 3 0)) = some .unitState := by and_intros <;> decide +kernel

theorem wit_HoldsGroupsAndFences :
    let tag := [(20, 1, 63)]
    let hold := fun (x : Half) => { x with pool := { x.pool with holds := [(63, { pages := [], poison := [] })] } }
    let took : Ctx := { leftCtx .release tag with took := true }
    let taker := withA (fun x => hold { x with que := { x.que with ctxs := [(5, took)] } })
    let commit := [(2, 2, 4095), (20, 1, 1)]
    let g (ended : List Nat) : Group :=
      { members := [4], ok := [4], ended := ended, pages := 1, isVoid := false, gseq := 4, closing := some 5, changes := [] }
    let open' := (left .groupCommit commit).withBlock ((left .groupCommit commit).blk.onPair (fun p => { p with groups := [(4095, g [])] }))
    let shut := (left .groupCommit commit).withBlock ((left .groupCommit commit).blk.onPair (fun p => { p with groups := [(4095, g [4])] }))
    let back := [(20, 8, 64)]
    let before := fun (x : Half) => { x with que := { x.que with ctxs := [(4, leftCtx .read []), (5, leftCtx .fence back)] } }
    let waits := withA before
    let reads := withA (fun x => { x with dma := { x.dma with
      reads := [{ slot := none, descNo := 0, pos := 0, back := false, fence := some 5, addr := 64, len := 64 }] } })
    (taker.blk.half .a).leftCtx 5 .release = some took ∧ taker.blk.coreRuns .a = true ∧ taker.blk.journalOpen .a = true ∧
      took.redo = false ∧ took.took = true ∧ (taker.blk.half .a).pool.holds.find? 63 = some { pages := [], poison := [] } ∧
      leaves (left .release tag hold).blk .release tag = true ∧ (leftCtx .release tag).took = false ∧ (leftCtx .release tag).redo = false ∧
      leaves (left .release tag).blk .release tag = true ∧ ((left .release tag).blk.half .a).pool.holds.find? 63 = none ∧
      leaves open'.blk .groupCommit commit = true ∧ leaves shut.blk .groupCommit commit = true ∧
      open'.blk.pair.groups.find? (leftCtx .groupCommit commit).entry.group = some (g []) ∧
      (g []).members.all (fun m => (g []).ended.contains m) = false ∧
      shut.blk.pair.groups.find? (leftCtx .groupCommit commit).entry.group = some (g [4]) ∧
      (g [4]).members.all (fun m => (g [4]).ended.contains m) = true ∧
      leaves waits.blk .fence back = true ∧ (waits.blk.half .a).fenceHeld 5 (leftCtx .fence back) = true ∧
      leaves (left .fence []).blk .fence [] = true ∧ ((left .fence []).blk.half .a).fenceHeld 5 (leftCtx .fence []) = false ∧
      (leftCtx .fence []).entry.bytes 20 8 = 0 ∧ leaves (left .fence back).blk .fence back = true ∧
      ((left .fence back).blk.half .a).fenceHeld 5 (leftCtx .fence back) = false ∧ (leftCtx .fence back).entry.bytes 20 8 ≠ 0 ∧
      reads.blk.coreRuns .a = true ∧ (reads.blk.half .a).dma.reads.any (fun r => decide (r.fence = some 5)) = true := by
  and_intros <;> decide +kernel

theorem wit_AdminCommands :
    let ok := [(20, 2, 127), (23, 1, 14), (24, 8, 0x100000), (32, 8, 0x200000), (40, 2, 504)]
    let bad := [(20, 2, 1), (23, 1, 14), (24, 8, 0x100000), (32, 8, 0x200000), (40, 2, 504)]
    let one := [(20, 2, 1)]
    let bind := [(20, 1, 1), (21, 1, 0), (22, 1, 0)]
    let none' := [(20, 1, 1), (21, 1, 0), (22, 1, 15)]
    let rec' (op : Nat) := [(20, 3, 3), (23, 1, op), (24, 1, 15)]
    let x (l : List (Nat × Nat × Nat)) := (left .pitch l).blk.half .a
    leaves (left .pitch ok).blk .pitch ok = true ∧ (x ok).pitchFault up.blk.variant false (leftCtx .pitch ok).entry = none ∧
      fieldOf (leftCtx .pitch ok).entry 178 1 = 0 ∧ leaves (left .pitch bad).blk .pitch bad = true ∧
      (x bad).pitchFault up.blk.variant false (leftCtx .pitch bad).entry = some .queueExists ∧
      leaves (left .strike one).blk .strike one = true ∧ ((left .strike one).blk.half .a).que.queue? false 1 = some queue ∧
      (leftCtx .strike one).entry.bytes 20 2 ≠ 0 ∧ queue.strikeBy = none ∧ queue.state ≠ .struck ∧ queue.live = true ∧
      (leftCtx .strike one).entry.flag 0 = false ∧ leaves (left .strike []).blk .strike [] = true ∧
      (((left .strike []).blk.half .a).que.queue? false 0).isSome = true ∧ (leftCtx .strike []).entry.bytes 20 2 = 0 ∧
      leaves (left .profileLoad []).blk .profileLoad [] = true ∧
      leaves (left .profileBind bind).blk .profileBind bind = true ∧ (left .profileBind bind).blk.bindFault .a 1 0 0 = none ∧
      leaves (left .profileBind none').blk .profileBind none' = true ∧
      (left .profileBind none').blk.bindFault .a 1 0 15 = some .profileInvalid ∧
      leaves (left .recUpdate (rec' 1)).blk .recUpdate (rec' 1) = true ∧ leaves (left .recUpdate (rec' 2)).blk .recUpdate (rec' 2) = true ∧
      leaves (left .recUpdate (rec' 3)).blk .recUpdate (rec' 3) = true ∧ (leftCtx .recUpdate (rec' 3)).redo = false ∧
      (leftCtx .recUpdate (rec' 3)).entry.bytes 20 3 % 2 ^ 18 = 3 ∧ up.blk.keeper (recCh 3) = some .a ∧ up.blk.lostRec .a 3 = false ∧
      (left .recUpdate (rec' 1)).blk.recFault 3 1 (((left .recUpdate (rec' 1)).blk.half .a).rec? 3) = none ∧
      (left .recUpdate (rec' 2)).blk.recFault 3 2 (((left .recUpdate (rec' 2)).blk.half .a).rec? 3) = none ∧
      (left .recUpdate (rec' 3)).blk.recFault 3 3 (((left .recUpdate (rec' 3)).blk.half .a).rec? 3) = none := by
  and_intros <;> decide +kernel

theorem wit_RegionsOpenAndClose :
    let ask := [(20, 1, 15), (21, 1, 1), (22, 2, 1), (24, 3, 0), (28, 3, 16384)]
    let s (l : List (Nat × Nat × Nat)) (o : Opcode) (f : Half → Half) (en : Bool) : State :=
      left o l (fun x => f { x with win := { x.win with updateEn := en } })
    let opened := fun (x : Half) => { x with
      win := { x.win with desc := [(15, { RgnDesc.none with kind := .code, state := .opened, size := 1, copy0 := 0, copy1 := 16384 })] }
      store := { x.store with recs := [(0, { recIn .full 512 0 with rgnOwn := true, region := 15 }),
                                       (16384, { recIn .full 512 0 with rgnOwn := true, region := 15 })] } }
    let close := [(20, 1, 15), (24, 4, 9)]
    let old (t : State) := (t.blk.half .a).regionOf true 15
    (leftCtx .regionOpen ask).redo = false ∧ leaves (s ask .regionOpen id true).blk .regionOpen ask = true ∧
      (s ask .regionOpen id true).blk.regionFault .a true 15 (regionAsked RgnDesc.none (leftCtx .regionOpen ask).entry) = none ∧
      old (s ask .regionOpen id true) = RgnDesc.none ∧ leaves (s ask .regionOpen id false).blk .regionOpen ask = true ∧
      (s ask .regionOpen id false).blk.regionFault .a true 15 (regionAsked RgnDesc.none (leftCtx .regionOpen ask).entry) = some .regionLocked ∧
      leaves (s close .regionClose id true).blk .regionClose close = true ∧ (leftCtx .regionClose close).redo = false ∧
      (old (s close .regionClose id true)).state ≠ .opened ∧
      leaves (s close .regionClose opened false).blk .regionClose close = true ∧
      (old (s close .regionClose opened false)).state = .opened ∧
      ((s close .regionClose opened false).blk.half .a).win.updateEn = false ∧
      leaves (s close .regionClose opened true).blk .regionClose close = true ∧
      (s close .regionClose opened true).blk.closeFault .a true 15 = none ∧
      (s close .regionClose opened true).blk.pair.latched = false := by and_intros <;> decide +kernel

theorem wit_DiesAndUnitsInService :
    let here := [(20, 1, 0)]
    let away := [(20, 1, 5)]
    let unit (k i : Nat) := [(20, 1, k), (21, 1, i)]
    let noCores := fun (x : Half) => { x with dec := { x.dec with hard := [1] } }
    let lessEngine := fun (x : Half) => { x with engines := Tab.set Engine.unloaded x.engines 3 (Engine.idle .retired) }
    let noDie := fun (x : Half) => { setRec 3 { recIn .full 1 1 with role := .data, next := 3 } x with
      chans := [(0, { Chan.reset with dies := [(0, { die with retired := true })] })] }
    let b (o : Opcode) (l : List (Nat × Nat × Nat)) (f : Half → Half) := (left o l f).blk
    leaves (b .dieFeature here id) .dieFeature here = true ∧ leaves (b .dieFeature away id) .dieFeature away = true ∧
      (b .dieFeature here id).pair.latched = false ∧ (b .dieFeature here id).anyBudget = true ∧ (b .dieFeature here id).serving .a 0 = true ∧
      (((b .dieFeature here id).half .a).die 0 0).op = none ∧ ((b .dieFeature here id).half .a).profile? 0 0 = some profile ∧
      ((b .dieFeature here id).half .a).featureFault (leftCtx .dieFeature here).entry = none ∧
      ((b .dieFeature away id).half .a).featureFault (leftCtx .dieFeature away).entry = some .addressRange ∧
      leaves (b .dieReset here id) .dieReset here = true ∧ (b .dieReset here id).pair.latched = false ∧
      ((b .dieReset here id).half .a).namesDie 0 0 = true ∧ (((b .dieReset here id).half .a).die 0 0).op = none ∧
      leaves (b .retire (unit 0 4) id) .retire (unit 0 4) = true ∧ ((b .retire (unit 0 4) id).half .a).unitHere .brx4T 0 4 0 = false ∧
      leaves (b .retire (unit 1 1) noCores) .retire (unit 1 1) = true ∧
      ((b .retire (unit 1 1) noCores).half .a).unitHere .brx4T 1 1 0 = true ∧
      ((b .retire (unit 1 1) noCores).half .a).unitRetired 1 1 0 = false ∧ (b .retire (unit 1 1) noCores).retireLimit .a 1 1 0 = true ∧
      leaves (b .retire (unit 0 3) id) .retire (unit 0 3) = true ∧ ((b .retire (unit 0 3) id).half .a).unitHere .brx4T 0 3 0 = true ∧
      ((b .retire (unit 0 3) id).half .a).unitRetired 0 3 0 = false ∧ (b .retire (unit 0 3) id).retireLimit .a 0 3 0 = false ∧
      (leftCtx .retire (unit 0 3)).redo = false ∧
      leaves (b .restore (unit 0 3) lessEngine) .restore (unit 0 3) = true ∧
      ((b .restore (unit 0 3) lessEngine).half .a).unitHere .brx4T 0 3 0 = true ∧
      ((b .restore (unit 0 3) lessEngine).half .a).unitRetired 0 3 0 = true ∧ (b .restore (unit 0 3) lessEngine).restoreBlocked 0 3 0 = false ∧
      leaves (b .restore (unit 5 0) noDie) .restore (unit 5 0) = true ∧ ((b .restore (unit 5 0) noDie).half .a).unitHere .brx4T 5 0 0 = true ∧
      ((b .restore (unit 5 0) noDie).half .a).unitRetired 5 0 0 = true ∧ (b .restore (unit 5 0) noDie).restoreBlocked 5 0 0 = true := by
  and_intros <;> decide +kernel

/-- The slot a stripe check gives. -/
def stripeSlot : Except Status Nat → Option Nat
  | .ok n => some n
  | .error _ => none

/-- The status that refuses a stripe. -/
def stripeError : Except Status Nat → Option Status
  | .ok _ => none
  | .error st => some st

theorem stripeSlot_spec {e : Except Status Nat} {n : Nat} (h : stripeSlot e = some n) : e = .ok n := by
  cases e <;> simp_all [stripeSlot]

theorem stripeError_spec {e : Except Status Nat} {st : Status} (h : stripeError e = some st) : e = .error st := by
  cases e <;> simp_all [stripeError]

theorem wit_StripesAndRebuilds :
    let erased := fun (x : Half) => { x with store := { x.store with recs := [(3, recIn .erased 0 0), (16387, recIn .erased 0 0)] } }
    let good := [(20, 1, 0), (21, 1, 7), (22, 1, 2), (24, 3, 3), (27, 3, 16387)]
    let far := [(20, 1, 0), (21, 1, 7), (22, 1, 2), (24, 3, 3), (27, 3, 4)]
    let t : Stripe := { pq := false, ring := [3, 16387], window := 4, lowRow := 0, parityRow := 0, absent := [] }
    let member (r : Role) (n : Nat) : Rec := { recIn .opened 1 1 with role := r, next := BitVec.ofNat 18 n }
    let ring := withA (fun x => { x with
      store := { x.store with recs := [(3, member .data 16387), (16387, member .p 3)] }
      par := { x.par with stripes := [(0, t)], rows := [(0, { Row.fresh with folded := [0], ended := [0] })] } })
    let lost := fun (x : Half) => { x with
      store := { x.store with recs := [(3, { member .data 16387 with state := .retired }), (4, recIn .erased 0 0), (16387, member .p 3)] } }
    let re := [(20, 3, 3), (24, 3, 4)]
    let r : Rebuild := { slot := 0, src := 3, dst := 4, row := 512, unc := 0, seq := 5 }
    let ended := withA (fun x => { lost x with
      que := { x.que with ctxs := [(5, { leftCtx .rebuild re with phase := .running })] }
      par := { x.par with rebuilds := [(0, r)] } })
    leaves (left .stripeOpen good erased).blk .stripeOpen good = true ∧ (leftCtx .stripeOpen good).redo = false ∧
      stripeSlot ((left .stripeOpen good erased).blk.stripeCheck .a 2 (stripeAsked (leftCtx .stripeOpen good).entry)) = some 0 ∧
      leaves (left .stripeOpen far erased).blk .stripeOpen far = true ∧
      stripeError ((left .stripeOpen far erased).blk.stripeCheck .a 2 (stripeAsked (leftCtx .stripeOpen far).entry)) = some .stripeLayout ∧
      ring.blk.coreRuns .a = true ∧ ring.blk.pair.latched = false ∧ (ring.blk.half .a).par.stripes.find? 0 = some t ∧
      (ring.blk.half .a).nextRow 0 t.parityRow ((ring.blk.half .a).rowsHeld 0) = 0 ∧ 0 < (ring.blk.half .a).stripeCap t ∧
      t.rowEnded ((ring.blk.half .a).row 0 0 t) = true ∧
      leaves (left .rebuild re lost).blk .rebuild re = true ∧ (leftCtx .rebuild re).redo = false ∧
      (left .rebuild re lost).blk.rebuildFault .a 3 4 false = none ∧
      leaves (left .rebuild re).blk .rebuild re = true ∧ (left .rebuild re).blk.rebuildFault .a 3 4 false = some .stripeLayout ∧
      ended.blk.coreRuns .a = true ∧ ended.blk.journalOpen .a = true ∧ (ended.blk.half .a).par.rebuilds.find? 0 = some r ∧
      ended.blk.rebuilt .a r = true := by and_intros <;> decide +kernel

/-! ### The twin -/

/-- The pair in service with its halves changed. -/
def withAB (f g : Half → Half) : State := up.withBlock ((up.blk.onHalf .a f).onHalf .b g)

theorem wit_DetachAndAttach :
    let l := [(20, 1, 1)]
    let running (o : Opcode) (l : List (Nat × Nat × Nat)) := fun (x : Half) => { x with
      que := { x.que with ctxs := [(5, { leftCtx o l with phase := .running })] } }
    let asked (o : Opcode) (l : List (Nat × Nat × Nat)) := fun (x : Half) => { x with que := { x.que with ctxs := [(5, leftCtx o l)] } }
    let busy := fun (x : Half) => { x with que := { x.que with ctxs := [(6, leftCtx .read [])] } }
    let standby (ok : Bool) := fun (x : Half) => { x with twn := { x.twn with st := .standby, stDone := ok, stFail := false } }
    let solo := fun (x : Half) => { x with twn := { x.twn with st := .solo } }
    let d := withA (asked .detach l)
    let self := withA (asked .detach [])
    let wait := withAB (running .detach l) busy
    let drained := withA (running .detach l)
    let a (ok : Bool) := withAB (fun x => solo (asked .attach l x)) (standby ok)
    let fails := withAB (fun x => solo (asked .attach l x)) (fun x => { x with twn := { x.twn with st := .standby, stDone := true, stFail := true } })
    let twice := withA (asked .attach l)
    let syncing := fun (x : Half) => { x with twn := { x.twn with st := .syncing } }
    let looks (l : List (Nat × Nat × Nat)) := withAB (fun x => syncing (running .attach l x)) syncing
    let cut := withAB (fun x => running .attach l x) (fun x => { x with twn := { x.twn with st := .standby } })
    let back := withA (fun x => running .attach (l ++ [(1, 1, 1)]) { x with que := { x.que with adopted := [] } })
    (d.blk.half .a).ctx? 5 = some (leftCtx .detach l) ∧ d.blk.coreRuns .a = true ∧ d.blk.pair.latched = false ∧
      (leftCtx .detach l).phase = .left ∧ namesSelf .a (leftCtx .detach l).entry = false ∧ d.blk.linked = true ∧
      (leftCtx .detach l).redo = false ∧ (self.blk.half .a).ctx? 5 = some (leftCtx .detach []) ∧
      namesSelf .a (leftCtx .detach []).entry = true ∧
      ((wait.blk.half .a).ctx? 5).any (fun c => decide (c.opcode = .detach) && decide (c.phase = .running)) = true ∧ wait.blk.linked = true ∧
      (wait.blk.half .b).drained = false ∧ ((drained.blk.half .a).ctx? 5).any (fun c => decide (c.phase = .running)) = true ∧
      (drained.blk.half .b).drained = true ∧
      ((a true).blk.half .a).ctx? 5 = some (leftCtx .attach l) ∧ namesSelf .a (leftCtx .attach l).entry = false ∧
      ((a true).blk.half .b).twn.st = .standby ∧ (leftCtx .attach l).redo = false ∧ (a true).blk.coreRuns .b = true ∧
      ((a true).blk.half .b).twn.stDone = true ∧ ((a true).blk.half .b).twn.stFail = false ∧ (leftCtx .attach l).entry.flag 0 = false ∧
      ((a false).blk.half .b).twn.stDone = false ∧ ((a false).blk.half .a).ctx? 5 = some (leftCtx .attach l) ∧
      ((a false).blk.half .b).twn.st = .standby ∧ (a false).blk.coreRuns .b = true ∧ (fails.blk.half .b).twn.stFail = true ∧
      (fails.blk.half .b).twn.st = .standby ∧ fails.blk.coreRuns .b = true ∧
      ((looks l).blk.half .a).ctx? 5 = some { leftCtx .attach l with phase := .running } ∧ ((looks l).blk.half .a).twn.st = .syncing ∧
      ((looks l).blk.half .b).twn.st = .syncing ∧ (looks l).blk.coreRuns .b = true ∧ (leftCtx .attach (l ++ [(1, 1, 1)])).entry.flag 0 = true ∧
      ((looks (l ++ [(1, 1, 1)])).blk.half .b).twn.st = .syncing ∧ (looks (l ++ [(1, 1, 1)])).blk.coreRuns .b = true ∧
      (cut.blk.half .a).ctx? 5 = some { leftCtx .attach l with phase := .running } ∧ (cut.blk.half .a).twn.st ≠ .syncing ∧
      cut.blk.linked = false ∧ (twice.blk.half .b).twn.st ≠ .standby ∧
      (twice.blk.half .a).ctx? 5 = some (leftCtx .attach l) ∧
      ((back.blk.half .a).ctx? 5).any (fun c => decide (c.opcode = .attach) && decide (c.phase = .running)) = true ∧
      back.blk.linked = true ∧ (back.blk.half .a).adoptedDrained = true := by and_intros <;> decide +kernel

/-- Half A with its twin registers changed. -/
def withT (f : Twin → Twin) : State := withA (fun x => { x with twn := f x.twn })

theorem wit_YieldAndSelftest :
    let fault := withT (fun w => { w with st := .linkFault })
    let stand := withT (fun w => { w with st := .standby })
    let c : Ckpt := { ckpt with half := .b }
    let gone := (fault.withBlock (fault.blk.onPair (fun p => { p with enable := [(0, .a), (1, .a)] }))).withBlock
      ((fault.blk.onPair (fun p => { p with enable := [(0, .a), (1, .a)] })).onHalf .b (fun x =>
        { x with twn := { x.twn with st := .yielding, yieldSeq := some 1 } }))
    let halted := up.withBlock (((up.blk.onPair (fun p => { p with enable := [(0, .a), (1, .a)] })).onHalf .a (fun x =>
      { x with twn := { x.twn with st := .solo } })).onHalf .b (fun x => { x with boot := { x.boot with stage := 15 }, twn := { x.twn with st := .solo } }))
    takes fault.blk .a = true ∧ takes stand.blk .a = true ∧ takes up.blk .a = true ∧
      ((fault.blk.taken .a causeRegister).half .a).twn.st = .linkFault ∧ ((up.blk.taken .a causeRegister).half .a).twn.st ≠ .linkFault ∧
      ((stand.blk.taken .a causeRegister).half .a).twn.st = .standby ∧ ((up.blk.taken .a causeRegister).half .a).twn.st ≠ .standby ∧
      gone.blk.coreRuns .a = true ∧ (gone.blk.half .a).twn.st = .linkFault ∧ gone.blk.holdsEnable .b = false ∧ c.half = .b ∧
      c.clean = true ∧ 0 < c.sealed ∧ (gone.blk.half .b).twn.yieldSeq.all (fun q => decide (q = c.seq)) = true ∧
      halted.blk.coreRuns .a = true ∧ halted.blk.holdsEnable .b = false ∧ (halted.blk.half .a).twn.st = .solo ∧
      (halted.blk.half .a).boot.stage = 7 ∧ (halted.blk.half .b).boot.stage = 15 ∧ (halted.blk.half .b).boot.strapErr = false ∧
      (halted.blk.toTake .a).isEmpty = false := by and_intros <;> decide +kernel

theorem wit_LinkMessages :
    let acked := withT (fun w => { w with sent := [(0, .heartbeat)], applied := 1 })
    let from' (m : Msg) := up.withBlock (up.blk.onHalf .b (fun x => { x with twn := { x.twn with sent := [(0, m)] } }))
    let fails (n : Nat) := withT (fun w => { w with sent := [(0, .heartbeat)], applied := 0, fails := n })
    up.blk.pair.frozen = false ∧ (acked.blk.half .a).twn.sent = (0, Msg.heartbeat) :: [] ∧ (acked.blk.half .a).twn.applied ≠ 0 ∧
      (from' .heartbeat).blk.incoming .a = some .heartbeat ∧ (from' .heartbeat).blk.coreRuns .a = true ∧
      (from' (.sleep 2)).blk.incoming .a = some (.sleep 2) ∧ (Msg.sleep 2).passes = true ∧
      (from' (.seqAsk 1 0 readEntry)).blk.incoming .a = some (.seqAsk 1 0 readEntry) ∧ up.blk.pair.owner = .a ∧
      (withP (fun p => { p with owner := .b })).blk.pair.owner ≠ .a ∧ (0, Msg.heartbeat).2 ≠ .sleep 2 ∧
      ((fails 6).blk.half .a).twn.applied < ((fails 6).blk.half .a).twn.sent.length ∧ ((fails 6).blk.half .a).twn.fails < 7 ∧
      7 ≤ ((fails 7).blk.half .a).twn.fails ∧ ((fails 7).blk.half .a).twn.applied < ((fails 7).blk.half .a).twn.sent.length ∧
      up.blk.coreRuns .a = true ∧ up.blk.linked = true ∧ (up.blk.half .a).pwr.twinState < 2 ∧ (up.blk.half .a).twn.st = .attached ∧
      (up.blk.half .a).pwr.watching = false := by and_intros <;> decide +kernel

theorem wit_LossAndTakeover :
    let late := withT (fun w => { w with late := 3 })
    let watch := withA (fun x => { x with pwr := { x.pwr with watching := true } })
    let wait := withT (fun w => { w with st := .takingOver, waitLock := true })
    let gone := wait.withBlock (wait.blk.onPair (fun p => { p with enable := [] }))
    let take := withT (fun w => { w with st := .takingOver })
    late.blk.coreRuns .a = true ∧ (late.blk.half .a).twn.st = .attached ∧ (late.blk.half .a).pwr.watching = false ∧
      (late.blk.half .a).twn.hbMiss ≤ (late.blk.half .a).twn.late ∧
      watch.blk.pair.frozen = false ∧ (watch.blk.half .a).twn.st = .attached ∧ (watch.blk.half .a).pwr.watching = true ∧
      (watch.blk.half .a).boot.failed = false ∧
      wait.blk.coreRuns .a = true ∧ (wait.blk.half .a).twn.st = .takingOver ∧ (wait.blk.half .a).twn.waitLock = true ∧
      wait.blk.holdsEnable .b = true ∧ gone.blk.coreRuns .a = true ∧ (gone.blk.half .a).twn.st = .takingOver ∧
      (gone.blk.half .a).twn.waitLock = true ∧ gone.blk.holdsEnable .b = false ∧
      take.blk.coreRuns .a = true ∧ (take.blk.half .a).twn.st = .takingOver ∧ (take.blk.half .a).twn.waitLock = false ∧
      up.blk.pair.frozen = false := by and_intros <;> decide +kernel

/-! ### Engines, banks and channels -/

/-- Half A with channel 0 changed. -/
def withK (f : Chan → Chan) : State := withA (fun x => x.onChan 0 f)

/-- Half A with die 0 of channel 0 changed. -/
def withD (f : Die → Die) : State := withK (fun k => k.onDie 0 f)

theorem wit_RepairsInService :
    let bad := withK (fun k => { k with padFail := true })
    let due := withA (fun x => x.onEngine 2 (fun e => { e with next := some 0 }))
    up.blk.coreRuns .a = true ∧ bad.blk.coreRuns .a = true ∧ bad.blk.linked = true ∧ (bad.blk.half .a).drivesCh 0 = true ∧
      ((bad.blk.half .a).chan 0).retired = false ∧ (bad.blk.half .b).canTake bad.blk.variant = true ∧ bad.blk.moveDue .a 0 1 = true ∧
      ((up.blk.half .a).engine 1).role = .bound ∧ ((up.blk.half .a).engine 2).role = .background ∧ ((up.blk.half .a).engine 2).next = none ∧
      (up.blk.half .a).jobOver 2 = true ∧ ((up.blk.half .a).engine 3).role = .spare ∧ ((up.blk.half .a).engine 3).next = none ∧
      (due.blk.half .a).engine 2 = { Engine.idle .background with next := some 0 } ∧
      (up.blk.half .a).pool.live.contains 3 = true := by and_intros <;> decide +kernel

/-- A Toggle family whose status shows a suspension in bit 2. -/
def toggle : Family :=
  { index := 0, readId := 0, suspOp := 0x84, suspL := false, resOp := 0xD2, resL := false, slcPrefix := 0xA2, cacheSusp := false, statusOp := 0x78,
    volumeOp := 0xE1, readDqOp := 0x62, writeTxOp := 0x63, writeRxOp := 0x64, suspMask := 4, suspValue := 4, sdrWrite := none, profile := profile }

/-- A die operation of command 5 on unit 3. -/
def oper (k : OpKind) (p : OpPhase) : DieOp := { mkOp k 5 0 3 [0] false 0 with phase := p }

theorem wit_BusAndSchedule :
    let want := withD (fun e => { e with ops := [oper .read .queued] })
    let pulse := withD (fun e => { e with ops := [oper .program .queued], pulseDue := true })
    let o : DieOp := { oper .erase .suspended with gapDone := true, pol := some { mask := 15, max := 8, noGap := false } }
    let under := withD (fun e => { e with op := some o, ops := [{ oper .read .queued with seq := 6, recIdx := 4 }] })
    let out := withK (fun k => { (k.onDie 0 (fun e => { e with op := some (oper .read .dataOut) })) with
      tasks := [{ kind := .poll, die := 0 }, { kind := .dataOut, die := 0 }] })
    let poll := withK (fun k => { k with tasks := [{ kind := .poll, die := 0 }] })
    let susp := withD (fun e => { e with op := some (oper .erase .suspended) })
    let busy := withD (fun e => { e with op := some (oper .erase .busy) })
    let d (s : State) := (s.blk.half .a).die 0 0
    let k (s : State) := (s.blk.half .a).chan 0
    want.blk.serving .a 0 = true ∧ want.blk.pair.latched = false ∧ (want.blk.half .a).profile? 0 0 = some profile ∧ (d want).op = none ∧
      (want.blk.choose .a profile (d want) (d want).ops).2 = some (oper .read .queued) ∧
      ((oper .read .queued).writes && (d want).pulseWaits profile) = false ∧
      pulse.blk.serving .a 0 = true ∧ (pulse.blk.half .a).profile? 0 0 = some profile ∧ (d pulse).op = none ∧
      (pulse.blk.choose .a profile (d pulse) (d pulse).ops).2 = some (oper .program .queued) ∧
      ((oper .program .queued).writes && (d pulse).pulseWaits profile) = true ∧
      up.blk.serving .a 0 = true ∧ (up.blk.choose .a profile (d up) (d up).ops).2 = none ∧
      under.blk.serving .a 0 = true ∧ (d under).op = some o ∧ o.phase = .suspended ∧ (d under).under = none ∧
      (under.blk.choose .a profile (d under) ((d under).ops.filter (fun r => under.blk.mayRun o r))).2
        = some { oper .read .queued with seq := 6, recIdx := 4 } ∧
      out.blk.coreRuns .a = true ∧ out.blk.enabled .a 0 = true ∧ ((out.blk.half .a).engineOf out.blk.variant 0).isSome = true ∧
      (k out).nextTask (out.blk.mayTask .a 0) = some { kind := .dataOut, die := 0 } ∧
      (((k out).die 0).current.bind DieOp.prof).or ((out.blk.half .a).profile? 0 0) = some profile ∧
      ((k out).die 0).current = some (oper .read .dataOut) ∧
      (k poll).nextTask (poll.blk.mayTask .a 0) = some { kind := .poll, die := 0 } ∧ ((k poll).die 0).current = none ∧
      (k up).nextTask (up.blk.mayTask .a 0) = none ∧
      (d susp).op = some (oper .erase .suspended) ∧ (oper .erase .suspended).phase = .suspended ∧ (d susp).under = none ∧
      susp.blk.suspOver (oper .erase .suspended) (d susp).ops = true ∧ susp.blk.mayResume .a 0 0 = true ∧
      (d busy).busy = true ∧ up.blk.enabled .a 15 = false := by and_intros <;> decide +kernel

theorem wit_LunOperationsEnd :
    let read := withD (fun e => { e with op := some (oper .read .busy) })
    let erase := withD (fun e => { e with op := some (oper .erase .busy) })
    let susp := withD (fun e => { e with op := some (oper .erase .suspending), family := some toggle })
    let old := withD (fun e => { e with eraseActive := true, eraseAge := 199 })
    let young := withD (fun e => { e with eraseActive := true, eraseAge := 198 })
    read.blk.coreRuns .a = true ∧ read.blk.enabled .a 0 = true ∧ ((read.blk.half .a).die 0 0).current = some (oper .read .busy) ∧
      (oper .read .busy).phase = .busy ∧ statusReady 0xE0 = true ∧ statusReady 0xA0 = false ∧ read.blk.pair.latched = false ∧
      (oper .read .busy).isRead = true ∧ ((erase.blk.half .a).die 0 0).current = some (oper .erase .busy) ∧
      (oper .erase .busy).isRead = false ∧ (oper .erase .busy).kind ≠ .reset ∧ (oper .erase .busy).kind ≠ .setup ∧
      ((susp.blk.half .a).die 0 0).op = some (oper .erase .suspending) ∧ (oper .erase .suspending).phase = .suspending ∧
      ((susp.blk.half .a).die 0 0).showsSuspended 0xE4 = true ∧ ((susp.blk.half .a).die 0 0).showsSuspended 0xE0 = false ∧
      statusReady 0xE4 = true ∧
      ((old.blk.half .a).die 0 0).eraseActive = true ∧ (old.blk.half .a).gen.ersMark ≠ 0 ∧
      (old.blk.half .a).gen.ersMark ≤ satAdd 65535 ((old.blk.half .a).die 0 0).eraseAge 1 ∧ ((old.blk.half .a).die 0 0).ageMarked = false ∧
      satAdd 65535 ((young.blk.half .a).die 0 0).eraseAge 1 < (young.blk.half .a).gen.ersMark := by and_intros <;> decide +kernel

theorem wit_ChannelTraining :
    let open' : List (BitVec 64) := List.replicate 8 (-1)
    let found : List DieTrain := [{ die := 0, code := 6, lanesRd := open', lanesWr := open' }]
    let cold := withK (fun k => { k with trained := false })
    let k (s : State) := (s.blk.half .a).chan 0
    cold.blk.coreRuns .a = true ∧ cold.blk.enabled .a 0 = true ∧ (k cold).retired = false ∧ (k cold).padFail = false ∧
      cold.blk.pair.latched = false ∧ ((cold.blk.half .a).engineOf cold.blk.variant 0).isSome = true ∧ (k cold).trainDue = true ∧
      ((cold.blk.half .a).trainCodes 0).isEmpty = false ∧ cold.blk.trainReady .a 0 = true ∧
      ((cold.blk.half .a).trainTries 0).find? (fun r => (k cold).allPass found r) = some 6 ∧
      ((cold.blk.half .a).trainTries 0).find? (fun r => (k cold).allPass [] r) = none ∧ (k up).trainDue = false ∧ (k up).retired = false ∧
      (k up).trained = true ∧ (k up).cfg.monEn = true ∧ [0, (k up).cfg.monLimit + 1].any (fun n => decide ((k up).cfg.monLimit < n)) = true ∧
      (k up).retrainMs ≠ 0 ∧ takes up.blk .a = true ∧ Chan.reset.padRetired = false ∧ Chan.reset.retired = false ∧
      (up.blk.taken .a causeRegister).enabled .a 0 = true ∧ (up.blk.taken .a causeRegister).enabled .a 8 = false := by
  and_intros <;> decide +kernel

/-! ### The read ladder, the decode pool and the arbiter -/

/-- Half A with command 5 running, with one codeword on the ladder. -/
def onLadder (k : Cw) (f : Half → Half := id) : State :=
  withA (fun x => f { x with que := { x.que with ctxs := [(5, { leftCtx .read [] with phase := .running, cws := [k] })] } })

/-- The context of that command. -/
def ladderCtx (k : Cw) : Ctx := { leftCtx .read [] with phase := .running, cws := [k] }

theorem wit_ReadLadder :
    let k := cw .arriving 1 7
    let soft : Cw := { cw .arriving 4 7 with senses := 1 }
    let s := onLadder k
    let rawCtx : Ctx := { ladderCtx k with opcode := .readRaw }
    let job : CoreJob := { id := coreId false 0, seq := 5, place := 0, iter := 1, llr := 0 }
    let busy (k : Cw) := onLadder k (fun x => { x with dec := { x.dec with busy := [job] } })
    let recon := onLadder (cw .recon 5 7) (fun x => { x with store := { x.store with recs :=
      [(3, { recIn .full 512 9 with role := .data, next := 16387 }), (16387, { recIn .full 512 0 with role := .p, next := 3 })] } })
    let pads := onLadder (cw .recon 5 7) (setRec 3 { recIn .retired 0 0 with role := .data, next := 3 })
    s.blk.coreRuns .a = true ∧ (s.blk.ctxOf 5).any (fun e => decide (e = (HalfId.a, ladderCtx k))) = true ∧
      (ladderCtx k).cws[0]? = some k ∧ s.blk.driver (recCh k.idx) = some .a ∧ k.st = .arriving ∧
      (s.blk.arrived .a rawCtx k 0).st = .done ∧
      ((onLadder soft).blk.arrived .a (ladderCtx soft) soft 0).st = .soft ∧
      (onLadder soft).blk.driver (recCh soft.idx) = some .a ∧ soft.st = .arriving ∧
      ((busy k).blk.half .a).dec.busy.find? (fun e => decide (e.id = coreId false 0)) = some job ∧ (busy k).blk.coreRuns .a = true ∧
      ((busy k).blk.ctxOf job.seq).any (fun e => decide (e = (HalfId.a, ladderCtx k))) = true ∧
      (ladderCtx k).cws[job.place]? = some k ∧
      recon.blk.keeper (recCh 3) = some .a ∧ (cw .recon 5 7).st = .recon ∧ (ladderCtx (cw .recon 5 7)).cws[0]? = some (cw .recon 5 7) ∧
      (recon.blk.ctxOf 5).any (fun e => decide (e = (HalfId.a, ladderCtx (cw .recon 5 7)))) = true ∧
      (ladderCtx (cw .recon 5 7)).membersDone 0 = true ∧ recon.blk.reconstruct .a (cw .recon 5 7) [] = none ∧
      pads.blk.reconstruct .a (cw .recon 5 7) [] = some padPayload := by and_intros <;> decide +kernel

theorem wit_ArbiterBoundaries :
    let s := withA (fun x => { x with arb := { x.arb with pool := { x.arb.pool with held := [3] }, dec := { x.arb.dec with held := [18] } } })
    s.blk.coreRuns .a = true ∧ (s.blk.half .a).falling = false ∧ (s.blk.half .a).arb.pool.held.contains 3 = true ∧
      (s.blk.half .a).arb.dec.held.contains 18 = true ∧
      takes s.blk .a = true ∧ Arb.reset.pool.reqs = [] ∧ ({ Arb.reset.pool with reqs := [1] } : ArbCls).reqs ≠ [] := by
  and_intros <;> decide +kernel

theorem wit_LfsrWrites : takes up.blk .a = true ∧ ({ Arb.reset.pool with lfsrWr := some 1 } : ArbCls).lfsrWr = some 1 ∧
    Arb.reset.pool.lfsrWr = none ∧ (1 : BitVec 23) ≠ 0 := by and_intros <;> decide +kernel

/-! ### DMA, memories and gutters -/

/-- Half A with stream 0 of command 5 in a state of its walk. -/
def walking (f : Stream → Stream) (g : Dma → Dma := id) : State :=
  withA (fun x => { x with
    que := { x.que with ctxs := [(5, { leftCtx .program [] with phase := .running, xfer := .active 0 })] }
    dma := g { x.dma with streams := [(0, f { Stream.reset with active := true, gen := 7, seq := 5, queue := 1, total := 4096 })] } })

/-- A MOVE descriptor of one line. -/
def descr : Descr := { addr := 0x1000, len := 4096, op := 0, irqHalf := false, irqFull := false, next := 0, pattern := 0, reserved := false }

theorem wit_DmaStreams :
    let c : Ctx := { leftCtx .program [] with phase := .running, xfer := .wanted }
    let start := withA (fun x => { x with que := { x.que with ctxs := [(5, c)] } })
    let walk := walking id
    let move := walking (fun t => { t with desc := some descr, descAt := 64 })
    let r : MRead := { slot := some 0, descNo := 0, pos := 0, back := false, fence := none, addr := 0x1000, len := 64 }
    let w : MWrite := { kind := .stream 0 7 0, addr := 0x1000, len := 64, data := 0, poison := 0, ordered := false }
    let back : MRead := { r with back := true }
    let v : MWrite := { w with kind := .header 1 false }
    let reads := walking id (fun d => { d with reads := [r] })
    let backs := walking id (fun d => { d with reads := [back] })
    let writes := walking id (fun d => { d with writes := [v, w] })
    let quiet := walking (fun t => { t with ended := true })
    let owes := walking (fun t => { t with ended := true, readback := true, dir := true, lastAddr := some 64 })
    let t (s : State) := ((s.blk.taken .a causeRegister).half .a).stream 0
    start.blk.coreRuns .a = true ∧ start.blk.pair.latched = false ∧
      List.find? (fun e => e.2.mayStart start.blk.variant) (start.blk.half .a).que.ctxs = some (5, c) ∧
      (start.blk.half .a).freeStream start.blk.variant = some 0 ∧
      walk.blk.coreRuns .a = true ∧ ((walk.blk.half .a).ctx? ((walk.blk.half .a).stream 0).seq).isSome = true ∧
      ((walk.blk.half .a).stream 0).active = true ∧ ((walk.blk.half .a).stream 0).ended = false ∧ ((walk.blk.half .a).stream 0).desc = none ∧
      ((walk.blk.half .a).stream 0).inMeta = false ∧ (walk.blk.half .a).dma.reads.length < 128 ∧ descr.invalid false = false ∧ ({ descr with op := 3 } : Descr).invalid true = true ∧
      ((move.blk.half .a).stream 0).desc = some descr ∧ ((move.blk.half .a).ctx? ((move.blk.half .a).stream 0).seq).isSome = true ∧
      ((move.blk.half .a).stream 0).active = true ∧ ((move.blk.half .a).stream 0).ended = false ∧
      (move.blk.half .a).dma.writes.length < 128 ∧ (move.blk.half .a).dma.reads.length < 128 ∧
      (reads.blk.half .a).dma.reads.find? (fun r => decide (r.slot = some 0)) = some r ∧ r.back = false ∧
      (backs.blk.half .a).dma.reads.find? (fun r => decide (r.slot = some 0)) = some back ∧ back.back = true ∧
      (writes.blk.half .a).dma.writes = [v] ++ w :: [] ∧ w.kind = .stream 0 7 0 ∧ v.kind ≠ .stream 0 7 0 ∧
      ((quiet.blk.half .a).stream 0).active = true ∧ ((quiet.blk.half .a).stream 0).ended = true ∧ ((quiet.blk.half .a).stream 0).outRd = 0 ∧
      ((quiet.blk.half .a).stream 0).respWait = false ∧ ((quiet.blk.half .a).stream 0).owesBack = false ∧
      ((owes.blk.half .a).stream 0).owesBack = true ∧ ((owes.blk.half .a).stream 0).rbIssued = false ∧
      takes walk.blk .a = true ∧ (t walk).active = true ∧ (t walk).ended = false ∧ (0x701 : Word).bit 0 = true ∧
      (0x701 : Word).field 8 8 = (t walk).gen.toNat ∧ (0x601 : Word).field 8 8 ≠ (t walk).gen.toNat ∧ (t up).active = false ∧
      (t owes).dir = true ∧ (t owes).ended = true ∧ (t quiet).dir = false ∧ (t quiet).active = true := by
  and_intros <;> decide +kernel

theorem wit_StoresAndMemories :
    let full := withA (setRec 3 (recIn .full 512 1))
    let memory := withA (fun x => { x with mems := { x.mems with tab := [(4, { Mem.reset with allWritten := true })] } })
    let known := withA (fun x => { x with store := { x.store with written := true } })
    let still := withA (fun x => { x with mems := { x.mems with interval := 0 }, store := { x.store with periodMs := 0 } })
    takes up.blk .a = true ∧ (up.blk.taken .a causeRegister).serves .a 3 = true ∧ (up.blk.taken .a causeRegister).unitExists 3 = true ∧
      takes known.blk .a = true ∧ ((known.blk.taken .a causeRegister).half .a).capturePoison true 3 = 0 ∧
      (known.blk.taken .a causeRegister).serves .a 3 = true ∧ (known.blk.taken .a causeRegister).unitExists 3 = true ∧
      (known.blk.taken .a causeRegister).unitExists 16 = false ∧
      takes full.blk .a = true ∧ (full.blk.taken .a causeRegister).ha.store.recs.any (fun e => holdsSeed e.2) = true ∧
      (up.blk.taken .a causeRegister).ha.store.recs.any (fun e => holdsSeed e.2) = false ∧
      (up.blk.taken .a causeRegister).hb.store.recs.any (fun e => holdsSeed e.2) = false ∧
      up.blk.coreRuns .a = true ∧ (up.blk.half .a).store.periodMs ≠ 0 ∧ still.blk.coreRuns .a = true ∧ (still.blk.half .a).store.periodMs = 0 ∧
      memory.blk.coreRuns .a = true ∧ (memory.blk.half .a).mems.interval ≠ 0 ∧
      ((memory.blk.half .a).mem 4).isWritten .unused = true ∧
      ((memory.blk.half .a).mem 4).poisoned.contains (((memory.blk.half .a).mem 4).scrubAt, .unused) = false ∧ (still.blk.half .a).mems.interval = 0 ∧
      (recIn .opened 1 1).state = .opened ∧ (recIn .full 1 1).state = .full ∧ (recIn .free 0 0).state ≠ .opened ∧
      (recIn .free 0 0).state ≠ .full := by and_intros <;> decide +kernel

/-- Half A with its gutter 15 changed. -/
def withG (f : Gutter → Gutter) : State := withA (fun x => x.onGutter 15 f)

theorem wit_Gutters :
    let item : Item := { num := 0, words := [0x1234], poison := [] }
    let some' := withG (fun u => { u with items := [item], nextNum := 1 })
    let stalled := withG (fun u => { u with stalled := 1 })
    let spill := withG (fun u => { u with spill := true, spOut := [(0, 1)] })
    let g (s : State) := ((s.blk.taken .a causeRegister).half .a).gutter 15
    takes up.blk .a = true ∧ takes some'.blk .a = true ∧ takes stalled.blk .a = true ∧ takes spill.blk .a = true ∧
      15 < Config.gutters up.blk.variant ∧ (g up).spilling = false ∧ (g up).peek = none ∧ (g some').spilling = false ∧
      (g some').peek.isSome = true ∧ (g stalled).stalled ≠ 0 ∧ (g stalled).spilling = false ∧ (g spill).spilling = true ∧
      some'.blk.pair.frozen = false ∧ some'.blk.held .a = false ∧ ((some'.blk.half .a).gutter 15).tmoUs ≠ 0 ∧
      0 < ((some'.blk.half .a).gutter 15).unread ∧ spill.blk.coreRuns .a = true ∧ ((spill.blk.half .a).gutter 15).spOut ≠ [] := by
  and_intros <;> decide +kernel

/-! ### Governors, interrupts, power and keyed resets -/

theorem wit_Governors :
    let on := withA (fun x => { x with loops := { x.loops with tab := [(3, { Loop.reset with en := true, kind := 2 })] } })
    let two := withA (fun x => { x with loops := { x.loops with
      tab := [(0, { Loop.reset with en := true, kind := 2 }), (3, { Loop.reset with kind := 2 })] } })
    let stop := on.withBlock (on.blk.onHalf .a (fun x => { x with boot := { x.boot with stage := 5 } }))
    let l (s : State) := ((s.blk.taken .a causeRegister).half .a).loops
    on.blk.coreRuns .a = true ∧ (on.blk.half .a).boot.stage ≠ 5 ∧ stop.blk.coreRuns .a = true ∧ (stop.blk.half .a).boot.stage = 5 ∧
      ((stop.blk.half .a).loops.slot 3).en = true ∧ ((on.blk.half .a).loops.slot 3).en = true ∧ takes on.blk .a = true ∧ takes two.blk .a = true ∧
      takes up.blk .a = true ∧ 3 < Config.loops up.blk.variant ∧ ((l on).slot 3).en = true ∧ ((l two).slot 3).en = false ∧
      (l two).conflicts 3 = true ∧ ((l up).slot 3).en = false ∧ (l up).conflicts 3 = false := by and_intros <;> decide +kernel

theorem wit_Interrupts :
    let src : Src := { Src.reset with prio := 15, mask := false, level := true }
    let i : Irq := { Irq.reset with srcs := [(1, src), (2, src)] }
    let asleep := withA (fun x => { x with
      pwr := { x.pwr with state := 2 }, gut := { x.gut with tab := [(0, { Gutter.reset with tmo := true })] }
      irq := { Irq.reset with srcs := [(0, { Src.reset with mask := false })] } })
    let b := asleep.blk.onHalf .a (fun x => { x with irq := (x.irq.onSrc 0 (fun y => { y with level := x.rawLevel 0 })).assign })
    (up.blk.half .a).pwr.state = 0 ∧ asleep.blk.pair.frozen = false ∧ asleep.blk.held .a = false ∧ srcExists asleep.blk.variant 0 = true ∧
      srcEdge 0 = false ∧ 1 ≤ (asleep.blk.half .a).pwr.state ∧ ((asleep.blk.half .a).irq.src 0).mask = false ∧
      ((asleep.blk.half .a).irq.src 0).level = false ∧ ((b.half .a).irq.src 0).level = true ∧ takes up.blk .a = true ∧ up.blk.pair.frozen = false ∧ up.blk.held .a = false ∧ srcExists up.blk.variant 1 = true ∧ srcEdge 1 = false ∧
      i.winner 0 = some (1, src) ∧ Tab.risingFrom 0 i.srcs = true ∧ Irq.reset.winner 7 = none := by and_intros <;> decide +kernel

theorem wit_PowerStates :
    let one := withA (fun x => { x with pwr := { x.pwr with state := 1 } })
    let four := withA (fun x => { x with pwr := { x.pwr with state := 4 } })
    let from' (m : Msg) := up.withBlock (up.blk.onHalf .b (fun x => { x with twn := { x.twn with sent := [(0, m)] } }))
    let watch := withA (fun x => { x with pwr := { x.pwr with watching := true } })
    let single := alone (fun x => { x with pwr := { x.pwr with state := 1 } })
    let two := withA (fun x => { x with pwr := { x.pwr with state := 2 } })
    one.blk.linked = true ∧ (one.blk.half .a).pwr.entering = false ∧ (one.blk.half .a).boot.coreLock = true ∧
      single.blk.pair.frozen = false ∧ single.blk.held .a = false ∧ (single.blk.half .a).boot.coreLock = true ∧ single.blk.canPs1 .a = true ∧
      (single.blk.half .a).canPs2 = true ∧ (single.blk.half .a).pwr.state = 1 ∧ single.blk.linked = false ∧
      two.blk.pair.frozen = false ∧ two.blk.held .a = false ∧ (two.blk.half .a).boot.coreLock = true ∧ (two.blk.half .a).pwr.state = 2 ∧
      3 ≤ (two.blk.half .a).pwr.psMax ∧
      up.blk.pair.frozen = false ∧ up.blk.held .a = false ∧ (up.blk.half .a).boot.coreLock = true ∧ (up.blk.half .a).pwr.entering = false ∧
      up.blk.canPs1 .a = true ∧ (up.blk.half .a).pwr.state = 0 ∧ one.blk.held .a = false ∧ one.blk.canPs1 .a = true ∧
      (one.blk.half .a).canPs2 = true ∧ (one.blk.half .a).pwr.state = 1 ∧ (from' (.sleep 2)).blk.incoming .a = some (.sleep 2) ∧
      (from' .awake).blk.incoming .a = some .awake ∧ (from' .wake).blk.incoming .a = some .wake ∧ (four.blk.half .a).pwr.state = 4 ∧
      (up.blk.half .a).pwr.state ≠ 1 ∧ takes up.blk .a = true ∧ one.blk.pair.frozen = false ∧ (watch.blk.half .a).pwr.watching = true ∧
      (up.blk.half .a).arb.dec.held = [] ∧ (up.blk.half .a).arb.dec.reqs = [] := by and_intros <;> decide +kernel

theorem wit_KeyedResets :
    let busy := left .read []
    let blank := stage 6 (fun x => { x with boot := { x.boot with blank := true } })
    let ready := withA (fun x => { x with boot := { x.boot with blank := true } })
    takes ready.blk .a = true ∧ ((ready.blk.taken .a causeRegister).half .a).boot.blank = true ∧
      ((ready.blk.taken .a causeRegister).half .a).boot.stage = 7 ∧ ((up.blk.taken .a causeRegister).half .a).drivesCh 8 = false ∧
      takes up.blk .a = true ∧ (0 : BitVec 16) ≠ resetKey ∧ takes busy.blk .a = true ∧
      ((busy.blk.taken .a causeRegister).half .a).que.ctxs ≠ [] ∧ ((up.blk.taken .a causeRegister).half .a).que.ctxs = [] ∧
      ((up.blk.taken .a causeRegister).half .a).pool.holds = [] ∧ ((up.blk.taken .a causeRegister).half .a).drivesCh 0 = true ∧
      takes blank.blk .a = true ∧ ((blank.blk.taken .a causeRegister).half .a).boot.blank = true ∧
      ((blank.blk.taken .a causeRegister).half .a).boot.stage ≠ 7 ∧ ((up.blk.taken .a causeRegister).half .a).boot.blank = false := by
  and_intros <;> decide +kernel

/-! ### Ill-formed commands, one for each check of WellFormed -/

/-- Nothing that a lost bank held. -/
def noLoss : BankLoss := { holds := [], cws := [], pages := [], rows := [], journal := false, flash := [] }

/-- A find of die `d` of channel `c` on CE_n line `n`. -/
def found (c d n : Nat) : DieFind :=
  { ch := c, die := d, line := n, readId := 0, toggle := true, sdr20 := true, zq := false, cycles := 5, volume := false, ext := none }

/-- The command is refused by the check in BRX-4T. -/
def ill (c : Instr) : Bool := !c.wf .brx4T

theorem test_wf_accepts : Instr.wf .brx4T (.busTask .a 9 1 1) = true ∧ Instr.wf .brx16T (.busTask .a 2 1 1) = true ∧
    Instr.wf .brx4T (.doorbell .a 127 0) = true ∧ Instr.wf .brx4T (.decodeDone .b false 2 true) = true ∧
    Instr.wf .brx4T (.dieDiscovery .a [found 1 7 3] []) = true := by decide +kernel

theorem test_wf_bring_up : ill (.microcodeLoad .a [(16, true, true)] [] [] [] []) ∧ ill (.microcodeLoad .a [] [4] [] [] []) ∧
    ill (.microcodeLoad .a [] [] [3] [] []) ∧ ill (.microcodeLoad .a [] [] [] [1] []) ∧
    ill (.dieDiscovery .a [found 2 0 0] []) ∧ ill (.dieDiscovery .a [found 1 8 0] []) ∧ ill (.dieDiscovery .a [found 1 0 4] []) ∧
    ill (.channelTraining .a 2 [] 0) ∧ ill (.channelTraining .a 1 [{ die := 8, code := 1, lanesRd := [], lanesWr := [] }] 0) ∧
    ill (.channelTraining .a 1 [{ die := 1, code := 15, lanesRd := [], lanesWr := [] }] 0) ∧ ill (.pllLock .a (.phy 2)) ∧
    ill (.pllLockTimeout .a (.phy 2)) ∧ ill (.channelReset .a 2 0 []) ∧
    ill (.channelReset .a 1 0 [found 0 0 0]) := by
  decide +kernel

theorem test_wf_ports : ill (.brownout 256) ∧ ill (.budgetTgl 256) ∧ ill (.debugAccess 0x200000 none) ∧ ill (.debugAccess 2 none) ∧
    ill (.fetch .a 32 1 true) ∧ ill (.fetch .a 64 0 true) ∧ ill (.registerWrite .a 0x100000 0) ∧ ill (.registerWrite .a 2 0) := by
  decide +kernel

theorem test_wf_queues : ill (.doorbell .a 128 0) ∧ ill (.doorbellTakenOver .a 128 0) ∧ ill (.queueDisable .a false 128 true) ∧
    ill (.queueRestart .a true 128) ∧ ill (.entryFetch .a false 128 []) ∧ ill (.fetchError .a false 128 [] false) ∧
    ill (.headerWrite .a false 128) ∧ ill (.headerError .a false 128) ∧ ill (.headerWriteAck .a false 128) := by decide +kernel

theorem test_wf_units : ill (.rebuildSwap .a 4) ∧ ill (.engineFailure .a 4 2 0) ∧ ill (.backgroundEngineFailure .a 4 2 0) ∧
    ill (.backgroundJobEnd .a 4) ∧ ill (.poolBankRetire .a 4 6 noLoss) ∧ ill (.decodeDone .a false 3 true) ∧
    ill (.decodeDone .a true 1 true) ∧ ill (.parityProgram .a 64) := by decide +kernel

theorem test_wf_channels_and_dies : ill (.channelMove .a 2 1) ∧ ill (.busTask .a 2 0 0) ∧ ill (.rbNRise .a 2) ∧ ill (.chnCtlRetrain .a 2) ∧
    ill (.chnCtlQuick .a 2) ∧ ill (.retrainPeriod .a 2) ∧ ill (.schedulerChoice .a 2 0) ∧ ill (.schedulerChoice .a 1 8) ∧ ill (.resume .a 1 8) ∧
    ill (.pollDue .a 1 8) ∧ ill (.lunReady .a 1 8 0) ∧ ill (.suspendReady .a 1 8 0) ∧ ill (.operationTimeout .a 1 8) ∧
    ill (.suspendTimeout .a 1 8) ∧ ill (.suspendGapElapsed .a 1 8) ∧ ill (.marginAlarm .a 1 8 (List.replicate 8 0)) ∧ ill (.marginAlarm .a 1 7 [0]) ∧ ill (.eraseAgeTick .a 1 8) := by
  decide +kernel

theorem test_wf_streams_memories_gutters : ill (.descriptorFetch .a 1 none false) ∧ ill (.dmaBurst .a 1) ∧ ill (.dmaReadReturn .a 1 0 0 false) ∧
    ill (.dmaWriteResponse .a 1 false) ∧ ill (.dmaStreamComplete .a 1) ∧ ill (.dmaStreamDrop .a 1 0) ∧
    ill (.scrubWord .a 5 none .unused noLoss) ∧ ill (.memClr .a 5 0) ∧ ill (.gutRdRead .a 16) ∧ ill (.gutCtlMark .a 16) ∧ ill (.gutCtlRewind .a 16) ∧
    ill (.gutCtlRelease .a 16) ∧ ill (.gutCtlUnstall .a 16) ∧ ill (.gutterTimeout .a 16) ∧ ill (.spillWriteAck .a 16) ∧
    ill (.spillError .a 16) ∧ ill (.gutSprdWrite .a 16 0) := by decide +kernel

theorem test_wf_governors_and_interrupts : ill (.loopSample .a 4) ∧ ill (.loopEnable .a 4 true) ∧ ill (.trcModeWrite .a 4 0) ∧
    ill (.irqFilterPass .a 128) ∧ ill (.irqClaim .a 8) ∧ ill (.irqEoi .a 8 0) ∧ ill (.irqPendSet .a 4 0) ∧ ill (.irqPendClear .a 4 0) ∧
    ill (.irqMaskSet .a 4 0) ∧ ill (.irqMaskClear .a 4 0) := by decide +kernel

/-! ### Single commands -/

/-- What the port of half A answered. -/
def answer (o : Host.Outcome State Fault Refusal) : Option Nat :=
  match o with
  | .next t => some (t.blk.half .a).port.data
  | _ => none

/-- R675: without VDD_AON nothing answers. -/
theorem test_unpowered_stops :
    exec (.doorbell .a 1 0) (withP (fun p => { p with powered := false })) = .fault .unpowered := by rfl

/-- R88: the majority of three samples, with the split bits (of 0b011, 0b101 and 0b110 the low bits give 0b11, neither unanimous). -/
theorem test_peg_majority :
    okay (exec (.pegPhaseEnd .a true) (withA (fun x => { x with boot := { x.boot with samples := [3, 5, 6], latched := false } })))
      (fun b => decide (b.ha.boot.strap &&& 3 = 3) && decide (b.ha.boot.split &&& 3 = 3)) = true := by decide +kernel

/-- R324: a doorbell of 12 new entries where 11 are free stops the queue with DB_OVERFULL, code 7 of R332. -/
theorem test_doorbell_overfull : okay (exec (.doorbell .a 1 0) up) (fun b => (b.ha.que.queue? false 1).any (fun u =>
    decide (u.state = .error) && decide (u.errCause = 7))) = true := by decide +kernel

/-- R329, R333: an entry whose MARK is not 0x50 stops the queue with cause 1. -/
theorem test_entry_without_mark : okay (exec (.entryFetch .a false 1 [0]) up) (fun b => (b.ha.que.queue? false 1).any (fun u =>
    decide (u.state = .error) && decide (u.errCause = 1))) = true := by decide +kernel

/-- R330, R398: an entry that passes takes the number 9, and the counter goes on to 10. -/
theorem test_entry_takes_number : okay (exec (.entryFetch .a false 1 [readEntry]) up) (fun b =>
    decide (b.pair.nextSeq = 10) && (b.ha.ctx? 9).any (fun c => decide (c.opcode = .read))) = true := by decide +kernel

/-- R114, R189: a reservation of 255 of the 512 pages from page 257 makes the unit full. -/
theorem test_reserve_fills :
    okay (exec (.program .a 5) (left .program (progAt 3 255) (setRec 3 (recIn .opened 257 0)))) (fun b =>
      decide ((b.ha.rec? 3).state = .full) && decide ((b.ha.rec? 3).wp = 512)) = true := by decide +kernel

/-- R372, R373: an INVALIDATE of more pages than VALID holds clamps it at zero and frees a full unit. -/
theorem test_invalidate_underflow :
    okay (exec (.invalidate .a 5) (left .invalidate [(20, 8, unitOf 3), (28, 2, 8)] (setRec 3 (recIn .full 512 7)))) (fun b =>
      decide ((b.ha.rec? 3).state = .free) && decide ((b.ha.rec? 3).valid = 0) && b.ha.store.underflow) = true := by decide +kernel

/-- R519: a claim without an eligible source is spurious: 0x03FF0000. -/
theorem test_spurious_claim : answer (exec (.irqClaim .a 7) up) = some 0x03FF0000 := by decide +kernel

/-- R519, R522: of two eligible sources of one PRIO the lower is claimed, and its EOI takes the running priority back. -/
theorem test_claim_and_eoi :
    let src : Src := { Src.reset with prio := 15, mask := false, level := true }
    let i : Irq := { Irq.reset with srcs := [(1, src), (2, src)] }
    ((i.claim 0).src 1).active = some 0 ∧ ((i.claim 0).src 2).active = none ∧ ((i.claim 0).proc 0).run = 15 ∧
      (((i.claim 0).eoi 0 1 1).proc 0).run = 0 ∧ (((i.claim 0).eoi 0 1 2).proc 0).eoiErr = true := by decide +kernel

/-- R478: the word at the read pointer; first the item's length word, of 4 payload bytes (R476). -/
theorem test_gutter_reads_length :
    answer (exec (.gutRdRead .a 15) (withG (fun u => { u with items := [{ num := 0, words := [0x1234], poison := [] }], nextNum := 1 })))
      = some 4 := by decide +kernel

/-- R425: the LFSR's step is never to zero, and a zero written is stored as 1. -/
theorem test_lfsr_zero_written : okay (exec (.arbLfsrWrite .a true 0) up) (fun b => decide (b.ha.arb.dec.lfsrWr = some 1)) = true := by
  decide +kernel

/-- R605: a freeze through a register window answers, and stops both halves. -/
theorem test_freeze_stops_both : okay (exec (.frzCtlFreeze .b false) up) (fun b => b.pair.frozen && !b.coreRuns .a && !b.coreRuns .b &&
    decide (b.pair.frzCause = 2)) = true := by decide +kernel

/-- R35: a lapse drops every enable of the half and of no other. -/
theorem test_lapse_drops_enables : okay (exec (.padEnableLapse .a) up) (fun b =>
    !b.enabled .a 0 && !b.enabled .a 1 && b.enabled .b 8 && b.enabled .b 9) = true := by decide +kernel

/-- R650: MIN_CLR restarts the lowest count of free cells at the present one. -/
theorem test_min_clear : okay (exec (.poolMinClr .a) (withA (fun x => { x with pool := { x.pool with minFree := 0 } }))) (fun b =>
    decide (b.ha.pool.minFree = b.poolFree .a)) = true := by decide +kernel

/-- R99, R101, R103: channel 1, target 0, block 3, page 2, slot 1 spelled bit by bit. -/
theorem test_paddr_bits : addrOf (0b0001_00_00_000_000000000011_000000000010_01 : Paddr) =
    { slot := 1, page := 2, block := 3, plane := 0, lun := 0, target := 0, channel := 1 } := by decide +kernel

/-- A pair still in bring-up at the microcode step, its halves not yet attached. -/
def atMicrocode : State :=
  let back := fun (x : Half) => { x with boot := { x.boot with stage := 3 }, twn := { x.twn with st := .solo } }
  up.withBlock ((up.blk.onHalf .a back).onHalf .b back)

/-- R92, R633, R636: a half without a working hard core halts with cause 4, and its twin takes its home channels and discovers their dies. -/
theorem test_halted_half_leaves_its_channels : okay (exec (.microcodeLoad .a [] [] [0, 1, 2] [] []) atMicrocode) (fun b =>
    decide (b.ha.boot.stage = 15) && decide (b.ha.boot.haltCause = 4) && decide (b.hb.boot.stage = 2) && b.hb.twn.drives.contains 0 &&
      b.enabled .b 0 && !b.enabled .a 0) = true := by decide +kernel

/-- R160: after a thaw a busy LUN's status is read before the tasks that rank above a poll. -/
def polled : State := withK (fun k => { k with
  mustPoll := [0], tasks := [{ kind := .reset, die := 0 }], dies := [(0, { die with op := some (oper .erase .busy) })] })

theorem test_poll_first : ((polled.blk.half .a).chan 0).nextTask (polled.blk.mayTask .a 0) = some { kind := .poll, die := 0 } := by
  decide +kernel

/-- R183: with a period of 0 no periodic retrain is asked. -/
theorem test_no_period : okay (exec (.retrainPeriod .a 0) (withK (fun k => { k with cfg := { k.cfg with periodMs := 0 } })))
    (fun b => ((b.ha.chan 0).tasks).isEmpty) = true := by decide +kernel

end Sys2Proof.Tests
end

section
/-!
PROOFS. The encodings of the storage hierarchy: the record index (R103) and the STATE field of a record's bytes (R111, R112).
-/

namespace Sys2Proof

/-! ### The record index (R103) -/

/-- The largest die and unit reach the last index of the 2^18. -/
theorem recIndex_lt {c d u : Nat} (hc : c < 16) (hd : d < 8) (hu : u < 2048) : recIndex c d u < 2 ^ 18 := by
  unfold recIndex
  omega

@[simp] theorem recCh_recIndex {c d u : Nat} (hd : d < 8) (hu : u < 2048) : recCh (recIndex c d u) = c := by
  unfold recCh recIndex
  omega

/-- The channel's term is a multiple of 16,384, so what remains of it is the die's and the unit's. -/
@[simp] theorem recDie_recIndex {c d u : Nat} (hd : d < 8) (hu : u < 2048) : recDie (recIndex c d u) = d := by
  unfold recDie recIndex
  omega

@[simp] theorem recUnit_recIndex {c d u : Nat} (hu : u < 2048) : recUnit (recIndex c d u) = u := by
  unfold recUnit recIndex
  omega

/-- Settles O11: the index is the formula of R103, and each of its parts is bounded by the weight of the next. -/
theorem recordIndexOfUnit : Obligations.RecordIndexOfUnit := by
  intro c d u hc hd hu
  exact ⟨rfl, recIndex_lt hc hd hu, recCh_recIndex hd hu, recDie_recIndex hd hu, recUnit_recIndex hu⟩

/-! ### The STATE field of a record's bytes (R111, R112) -/

theorem UnitState.code_lt (u : UnitState) : u.code < 7 := by
  cases u <;> decide

/-- A field written above bit 2 adds a multiple of 8, so STATE stands alone in the low three bits. -/
theorem Rec.fieldOf_bytes_state (r : Rec) : fieldOf r.bytes 0 3 = r.state.code := by
  have hcode := r.state.code_lt
  unfold fieldOf Rec.bytes at'
  rw [BitVec.toNat_ofNat]
  omega

/-- Settles O12: bits [2:0] hold the state's code, and every code is below 0b111. -/
theorem stateCodesOfRecords : Obligations.StateCodesOfRecords := by
  refine ⟨fun r => ?_, fun r => ?_⟩
  · rw [Rec.fieldOf_bytes_state]
    cases r.state <;> rfl
  · rw [Rec.fieldOf_bytes_state]
    exact (r.state.code_lt).ne

end Sys2Proof
end

section
/-!
PROOFS. Doorbells to a stopped queue (R334), with what an access through an open target port does, and that no access changes the configuration (R57).
-/

namespace Sys2Proof.Machine

open Sys2Proof

/-! ### The configuration stands while a half wakes -/

theorem Block.variant_of_core {b c : Block} (hc : b.core = c.core) : b.variant = c.variant := congrArg Prod.fst hc

@[simp] theorem Block.send_variant (b : Block) (h : HalfId) (m : Msg) : (b.send h m).variant = b.variant :=
  Block.variant_of_core (Block.send_core b h m)

@[simp] theorem Block.raise_variant (b : Block) (h : HalfId) (n : Nat) : (b.raise h n).variant = b.variant :=
  Block.variant_of_core (Block.raise_core b h n)

@[simp] theorem Block.notePool_variant (b : Block) (h : HalfId) : (b.notePool h).variant = b.variant :=
  Block.variant_of_core (Block.notePool_core b h)

@[simp] theorem Block.settlePads_variant (b : Block) (l : List Nat) : (b.settlePads l).variant = b.variant :=
  Block.variant_of_core (Block.settlePads_core b l)

@[simp] theorem Block.respond_variant (b : Block) (h : HalfId) (r : Resp) : (b.respond h r).variant = b.variant :=
  Block.variant_of_core (Block.respond_core b h r)

/-- An enable taken changes the block's core, but not its configuration. -/
@[simp] theorem Block.takeEnable_variant (b : Block) (h : HalfId) (c : Nat) : (b.takeEnable h c).variant = b.variant := by
  unfold Block.takeEnable
  split
  · rfl
  · split
    · rfl
    · simp

theorem Block.each_variant {α : Type} (f : Block → α → Block) (hf : ∀ a e, (f a e).variant = a.variant) (l : List α) (b : Block) :
    (b.each l f).variant = b.variant := by
  induction l generalizing b with
  | nil => rfl
  | cons e l ih => exact (ih (f b e)).trans (hf b e)

@[simp] theorem Block.takeAll_variant (b : Block) (h : HalfId) : (b.takeAll h).variant = b.variant :=
  Block.each_variant _ (fun a c => Block.takeEnable_variant a h c) _ b

/-- From every power state: what a wake does to the half, its enables and the link are operations that leave the configuration alone. -/
@[simp] theorem Block.wakeOne_variant (b : Block) (h : HalfId) (cause : Nat) : (b.wakeOne h cause).variant = b.variant := by
  unfold Block.wakeOne
  simp [apply_ite Block.variant]

@[simp] theorem Block.wake_variant (b : Block) (h : HalfId) (cause : Nat) : (b.wake h cause).variant = b.variant := by
  unfold Block.wake
  split
  · rfl
  · split <;> simp

@[simp] theorem Block.taken_variant (b : Block) (h : HalfId) (cause : Nat) : (b.taken h cause).variant = b.variant := by
  simp [Block.taken]

/-! ### An access through an open target port (R57) -/

/-- Where the target port takes accesses, a command through it is its effect on the block with the half awake. -/
theorem portRun_of_takes {s : State} {h : HalfId} (ht : s.blk.Takes h) (cause : Nat) (i : Instr) (f : Block → Block) :
    portRun h cause i f s = .next (s.withBlock (f (s.blk.taken h cause))) := by
  obtain ⟨halive, hfrozen, hheld⟩ := ht
  simp [portRun, Block.access, halive, hfrozen, hheld, State.withBlock, Block.taken]

/-- Both doorbell commands are one operation of the block, told whether the queue is an adopted one (R323, R348). -/
theorem exec_doorbell_of_takes {s : State} {h : HalfId} (ht : s.blk.Takes h) (ad : Bool) (q : Nat) (value : Word) :
    exec (if ad then .doorbellTakenOver h q value else .doorbell h q value) s =
      .next (s.withBlock ((s.blk.taken h causeDoorbell).doorbell h ad q (value.field 0 16))) := by
  cases ad
  · exact portRun_of_takes ht causeDoorbell (.doorbell h q value) _
  · exact portRun_of_takes ht causeDoorbell (.doorbellTakenOver h q value) _

/-! ### Doorbells to a stopped queue (R334) -/

/-- A live queue with a ring that stands in the error state takes no tail: it notes the doorbell alone. -/
theorem Block.doorbell_of_error {b : Block} {h : HalfId} {ad : Bool} {q : Nat} {u : Queue} (hq : q < Config.queues b.variant)
    (htakes : (b.half h).takesDoorbells = true) (hu : (b.half h).que.queue? ad q = some u) (hsize : u.size ≠ 0) (hlive : u.live = true)
    (herr : u.state = .error) (t : Nat) :
    b.doorbell h ad q t = b.onHalf h (fun x => x.onQueue ad q (fun u => { u with dbIgnored := true })) := by
  simp [Block.doorbell, Nat.not_le.mpr hq, htakes, hu, hsize, hlive, herr]

/-- Settles O30: of the half's own queues and of the adopted ones, the tail written does not matter. -/
theorem doorbellOfAStoppedQueue : Obligations.DoorbellOfAStoppedQueue := by
  intro h ad q value u s ht hq b htakes hu hsize hlive herr
  have hqb : q < Config.queues b.variant := by simpa [b] using hq
  rw [exec_doorbell_of_takes ht, Block.doorbell_of_error hqb htakes hu hsize hlive herr]

end Sys2Proof.Machine
end

section
/-!
PROOFS. The range-lock table's modes and conflicts (R405, R406).
-/

namespace Sys2Proof.Machine

open Sys2Proof

/-- R405's list of shared opcodes. -/
theorem Opcode.shared_iff (o : Opcode) : o.shared = true ↔ (o = .read ∨ o = .readRaw ∨ o = .patrol ∨ o = .blankCheck) := by
  cases o <;> simp [Opcode.shared]

@[simp] theorem lockOf_excl (seq : Nat) (e : Entry) (o : Opcode) (own : Bool) : (lockOf seq e o own).excl = !o.shared := rfl

/-- R406, with the overlap of the half-open keys as the two comparisons of their ends. -/
theorem Lock.conflicts_iff (p q : Lock) : p.conflicts q = true ↔
    ((p.excl = true ∨ q.excl = true) ∧ p.start < q.start + q.len ∧ q.start < p.start + p.len) := by
  simp only [Lock.conflicts, Bool.and_eq_true, Bool.or_eq_true, decide_eq_true_eq, and_assoc]

/-- Settles O14: an entry is exclusive unless its opcode is shared, and only the four opcodes of R405 are. -/
theorem rangeLockConflicts : Obligations.RangeLockConflicts := by
  refine ⟨fun seq e o own => ?_, Lock.conflicts_iff⟩
  rw [lockOf_excl, Bool.not_eq_false', Opcode.shared_iff]

end Sys2Proof.Machine
end

section
/-!
PROOFS. The LFSRs of the arbiter: a write, the boundary that takes it, and the step (R420, R425).
-/

namespace Sys2Proof.Machine

open Sys2Proof

/-! ### A write (R425) -/

/-- The low bits of a register word, as a narrower vector. -/
theorem Word.ofNat_field_zero (w : Word) (n : Nat) : BitVec.ofNat n (w.field 0 n) = w.setWidth n := by
  apply BitVec.eq_of_toNat_eq
  simp [Word.field]

theorem ArbCls.setLfsr_eq (c : ArbCls) (w : Word) :
    c.setLfsr w = { c with lfsrWr := some (if w.setWidth 23 = 0 then 1 else w.setWidth 23) } := by
  simp only [ArbCls.setLfsr, Word.ofNat_field_zero]

/-- Through an open target port, of either class. -/
theorem exec_arbLfsrWrite_of_takes {s : State} {h : HalfId} (ht : s.blk.Takes h) (dec : Bool) (value : Word) :
    exec (.arbLfsrWrite h dec value) s =
      .next (s.withBlock ((s.blk.taken h causeRegister).onHalf h (fun x => x.onArb (fun a => a.writeLfsr dec value)))) :=
  portRun_of_takes ht causeRegister (.arbLfsrWrite h dec value) _

/-! ### A boundary (R420, R425) -/

@[simp] theorem ArbCls.applyPend_lfsr (c : ArbCls) : c.applyPend.lfsr = c.lfsr := by
  unfold ArbCls.applyPend
  split <;> rfl

@[simp] theorem ArbCls.applyPend_lfsrWr (c : ArbCls) : c.applyPend.lfsrWr = c.lfsrWr := by
  unfold ArbCls.applyPend
  split <;> rfl

/-- The step of a boundary starts from the written state where one waits, from the state in force otherwise. -/
theorem ArbCls.boundary_lfsr (c : ArbCls) : c.boundary.lfsr = lfsrStep (c.lfsrWr.getD c.lfsr) := by
  unfold ArbCls.boundary
  cases hw : c.lfsrWr <;> simp

@[simp] theorem ArbCls.boundary_lfsrWr (c : ArbCls) : c.boundary.lfsrWr = none := by
  unfold ArbCls.boundary
  cases hw : c.lfsrWr <;> simp [hw]

/-! ### A step (R420) -/

/-- The generator's two taps give the bit shifted in. -/
theorem lfsrStep_getLsbD_zero (v : BitVec 23) : (lfsrStep v).getLsbD 0 = (v.getLsbD 22 ^^ v.getLsbD 17) := by
  unfold lfsrStep
  cases v.getLsbD 22 ^^ v.getLsbD 17 <;> simp [bitOf]

/-- Every other bit is its lower neighbour, shifted up. -/
theorem lfsrStep_getLsbD_succ (v : BitVec 23) {i : Nat} (hi : i < 22) : (lfsrStep v).getLsbD (i + 1) = v.getLsbD i := by
  unfold lfsrStep
  have hlt : i + 1 < 23 := by omega
  cases v.getLsbD 22 ^^ v.getLsbD 17 <;> simp [bitOf, hlt, BitVec.getLsbD_eq_getElem (show i < 23 by omega)]

/-- A step to zero starts from zero: the bits shifted up were 0, so bit 17 was, and then bit 22 alone gave the bit shifted in. -/
theorem eq_zero_of_lfsrStep_eq_zero {v : BitVec 23} (h : lfsrStep v = 0#23) : v = 0#23 := by
  have hlow : ∀ i, i < 22 → v.getLsbD i = false := fun i hi => by
    rw [← lfsrStep_getLsbD_succ v hi, h, BitVec.getLsbD_zero]
  have htop : v.getLsbD 22 = false := by
    have htaps := lfsrStep_getLsbD_zero v
    rw [h, hlow 17 (by omega), BitVec.getLsbD_zero, Bool.xor_false] at htaps
    exact htaps.symm
  apply BitVec.eq_of_getLsbD_eq
  intro i hi
  rw [BitVec.getLsbD_zero]
  obtain hi | rfl : i < 22 ∨ i = 22 := by omega
  · exact hlow i hi
  · exact htop

/-- Settles O53: the write and the boundary that takes it are R425's, the boundary without a write is R420's, and a step reaches zero only from zero. -/
theorem lfsrWrites : Obligations.LfsrWrites := by
  refine ⟨fun h value s ht => ⟨?_, ?_⟩, fun c v hw => ⟨?_, c.boundary_lfsrWr⟩, fun c hw => ?_, fun v hv => ?_⟩
  · simp only [exec_arbLfsrWrite_of_takes ht, Arb.writeLfsr, ArbCls.setLfsr_eq, Bool.false_eq_true, if_false]
  · simp only [exec_arbLfsrWrite_of_takes ht, Arb.writeLfsr, ArbCls.setLfsr_eq, if_true]
  · rw [c.boundary_lfsr, hw, Option.getD_some]
  · rw [c.boundary_lfsr, hw, Option.getD_none]
  · exact mt eq_zero_of_lfsrStep_eq_zero hv

end Sys2Proof.Machine
end

section
/-!
PROOFS. The interrupt concentrator: which sources a processor may be given (R515, R516).
-/

namespace Sys2Proof.Machine

open Sys2Proof

/-- R516's five conditions, for any contents of the source. -/
theorem Irq.eligible_iff (i : Irq) (n : Nat) (x : Src) (k : Nat) : i.eligible n x k = true ↔
    (x.pending n = true ∧ x.mask = false ∧ x.active = none ∧ x.target.getLsbD k = true ∧ (i.proc k).run < x.prio) := by
  simp only [Irq.eligible, Bool.and_eq_true, Bool.not_eq_true', Option.isNone_iff_eq_none, decide_eq_true_eq, and_assoc]

/-- Settles O13: R516 at the contents the concentrator holds for the source. -/
theorem eligibleSources : Obligations.EligibleSources :=
  fun i n k => i.eligible_iff n (i.src n) k

end Sys2Proof.Machine
end

section
/-!
PROOFS. What begins a freeze, and when a request for one is ignored (R78, R98, R605, R607).
-/

namespace Sys2Proof.Machine

open Sys2Proof

/-! ### What leaves the shared state alone -/

@[simp] theorem Block.send_pair (b : Block) (h : HalfId) (m : Msg) : (b.send h m).pair = b.pair := by
  unfold Block.send
  split <;> simp

@[simp] theorem Block.raise_pair (b : Block) (h : HalfId) (n : Nat) : (b.raise h n).pair = b.pair := by
  unfold Block.raise
  split <;> simp

@[simp] theorem Block.notePool_pair (b : Block) (h : HalfId) : (b.notePool h).pair = b.pair :=
  Block.onHalf_pair b h _

@[simp] theorem Block.settlePads_half (b : Block) (l : List Nat) (k : HalfId) : (b.settlePads l).half k = b.half k :=
  Block.onPair_half b _ k

/-- Each pad ring that settles changes the pad rings alone. -/
theorem Block.settlePads_pair (b : Block) (l : List Nat) : ∃ pads : Tab PadRing, (b.settlePads l).pair = { b.pair with pads := pads } := by
  refine List.foldlRecOn (motive := fun p => ∃ pads : Tab PadRing, p = { b.pair with pads := pads }) l _ ⟨b.pair.pads, rfl⟩ ?_
  rintro _ ⟨pads, rfl⟩ c -
  exact ⟨_, rfl⟩

/-! ### Whether a request to freeze is heard (R78, R607) -/

/-- A request to freeze is heard: no freeze is active and no brown-out is latched (R78, R607). -/
def Pair.hearsFreeze (p : Pair) : Bool := !p.frozen && !p.latched

theorem Pair.hearsFreeze_iff {p : Pair} : p.hearsFreeze = true ↔ p.frozen = false ∧ p.latched = false := by
  simp [Pair.hearsFreeze]

theorem Pair.hearsFreeze_eq_false_iff {p : Pair} : p.hearsFreeze = false ↔ p.frozen = true ∨ p.latched = true := by
  cases hf : p.frozen <;> simp [Pair.hearsFreeze, hf]

theorem Block.askFreeze_of_hears {b : Block} (hb : b.pair.hearsFreeze = true) (cause : Nat) : b.askFreeze cause = b.freeze cause := by
  obtain ⟨hf, hl⟩ := Pair.hearsFreeze_iff.mp hb
  simp [Block.askFreeze, hf, hl]

theorem Block.askFreeze_of_not_hears {b : Block} (hb : b.pair.hearsFreeze = false) (cause : Nat) : b.askFreeze cause = b := by
  unfold Block.askFreeze
  rw [if_pos (by simpa using Pair.hearsFreeze_eq_false_iff.mp hb)]

@[simp] theorem Block.settlePads_hearsFreeze (b : Block) (l : List Nat) : (b.settlePads l).pair.hearsFreeze = b.pair.hearsFreeze := by
  obtain ⟨pads, hp⟩ := b.settlePads_pair l
  rw [hp]
  rfl

@[simp] theorem Block.dbgRespond_hearsFreeze (b : Block) (r : Resp) : (b.dbgRespond r).pair.hearsFreeze = b.pair.hearsFreeze := rfl

/-- An enable taken changes the interlock, the pads and the run phase alone. -/
@[simp] theorem Block.takeEnable_hearsFreeze (b : Block) (h : HalfId) (c : Nat) :
    (b.takeEnable h c).pair.hearsFreeze = b.pair.hearsFreeze := by
  unfold Block.takeEnable
  split
  · rfl
  · split
    · rfl
    · rw [Block.notePool_pair, Block.onHalf_pair, Block.settlePads_hearsFreeze]
      rfl

@[simp] theorem Block.takeAll_hearsFreeze (b : Block) (h : HalfId) : (b.takeAll h).pair.hearsFreeze = b.pair.hearsFreeze :=
  List.foldlRecOn (motive := fun a : Block => a.pair.hearsFreeze = b.pair.hearsFreeze) _ _ rfl
    (fun a ha c _ => (a.takeEnable_hearsFreeze h c).trans ha)

/-- From every power state: of the shared state a wake takes enables and the power budget. -/
@[simp] theorem Block.wakeOne_hearsFreeze (b : Block) (h : HalfId) (cause : Nat) :
    (b.wakeOne h cause).pair.hearsFreeze = b.pair.hearsFreeze := by
  have hbudget : ∀ p : Pair, ({ p with budget := p.budgetIn } : Pair).hearsFreeze = p.hearsFreeze := fun _ => rfl
  unfold Block.wakeOne
  simp [apply_ite Block.pair, apply_ite Pair.hearsFreeze, hbudget]

@[simp] theorem Block.wake_hearsFreeze (b : Block) (h : HalfId) (cause : Nat) : (b.wake h cause).pair.hearsFreeze = b.pair.hearsFreeze := by
  unfold Block.wake
  split
  · rfl
  · split <;> simp

@[simp] theorem Block.taken_hearsFreeze (b : Block) (h : HalfId) (cause : Nat) : (b.taken h cause).pair.hearsFreeze = b.pair.hearsFreeze := by
  simp [Block.taken, Block.respond]

/-! ### What a freeze does (R605, R606) -/

theorem Block.coreRuns_of_frozen {b : Block} (hb : b.pair.frozen = true) (k : HalfId) : b.coreRuns k = false := by
  simp [Block.coreRuns, hb]

/-- Of the shared state a freeze changes its own registers and the pads. -/
theorem Block.freeze_pair (b : Block) (cause : Nat) : ∃ pads : Tab PadRing, (b.freeze cause).pair =
    { b.pair with frozen := true, frzPend := false, frzCause := cause, frzTicks := 0,
                  frzCount := satAdd 65535 b.pair.frzCount 1, pads := pads } := by
  unfold Block.freeze
  simp only [Block.onHalf_pair]
  exact Block.settlePads_pair _ _

@[simp] theorem Block.freeze_frozen (b : Block) (cause : Nat) : (b.freeze cause).pair.frozen = true := by
  obtain ⟨pads, hp⟩ := b.freeze_pair cause
  rw [hp]

@[simp] theorem Block.freeze_frzCause (b : Block) (cause : Nat) : (b.freeze cause).pair.frzCause = cause := by
  obtain ⟨pads, hp⟩ := b.freeze_pair cause
  rw [hp]

/-- A response given before the stop stands through it. -/
@[simp] theorem Block.freeze_port (b : Block) (cause : Nat) (k : HalfId) : ((b.freeze cause).half k).port = (b.half k).port := by
  simp only [Block.freeze, Block.half_onHalf_iff, Block.settlePads_half, Block.onPair_half]
  cases k <;> rfl

/-- The clocks of both halves stop. -/
theorem Block.coreRuns_freeze (b : Block) (cause : Nat) (k : HalfId) : (b.freeze cause).coreRuns k = false :=
  Block.coreRuns_of_frozen (b.freeze_frozen cause) k

/-- What each of the three events comes to: the pair frozen with the event's cause, both halves stopped, and no command put in the queue. -/
theorem State.withBlock_freeze (s : State) (b : Block) (cause : Nat) :
    (s.withBlock (b.freeze cause)).pending = s.pending ∧ (s.withBlock (b.freeze cause)).blk.pair.frozen = true ∧
      (s.withBlock (b.freeze cause)).blk.pair.frzCause = cause ∧ ∀ k, (s.withBlock (b.freeze cause)).blk.coreRuns k = false :=
  ⟨rfl, b.freeze_frozen cause, b.freeze_frzCause cause, b.coreRuns_freeze cause⟩

@[simp] theorem Block.taken_port (b : Block) (h : HalfId) (cause : Nat) : ((b.taken h cause).half h).port = Resp.value 0 := by
  simp [Block.taken, Block.respond]

/-! ### The ports, frozen and not (R58, R615) -/

theorem Block.wake_of_frozen {b : Block} (hb : b.pair.frozen = true) (h : HalfId) (cause : Nat) : b.wake h cause = b := by
  simp [Block.wake, hb]

/-- Freeze keeps an access waiting at the target port (R58). -/
theorem portRun_of_frozen {s : State} {h : HalfId} (halive : s.blk.alive h = true) (hheld : s.blk.held h = false)
    (hf : s.blk.pair.frozen = true) (cause : Nat) (i : Instr) (f : Block → Block) :
    portRun h cause i f s = .next (s.withBlock (s.blk.wait h true i)) := by
  simp [portRun, Block.access, halive, hheld, hf, State.withBlock]

theorem dbgRun_of_alive {s : State} {h : HalfId} (halive : s.blk.alive h = true) (f : Block → Block) :
    dbgRun h f s = .next (s.withBlock (f ((s.blk.wake h causeRegister).dbgRespond (Resp.value 0)))) := by
  simp [dbgRun, halive, State.withBlock]

/-! ### The three events (R605) -/

theorem exec_frzReq (s : State) : exec .frzReq s = execFrzReq s := rfl

theorem exec_frzReq_of_parked {s : State} (hp : s.blk.pair.phase = .parked) :
    exec .frzReq s = .next (s.withBlock (s.blk.askFreeze 1)) := by
  simp [exec_frzReq, execFrzReq, hp, State.withBlock]

/-- An edge during reset or the peg phase waits (R98). -/
theorem exec_frzReq_of_not_parked {s : State} (hp : s.blk.pair.phase ≠ .parked) (hb : s.blk.pair.hearsFreeze = true) :
    exec .frzReq s = .next (s.withBlock (s.blk.onPair (fun p => { p with frzPend := true }))) := by
  obtain ⟨hf, hl⟩ := Pair.hearsFreeze_iff.mp hb
  simp [exec_frzReq, execFrzReq, hp, hf, hl, State.withBlock]

/-- In every phase of the pins. -/
theorem exec_frzReq_of_frozen {s : State} (hf : s.blk.pair.frozen = true) : exec .frzReq s = .next s := by
  simp [exec_frzReq, execFrzReq, Block.askFreeze, hf]

theorem exec_frzCtlFreeze_of_takes {s : State} {h : HalfId} (ht : s.blk.Takes h) :
    exec (.frzCtlFreeze h false) s = .next (s.withBlock ((s.blk.taken h causeRegister).askFreeze 2)) :=
  portRun_of_takes ht causeRegister (.frzCtlFreeze h false) (fun b => b.askFreeze 2)

theorem exec_frzCtlFreeze_debug_of_alive {s : State} {h : HalfId} (halive : s.blk.alive h = true) :
    exec (.frzCtlFreeze h true) s =
      .next (s.withBlock (((s.blk.wake h causeRegister).dbgRespond (Resp.value 0)).askFreeze 3)) :=
  dbgRun_of_alive halive (fun b => b.askFreeze 3)

/-- Settles O23: each event comes to the operation freeze with its cause; the half that takes the write wakes and answers first. -/
theorem freezeBegins : Obligations.FreezeBegins := by
  intro s hf hl
  have hb : s.blk.pair.hearsFreeze = true := Pair.hearsFreeze_iff.mpr ⟨hf, hl⟩
  refine ⟨fun hp => ?edge, fun hp => exec_frzReq_of_not_parked hp hb, fun h ht => ?window, fun h halive => ?debug⟩
  case edge =>
    rw [exec_frzReq_of_parked hp, Block.askFreeze_of_hears hb]
    exact ⟨_, rfl, State.withBlock_freeze _ _ _⟩
  case window =>
    rw [exec_frzCtlFreeze_of_takes ht, Block.askFreeze_of_hears (by rwa [Block.taken_hearsFreeze])]
    obtain ⟨hpending, hfrozen, hcause, hstop⟩ := s.withBlock_freeze (s.blk.taken h causeRegister) 2
    exact ⟨_, rfl, hpending, hfrozen, hcause, (Block.freeze_port _ _ _).trans (Block.taken_port _ _ _), hstop⟩
  case debug =>
    rw [exec_frzCtlFreeze_debug_of_alive halive, Block.askFreeze_of_hears (by simpa using hb)]
    exact ⟨_, rfl, State.withBlock_freeze _ _ _⟩

/-! ### Requests that are ignored (R78, R607) -/

/-- Through the debug access port an ignored FREEZE write wakes its half and is answered, as any access there. -/
theorem exec_frzCtlFreeze_debug_of_not_hears {s : State} {h : HalfId} (halive : s.blk.alive h = true)
    (hb : s.blk.pair.hearsFreeze = false) :
    exec (.frzCtlFreeze h true) s = .next (s.withBlock ((s.blk.wake h causeRegister).dbgRespond (Resp.value 0))) := by
  rw [exec_frzCtlFreeze_debug_of_alive halive, Block.askFreeze_of_not_hears (by simpa using hb)]

/-- A FREEZE write that waited arrived during the freeze: taken at last, it is an access and no more (R607). -/
theorem Block.perform_frzCtlFreeze_of_takes {b : Block} {h : HalfId} (ht : b.Takes h) :
    b.perform (.frzCtlFreeze h false) = b.taken h causeRegister := by
  have hm : heldMeaning (.frzCtlFreeze h false) { blk := b, pending := [] } =
      .next (({ blk := b, pending := [] } : State).withBlock (b.taken h causeRegister)) :=
    portRun_of_takes (s := { blk := b, pending := [] }) ht causeRegister (.frzCtlFreeze h false) id
  simp [Block.perform, hm, State.withBlock]

/-- Settles O24: frozen or with a brown-out latched the pair hears no request, and a frozen half does not wake either. -/
theorem freezeIsNotTakenTwice : Obligations.FreezeIsNotTakenTwice := by
  intro s halive
  refine ⟨fun hf => ⟨exec_frzReq_of_frozen hf, fun h hheld => ?window, fun h => ?debug⟩,
    fun h ht => Block.perform_frzCtlFreeze_of_takes ht, fun hl _ h => ?latched⟩
  case window => exact portRun_of_frozen (halive h) hheld hf causeRegister (.frzCtlFreeze h false) _
  case debug =>
    rw [exec_frzCtlFreeze_debug_of_not_hears (halive h) (Pair.hearsFreeze_eq_false_iff.mpr (.inl hf)), Block.wake_of_frozen hf]
    rfl
  case latched => exact exec_frzCtlFreeze_debug_of_not_hears (halive h) (Pair.hearsFreeze_eq_false_iff.mpr (.inr hl))

end Sys2Proof.Machine
end

section
/-!
PROOFS. The queue of commands and the ports: how each command reaches the block, and what follows for every one of them (R54, R57, R58, R615, R675).
-/

namespace Sys2Proof.Machine

open Sys2Proof

/-! ### How a command reaches the block -/

/-- The block after a command that stops nowhere, whatever commands wait. -/
def effectOf (c : Instr) (b : Block) : Block :=
  match exec c { blk := b, pending := [] } with
  | .next t => t.blk
  | _ => b

/-- The one way by which a command reaches the block: through a target port, through the debug access port, as a response to a master port, or as an event. -/
inductive Reaches (c : Instr) : Prop
  | port (h : HalfId) (cause : Nat) (f : Block → Block) (hport : accessOf c = some (h, cause)) (hresp : responseOf c = none)
      (heq : ∀ s, exec c s = portRun h cause c f s)
  | debug (h : HalfId) (f : Block → Block) (hport : accessOf c = none) (hdbg : onDebug c = true) (hresp : responseOf c = none)
      (heq : ∀ s, exec c s = if s.blk.alive h then run f s else .fault .unpowered)
  | response (h : HalfId) (f : Block → Block) (hport : accessOf c = none) (hresp : responseOf c = some h)
      (heq : ∀ s, exec c s = masterRun h c f s)
  | event (hport : accessOf c = none) (hresp : responseOf c = none) (heq : ∀ s, exec c s = run (effectOf c) s)

/-- Every command of the table, by the form of its meaning; the four commands of FRZ reach the block through either port. -/
theorem reaches (c : Instr) : Reaches c := by
  cases c with
  | frzCtlFreeze h dbg | frzCtlThaw h dbg | frzRoCtlWrite h dbg | frzRoDataRead h dbg =>
    cases dbg
    · exact .port _ _ _ rfl rfl (fun _ => rfl)
    · exact .debug _ _ rfl rfl rfl (fun _ => rfl)
  | debugAccess => exact .debug _ _ rfl rfl rfl (fun _ => rfl)
  | targetAccessOutside | fetch | registerWrite | doorbell | doorbellTakenOver | queueDisable | queueRestart | adminQueueConfig | queSeqRead |
  twnCtlYield | twnCtlSelftest | arbCommitGo | arbLfsrWrite | dmaStreamDrop | memInitFill | memClr | gutRdRead | gutCtlMark | gutCtlRewind |
  gutCtlRelease | gutCtlUnstall | gutSprdWrite | loopEnable | loopCommitGo | trcModeWrite | loopTrcSelWrite | irqClaim | irqEoi | irqPendSet |
  irqPendClear | irqMaskSet | irqMaskClear | irqCommitGo | rgnCommitGo | rgnLineFlush | recIndexWrite | recAgeWrite | decRandSeedWrite | chnCtlRetrain
  | chnCtlQuick | pwrCtlWake | warmReset | channelReset | format | poolMinClr => exact .port _ _ _ rfl rfl (fun _ => rfl)
  | entryFetch | fetchError | replyAck | replyError | headerError | descriptorFetch | dmaReadReturn | dmaWriteResponse | spillWriteAck | spillError |
  headerWriteAck | fenceReadReturn => exact .response _ _ rfl rfl (fun _ => by delta exec; rfl)
  | _ => exact .event rfl rfl (fun _ => rfl)

/-! ### The queue of waiting commands -/

theorem run_pending {f : Block → Block} {s t : State} (he : run f s = .next t) : t.pending = s.pending := by
  cases he
  rfl

/-- Settles O2: each way to the block ends in a change of the block alone, or in the stop that has no next state. -/
theorem commandsLeaveTheQueue : Obligations.CommandsLeaveTheQueue := by
  intro c s t he
  cases reaches c with
  | port h cause f _ _ heq =>
    rw [heq, portRun] at he
    split at he
    · exact run_pending he
    · cases he
  | debug h f _ _ _ heq =>
    rw [heq] at he
    split at he
    · exact run_pending he
    · cases he
  | response h f _ _ heq => exact run_pending ((heq s).symm.trans he)
  | event _ _ heq => exact run_pending ((heq s).symm.trans he)

/-- Settles O3: the one stop is that of an access to a half without supply. -/
theorem poweredPairNeverStops : Obligations.PoweredPairNeverStops := by
  intro c s hs
  cases reaches c with
  | port h cause f hport _ heq =>
    obtain halive | ⟨hnone, -⟩ := hs
    · exact ⟨_, (heq s).trans (if_pos (halive h))⟩
    · rw [hport] at hnone
      cases hnone
  | debug h f _ hdbg _ heq =>
    obtain halive | ⟨-, hfalse⟩ := hs
    · exact ⟨_, (heq s).trans (if_pos (halive h))⟩
    · rw [hdbg] at hfalse
      cases hfalse
  | response h f _ _ heq => exact ⟨_, heq s⟩
  | event _ _ heq => exact ⟨_, heq s⟩

/-! ### Accesses without effect (R54, R58, R675) -/

theorem portRun_of_dead {s : State} {h : HalfId} (halive : s.blk.alive h = false) (cause : Nat) (i : Instr) (f : Block → Block) :
    portRun h cause i f s = .fault .unpowered := by
  simp [portRun, halive]

theorem portRun_of_held {s : State} {h : HalfId} (halive : s.blk.alive h = true) (hheld : s.blk.held h = true) (cause : Nat) (i : Instr)
    (f : Block → Block) : portRun h cause i f s = .next (s.withBlock (s.blk.respond h Resp.error)) := by
  simp [portRun, Block.access, halive, hheld, State.withBlock]

theorem masterRun_of_frozen {s : State} (hf : s.blk.pair.frozen = true) (h : HalfId) (i : Instr) (f : Block → Block) :
    masterRun h i f s = .next (s.withBlock (s.blk.wait h false i)) := by
  simp [masterRun, hf, State.withBlock]

/-- A command that names a target port is run through that port. -/
theorem exec_of_accessOf {c : Instr} {h : HalfId} {cause : Nat} (hc : accessOf c = some (h, cause)) :
    ∃ f, ∀ s, exec c s = portRun h cause c f s := by
  cases reaches c with
  | port h' cause' f hport _ heq =>
    rw [hport] at hc
    cases hc
    exact ⟨f, heq⟩
  | debug h' f hport | response h' f hport | event hport =>
    rw [hport] at hc
    cases hc

/-- A command that answers a master port is run as a response there. -/
theorem exec_of_responseOf {c : Instr} {h : HalfId} (hc : responseOf c = some h) : ∃ f, ∀ s, exec c s = masterRun h c f s := by
  cases reaches c with
  | response h' f _ hresp heq =>
    rw [hresp] at hc
    cases hc
    exact ⟨f, heq⟩
  | port h' cause' f _ hresp | debug h' f _ _ hresp | event _ hresp =>
    rw [hresp] at hc
    cases hc

/-- Settles O4: by what the port finds before the command's own effect. -/
theorem accessesWithoutEffect : Obligations.AccessesWithoutEffect := by
  refine ⟨fun c h cause s hc => ?_, fun c h s hc hf => ?_⟩
  · obtain ⟨f, heq⟩ := exec_of_accessOf hc
    rw [heq]
    exact ⟨fun halive => portRun_of_dead halive cause c f, fun halive hheld => portRun_of_held halive hheld cause c f,
      fun halive hheld hf => portRun_of_frozen halive hheld hf cause c f⟩
  · obtain ⟨f, heq⟩ := exec_of_responseOf hc
    rw [heq]
    exact masterRun_of_frozen hf h c f

/-- Settles O1: the two cases of the queue. -/
theorem stepRunsFrontCommand : Obligations.StepRunsFrontCommand :=
  ⟨fun _ _ _ => rfl, fun s hs => by rw [step, hs]⟩

end Sys2Proof.Machine
end

section
/-!
PROOFS. Every step keeps the invariant: each command's effect keeps `CoreOk`, by the operations it is made of (R34, R548, R640).
-/

namespace Sys2Proof.Machine

open Sys2Proof

variable {v0 : Variant} {fin : Bool} {s t : State}

/-! ### An outcome by the form of its meaning -/

theorem ok_of_run {o : Host.Outcome State Fault Refusal} {f : Block → Block} (ho : o = run f s)
    (hf : ∀ b, CoreOk v0 fin b.core → CoreOk v0 fin (f b).core) (hs : CoreOk v0 fin s.blk.core) (he : o = .next t) :
    CoreOk v0 fin t.blk.core := run_ok hf hs (ho.symm.trans he)

theorem ok_of_port {o : Host.Outcome State Fault Refusal} {h : HalfId} {cause : Nat} {i : Instr} {f : Block → Block}
    (ho : o = portRun h cause i f s) (hf : ∀ b, CoreOk v0 fin b.core → CoreOk v0 fin (f b).core) (hs : CoreOk v0 fin s.blk.core)
    (he : o = .next t) : CoreOk v0 fin t.blk.core := portRun_ok hf hs (ho.symm.trans he)

theorem ok_of_response {o : Host.Outcome State Fault Refusal} {h : HalfId} {i : Instr} {f : Block → Block}
    (ho : o = masterRun h i f s) (hf : ∀ b, CoreOk v0 fin b.core → CoreOk v0 fin (f b).core) (hs : CoreOk v0 fin s.blk.core)
    (he : o = .next t) : CoreOk v0 fin t.blk.core := masterRun_ok hf hs (ho.symm.trans he)

theorem ok_of_left {o : Host.Outcome State Fault Refusal} {h : HalfId} {seq : Nat} {k : Opcode} {f : Block → Ctx → Block}
    (ho : o = onLeft h seq k f s) (hf : ∀ b c, CoreOk v0 fin b.core → CoreOk v0 fin (f b c).core) (hs : CoreOk v0 fin s.blk.core)
    (he : o = .next t) : CoreOk v0 fin t.blk.core := onLeft_ok hf hs (ho.symm.trans he)

/-! ### What came to a port during a freeze -/

theorem heldMeaning_ok {i : Instr} (hs : CoreOk v0 fin s.blk.core) (he : heldMeaning i s = .next t) : CoreOk v0 fin t.blk.core := by
  cases i with
  | registerWrite h offset value =>
    simp only [heldMeaning] at he
    split at he
    · exact portRun_ok (fun _ hb => hb) hs he
    · exact portRun_ok (fun b hb => Block.writeReg_ok _ _ _ _ _ hb) hs he
  | frzCtlFreeze =>
    refine ok_of_port rfl (fun b hb => ?_) hs he
    exact hb
  | frzRoCtlWrite h dbg value =>
    cases dbg
    · refine ok_of_port rfl (fun b hb => ?_) hs he
      exact Block.onHalf_same _ _ _ (fun _ => rfl) hb
    · exact dbgRun_ok (f := fun b => b.onHalf h (fun x => x.writeRoCtl value)) (fun b hb => Block.onHalf_same _ _ _ (fun _ => rfl) hb) hs he
  | frzRoDataRead h dbg image =>
    cases dbg
    · exact ok_of_port rfl (fun b hb => by simp [hb]) hs he
    · exact dbgRun_ok (f := fun b => (b.roData h image).1.dbgRespond (Resp.value (b.roData h image).2.toNat)) (fun b hb => by simp [hb]) hs he
  | targetAccessOutside | fetch | doorbell | doorbellTakenOver | queueDisable | queueRestart | adminQueueConfig | queSeqRead | twnCtlYield |
  twnCtlSelftest | dmaStreamDrop | irqClaim | irqEoi | recIndexWrite | decRandSeedWrite | chnCtlRetrain | chnCtlQuick | pwrCtlWake | poolMinClr =>
    refine ok_of_port rfl (fun b hb => ?_) hs he
    simp [hb]
  | gutRdRead | gutCtlUnstall | gutSprdWrite | loopEnable | warmReset | channelReset | format =>
    refine ok_of_port rfl (fun b hb => ?_) hs he
    (repeat' split) <;> simp [hb]
  | arbCommitGo | arbLfsrWrite | memClr | loopCommitGo | loopTrcSelWrite | irqPendSet | irqPendClear | irqMaskSet | irqMaskClear | irqCommitGo |
  rgnCommitGo | rgnLineFlush | recAgeWrite =>
    refine ok_of_port rfl (fun b hb => ?_) hs he
    exact Block.onHalf_same _ _ _ (fun _ => rfl) hb
  | gutCtlMark | gutCtlRewind | gutCtlRelease | trcModeWrite =>
    refine ok_of_port rfl (fun b hb => ?_) hs he
    exact ite_ok (Block.onHalf_same _ _ _ (fun _ => rfl) hb) hb
  | memInitFill =>
    refine ok_of_port rfl (fun b hb => ?_) hs he
    exact Block.onHalf_same _ _ _ (fun x => foldl_gen (fun y m => y.onMem m Mem.fill) (fun _ _ => rfl) _ x) hb
  | entryFetch | fetchError =>
    refine ok_of_response (by delta heldMeaning; rfl) (fun b hb => ?_) hs he
    simp [hb]
  | headerError | spillWriteAck | spillError | headerWriteAck =>
    refine ok_of_response (by delta heldMeaning; rfl) (fun b hb => ?_) hs he
    (repeat' split) <;> simp [hb]
  | replyAck | replyError | descriptorFetch | fenceReadReturn =>
    refine ok_of_response (by delta heldMeaning; rfl) (fun b hb => ?_) hs he
    dsimp only
    (repeat' split) <;> simp [hb]
  | dmaReadReturn =>
    refine ok_of_response (by delta heldMeaning; rfl) (fun b hb => ?_) hs he
    split
    · exact hb
    · exact ite_ok hb (ite_ok (Block.onHalf_same _ _ _ (fun _ => rfl) hb) (by simp [hb]))
  | dmaWriteResponse =>
    refine ok_of_response (by delta heldMeaning; rfl) (fun b hb => ?_) hs he
    refine ite_ok hb (List.foldrRecOn (motive := fun a : Block => CoreOk v0 fin a.core) _ _ hb (fun a ha w _ => ?_))
    split
    · exact ite_ok (by simp [hb]) ha
    · exact ha
  | _ =>
    cases he
    exact hs

theorem Block.perform_ok (b : Block) (i : Instr) (hb : CoreOk v0 fin b.core) : CoreOk v0 fin (b.perform i).core := by
  unfold Block.perform
  split
  · next he => exact heldMeaning_ok (s := { blk := b, pending := [] }) hb he
  · exact hb

theorem Block.release_ok (b : Block) (hb : CoreOk v0 fin b.core) : CoreOk v0 fin b.release.core :=
  ite_ok hb (foldl_ok _ (fun a e ha => a.perform_ok e.2.2 ha) _ _ (Block.onPair_same _ _ (fun _ => rfl) hb))

/-! ### The commands that touch the latch of a brown-out -/

theorem Block.recoverFrom_core (b : Block) (h : HalfId) (due : Bool) : (b.recoverFrom h due).core = b.core := by
  unfold Block.recoverFrom
  split <;> simp

theorem CoreOk.latch {b : Block} (hb : CoreOk v0 true b.core) :
    b.pair.latched = true ∧ b.pair.ranPhase = true ∧ b.pair.bringHold = false := by
  obtain ⟨-, -, -, -, hl⟩ := hb
  have hl' : (b.pair.latched, b.pair.ranPhase, b.pair.bringHold) = (true, true, false) := hl rfl
  simpa using hl'

/-- Once the pair has run no latch is an early one. -/
theorem Block.earlyDiscard_ok (b : Block) (hb : CoreOk v0 fin b.core) :
    CoreOk v0 fin (if b.earlyLatch && (b.ha.fillDone || b.hb.fillDone) then
      if b.pair.brownout then b.onPair (fun p => { p with bringHold := true }) else b.discardEarly else b).core := by
  cases fin with
  | true => simpa [Block.earlyLatch, hb.latch] using hb
  | false =>
    refine ite_ok (ite_ok ?_ (Block.discardEarly_ok b rfl hb)) hb
    obtain ⟨hv, ha, hb, he, -⟩ := hb
    exact ⟨hv, ha, hb, he, fun h => nomatch h⟩

/-- A fall of the pin discards the latch only where bring-up is held for it. -/
theorem Block.brownoutFall_ok (b : Block) (hb : CoreOk v0 fin b.core) :
    CoreOk v0 fin (if b.pair.bringHold then (b.onPair (fun p => { p with brownout := false })).discardEarly
      else b.onPair (fun p => { p with brownout := false })).core := by
  have h1 : CoreOk v0 fin (b.onPair (fun p => { p with brownout := false })).core := Block.onPair_same _ _ (fun _ => rfl) hb
  cases fin with
  | true => rwa [hb.latch.2.2, if_neg Bool.false_ne_true]
  | false => exact ite_ok (Block.discardEarly_ok _ rfl h1) h1

/-- A brown-out only sets the latch. -/
theorem Block.latch_ok (b : Block) (hb : CoreOk v0 fin b.core) : CoreOk v0 fin (b.onPair (fun p => { p with latched := true })).core := by
  cases fin with
  | false => exact ⟨hb.1, hb.2.1, hb.2.2.1, hb.2.2.2.1, fun h => nomatch h⟩
  | true =>
    obtain ⟨hl, hr, hh⟩ := hb.latch
    exact Block.onPair_ok _ _ id (fun _ => by simp [Pair.core, hr, hh]) hb

/-- A brown-out that is no longer latched anew ends a freeze and drains the halves; one that is already latched changes nothing of the core. -/
theorem brownout_ok {holdup : Nat} (hs : CoreOk v0 fin s.blk.core) (he : execBrownout holdup s = .next t) : CoreOk v0 fin t.blk.core := by
  refine run_ok (fun b hb => ?_) hs he
  extract_lets inReset b1 b2 b3
  have h1 : CoreOk v0 fin b1.core := Block.onPair_same _ _ (fun _ => rfl) hb
  have h2 : CoreOk v0 fin b2.core := b1.latch_ok h1
  have h3 : CoreOk v0 fin b3.core := ite_ok (Block.onPair_same _ _ (fun _ => rfl) (Block.thawFree_ok _ h2)) h2
  exact ite_ok h1 (Block.release_ok _ (ite_ok (by simp [h3]) h3))

theorem fin_eq_false {p : Prop} (hfin : fin = true → p) (hp : ¬ p) : fin = false :=
  Bool.eq_false_iff.mpr (fun h => hp (hfin h))

/-! ### The port of the debugger -/

theorem Block.debug_ok (b : Block) (h : HalfId) (o : Nat) (write : Option Word) (hb : CoreOk v0 fin b.core) :
    CoreOk v0 fin (b.debug h o write).core := by
  have h1 : ∀ cause, CoreOk v0 fin (b.wake h cause).core := fun cause => b.wake_ok h cause hb
  unfold Block.debug
  refine ite_ok (by simp [hb]) ?_
  cases write with
  | some w =>
    rw [Block.dbgRespond_core]
    exact ite_ok (ite_ok (Block.release_ok _ (Block.thawFree_ok _ (h1 _))) (h1 _)) (Block.writeReg_ok _ _ _ _ _ (h1 _))
  | none =>
    rw [Block.dbgRespond_core, Block.debugRead_core]
    exact h1 _

/-! ### Every command -/

theorem Block.recCmd_ok (b : Block) (h : HalfId) (seq : Nat) (c : Ctx) (hb : CoreOk v0 fin b.core) : CoreOk v0 fin (b.recCmd h seq c).core := by
  unfold Block.recCmd
  dsimp only
  split
  · simp [hb]
  · split
    · simp [hb]
    · split
      · simp [hb]
      · rw [Block.finish_core]
        exact ite_ok (by simp [hb]) (by simp [hb])

/-- What a freeze can keep waiting does at the thaw what it does at once. -/
theorem ok_of_held {c : Instr} (hc : exec c s = heldMeaning c s) (hs : CoreOk v0 fin s.blk.core) (he : exec c s = .next t) :
    CoreOk v0 fin t.blk.core := heldMeaning_ok hs (hc.symm.trans he)

/-- Every command keeps `CoreOk`; of the latch of a brown-out this leaves out the cold reset and the loss of the supply. -/
theorem exec_ok {c : Instr} (hc : fin = true → c ≠ .porstNLow ∧ c ≠ .supplyLoss none) (hs : CoreOk v0 fin s.blk.core)
    (he : exec c s = .next t) : CoreOk v0 fin t.blk.core := by
  cases c with
  | registerWrite => exact ok_of_port rfl (fun b hb => Block.writeReg_ok _ _ _ _ _ hb) hs he
  | debugAccess addr write =>
    change (if _ then run _ s else _) = _ at he
    split at he
    · exact run_ok (fun b hb => b.debug_ok _ _ _ hb) hs he
    · cases he
  | frzCtlFreeze h dbg =>
    cases dbg
    · exact ok_of_port rfl (fun b hb => by simp [hb]) hs he
    · exact dbgRun_ok (f := fun b => b.askFreeze 3) (fun b hb => by simp [hb]) hs he
  | frzCtlThaw h dbg ticks =>
    cases dbg
    · exact ok_of_port rfl (fun b hb => by exact hb) hs he
    · exact dbgRun_ok (f := fun b => if b.pair.frozen then (b.thaw ticks).release else b)
        (fun b hb => ite_ok (Block.release_ok _ (Block.thaw_ok _ _ hb)) hb) hs he
  | frzRoCtlWrite | frzRoDataRead | targetAccessOutside | fetch | doorbell | doorbellTakenOver | queueDisable | queueRestart | adminQueueConfig |
  queSeqRead | twnCtlYield | twnCtlSelftest | arbCommitGo | arbLfsrWrite | dmaStreamDrop | memInitFill | memClr | gutRdRead | gutCtlMark |
  gutCtlRewind | gutCtlRelease | gutCtlUnstall | gutSprdWrite | loopEnable | loopCommitGo | trcModeWrite | loopTrcSelWrite | irqClaim | irqEoi |
  irqPendSet | irqPendClear | irqMaskSet | irqMaskClear | irqCommitGo | rgnCommitGo | rgnLineFlush | recIndexWrite | recAgeWrite | decRandSeedWrite
  | chnCtlRetrain | chnCtlQuick | pwrCtlWake | warmReset | channelReset | format | poolMinClr | entryFetch | fetchError | replyAck | replyError |
  headerError | descriptorFetch | dmaReadReturn | dmaWriteResponse | spillWriteAck | spillError | headerWriteAck | fenceReadReturn =>
    exact ok_of_held rfl hs he
  | brownout => exact brownout_ok hs he
  | read | readRaw | patrol | program | programAt | offer | copy | erase | invalidate | victim | identify | logGet | profileLoad =>
    refine ok_of_left (by delta exec; rfl) (fun b c hb => ?_) hs he
    simp [hb]
  | blankCheck | groupCommit | pitch | dieReset =>
    refine ok_of_left (by delta exec; rfl) (fun b c hb => ?_) hs he
    (repeat' split) <;> simp [hb]
  | rebuild | release | fence | strike | regionOpen | regionClose | dieFeature | retire | restore =>
    refine ok_of_left (by delta exec; rfl) (fun b c hb => ?_) hs he
    dsimp only
    (repeat' split) <;> simp [hb]
  | profileBind =>
    refine ok_of_left (by delta exec; rfl) (fun b c hb => ?_) hs he
    dsimp only
    split
    · simp [hb]
    · rw [Block.finish_core, Block.send_core]
      exact Block.onHalf_same _ _ _ (fun _ => rfl) hb
  | recUpdate =>
    refine ok_of_left (by delta exec; rfl) (fun b c hb => ?_) hs he
    exact Block.recCmd_ok b _ _ c hb
  | stripeOpen =>
    refine ok_of_left (by delta exec; rfl) (fun b c hb => ?_) hs he
    dsimp only
    split
    · simp [hb]
    · split
      · simp [hb]
      · rw [Block.finish_core, Block.notePool_core]
        exact Block.onHalf_same _ _ _ (fun _ => rfl) (by simp [hb])
  | updateEnFall | updateEnRise =>
    refine ok_of_run (by delta exec; rfl) (fun b hb => ?_) hs he
    simp [hb]
  | halfReset | mirrorSync | freezePortFrame | lineFill | sequenceNumberRequest | rebuildSwap | attach | mirrorAck | guyLinkMessage | padEnableLapse
  | yieldedChannelsTake | channelMove | engineFailure | backgroundEngineFailure | backgroundJobEnd | poolBankRetire | schedulerChoice | busTask |
  lunReady | suspendReady | decodeArbitration | stripeReconstruction | scrubWord | loopSample | irqFilterPass | ageingWalk | idleTimerExpiry |
  sleepMessage | awakeMessage | wakeMessage | pllLockLoss | pegCycleEnd =>
    refine ok_of_run (by delta exec; rfl) (fun b hb => ?_) hs he
    (repeat' split) <;> simp [hb]
  | pllLockTimeout | groundsheetFill | dieDiscovery | checkpointSearch | microcodeLoad | recordRestore | replyWrite | headerWrite | twinLoss |
  takeover | beaconLoss | codewordArrival | decodeDone | parityProgram | dmaStreamStart | dmaBurst | dmaStreamComplete | retrainPeriod |
  checkpointSealed | wakeEvent | twinAnswerTimeout =>
    refine ok_of_run (by delta exec; rfl) (fun b hb => ?_) hs he
    dsimp only
    (repeat' split) <;> simp [hb]
  | porstNLow =>
    refine ok_of_run (by delta exec; rfl) (fun b hb => ?_) hs he
    exact Block.cold_ok _ _ (fin_eq_false hc (fun h => h.1 rfl)) hb
  | supplyLoss =>
    refine ok_of_run (by delta exec; rfl) (fun b hb => ?_) hs he
    split
    · exact Block.cold_ok _ _ (fin_eq_false hc (fun h => h.2 rfl)) hb
    · simp [hb]
  | pegPhaseStart =>
    refine ok_of_run (by delta exec; rfl) (fun b hb => ?_) hs he
    exact ite_ok (Block.onPair_same _ _ (fun _ => rfl) hb) hb
  | pegPhaseEnd =>
    refine ok_of_run (by delta exec; rfl) (fun b hb => ?_) hs he
    split
    · extract_lets v w err b1 y b2
      have h1 : CoreOk v0 fin b1.core := Block.onPair_same _ _ (fun _ => rfl) (Block.onHalf_same _ _ _ (fun _ => rfl) hb)
      have h2 : CoreOk v0 fin b2.core := ite_ok (by simp [h1]) (ite_ok (by simp [h1]) h1)
      exact ite_ok (by simp [h2]) h2
    · exact hb
  | pllLock =>
    refine ok_of_run (by delta exec; rfl) (fun b hb => ?_) hs he
    extract_lets x
    refine ite_ok hb ?_
    split
    · exact Block.onHalf_same _ _ _ (fun _ => rfl) hb
    · exact Block.onHalf_same _ _ _ (fun _ => rfl) hb
    · refine ite_ok hb (ite_ok hb (Block.resumeBring_ok _ _ ?_))
      exact Block.onPair_same _ _ (fun p => by split <;> rfl) (Block.onHalf_same _ _ _ (fun _ => rfl) hb)
  | channelTraining =>
    refine ok_of_run (by delta exec; rfl) (fun b hb => ?_) hs he
    extract_lets k
    refine ite_ok (ite_ok (ite_ok hb (by simp [hb])) ?_) hb
    exact Block.onHalf_same _ _ _ (fun _ => rfl) hb
  | adminReady =>
    refine ok_of_run (by delta exec; rfl) (fun b hb => ?_) hs he
    extract_lets x v alone
    refine ite_ok ?_ hb
    rw [Block.recoverFrom_core, Block.driveWp_core]
    exact Block.onHalf_same _ _ _ (fun _ => rfl) (ite_ok (by simp [hb]) hb)
  | earlyBrownoutDiscard =>
    refine ok_of_run (by delta exec; rfl) (fun b hb => ?_) hs he
    exact Block.earlyDiscard_ok b hb
  | brownoutFall =>
    refine ok_of_run (by delta exec; rfl) (fun b hb => ?_) hs he
    exact Block.brownoutFall_ok b hb
  | flysheetCommit =>
    refine ok_of_run (by delta exec; rfl) (fun b hb => ?_) hs he
    extract_lets x s0 s1 b1 b2
    have h1 : CoreOk v0 fin b1.core := Block.onHalf_same _ _ _ (fun _ => rfl) hb
    have h2 : CoreOk v0 fin b2.core := ite_ok (by simp [h1]) h1
    exact ite_ok (ite_ok (by simp [h2]) h2) hb
  | budgetTgl =>
    refine ok_of_run (by delta exec; rfl) (fun b hb => ?_) hs he
    extract_lets edge b1
    have h1 : CoreOk v0 fin b1.core := Block.onPair_same _ _ (fun _ => rfl) hb
    refine ite_ok h1 (Block.onHalf_same _ _ _ Half.countEdge_gen (Block.onHalf_same _ _ _ Half.countEdge_gen ?_))
    exact Block.onPair_same _ _ (fun _ => rfl) h1
  | frzReq =>
    refine ok_of_run (by delta exec; rfl) (fun b hb => ?_) hs he
    exact ite_ok (by simp [hb]) (ite_ok hb (Block.onPair_same _ _ (fun _ => rfl) hb))
  | rangeLockLeave =>
    refine ok_of_run (by delta exec; rfl) (fun b hb => ?_) hs he
    split
    · exact hb
    · exact ite_ok (Block.onHalf_same _ _ _ (fun _ => rfl) (Block.onPair_same _ _ (fun _ => rfl) hb)) hb
  | detach =>
    refine ok_of_run (by delta exec; rfl) (fun b hb => ?_) hs he
    split
    · exact hb
    · refine ite_ok hb (ite_ok (ite_ok (by simp [hb]) ?_) (ite_ok (by simp [hb]) hb))
      exact Block.onHalf_same _ _ _ (fun _ => rfl) (by simp [hb])
  | linkNak =>
    refine ok_of_run (by delta exec; rfl) (fun b hb => ?_) hs he
    extract_lets t
    exact ite_ok hb (ite_ok (by simp [hb]) (Block.onHalf_same _ _ _ (fun _ => rfl) hb))
  | heartbeat | pollDue | poolArbitration | suspendGapElapsed =>
    refine ok_of_run (by delta exec; rfl) (fun b hb => ?_) hs he
    exact ite_ok (Block.onHalf_same _ _ _ (fun _ => rfl) hb) hb
  | marginAlarm =>
    refine ok_of_run (by delta exec; rfl) (fun b hb => ?_) hs he
    extract_lets k
    exact ite_ok (Block.onHalf_same _ _ _ (fun _ => rfl) hb) hb
  | heartbeatLate =>
    refine ok_of_run (by delta exec; rfl) (fun b hb => ?_) hs he
    extract_lets x
    refine ite_ok ?_ hb
    rw [Block.raise_core]
    exact Block.onHalf_same _ _ _ (fun _ => rfl) hb
  | interlockWaitEnd =>
    refine ok_of_run (by delta exec; rfl) (fun b hb => ?_) hs he
    extract_lets x
    refine ite_ok hb (ite_ok (by simp [hb]) ?_)
    exact Block.onPair_same _ _ (fun _ => rfl) (Block.onHalf_same _ _ _ (fun _ => rfl) hb)
  | resume =>
    refine ok_of_run (by delta exec; rfl) (fun b hb => ?_) hs he
    extract_lets x e
    split
    · exact hb
    · exact ite_ok (Block.onHalf_same _ _ _ (fun _ => rfl) hb) hb
  | rbNRise =>
    refine ok_of_run (by delta exec; rfl) (fun b hb => ?_) hs he
    exact ite_ok (Block.onHalf_same _ _ _ (fun _ => rfl) hb) (Block.onHalf_same _ _ _ (fun _ => rfl) hb)
  | operationTimeout =>
    refine ok_of_run (by delta exec; rfl) (fun b hb => ?_) hs he
    extract_lets e
    split
    · exact hb
    · refine ite_ok ?_ hb
      rw [Block.bindDue_core, Block.countTimeout_core, Block.each_core _ _ _ Block.endOp_core]
      exact Block.onHalf_same _ _ _ (fun _ => rfl) hb
  | suspendTimeout =>
    refine ok_of_run (by delta exec; rfl) (fun b hb => ?_) hs he
    split
    · exact hb
    · refine ite_ok ?_ hb
      rw [Block.countTimeout_core]
      exact Block.onHalf_same _ _ _ (fun _ => rfl) hb
  | holdWatchdog =>
    refine ok_of_run (by delta exec; rfl) (fun b hb => ?_) hs he
    extract_lets a
    exact ite_ok (Block.failHolder_ok _ _ _ (Block.onHalf_same _ _ _ (fun _ => rfl) hb)) hb
  | gutterTimeout =>
    refine ok_of_run (by delta exec; rfl) (fun b hb => ?_) hs he
    exact ite_ok hb (Block.onHalf_same _ _ _ (fun _ => rfl) hb)
  | eraseAgeTick =>
    refine ok_of_run (by delta exec; rfl) (fun b hb => ?_) hs he
    extract_lets x e n mark b1
    have h1 : CoreOk v0 fin b1.core := Block.onHalf_same _ _ _ (fun _ => rfl) hb
    exact ite_ok (ite_ok (by simp [h1]) h1) hb
  | checkpointStart =>
    refine ok_of_run (by delta exec; rfl) (fun b hb => ?_) hs he
    extract_lets x
    refine ite_ok (by simp [hb]) (ite_ok ?_ hb)
    rw [Block.startCkpt_core]
    exact Block.onHalf_same _ _ _ (fun _ => rfl) hb
  | clkDecGate | beaconToggle =>
    refine ok_of_run (by delta exec; rfl) (fun b hb => ?_) hs he
    exact Block.onHalf_same _ _ _ (fun x => by split <;> rfl) hb

/-- Settles O6: the reset values of the settings lie inside their limits, and no enable is active. -/
theorem resetMeetsInvariant : Obligations.ResetMeetsInvariant := by
  have hreset : ∀ v : Variant, (State.resetOf v).blk.Inv := fun v =>
    ⟨fun h => by cases h <;> exact GenCfg.reset_inLimits v, rfl⟩
  exact fun v => ⟨hreset v, hreset .brx16T⟩

theorem step_ok (hc : fin = true → s.pending.head? ≠ some .porstNLow ∧ s.pending.head? ≠ some (.supplyLoss none))
    (hs : CoreOk v0 fin s.blk.core) (he : step s = .next t) : CoreOk v0 fin t.blk.core := by
  unfold step at he
  split at he
  · cases he
    exact hs
  · next c rest hp => exact exec_ok (by simpa [hp] using hc) (s := { s with pending := rest }) hs he

/-- Settles O7: `CoreOk` without the latch is the invariant, and holds the configuration too. -/
theorem stepKeepsInvariant : Obligations.StepKeepsInvariant := by
  intro s t hs he
  have ht := step_ok (fin := false) (fun h => nomatch h) (s.blk.inv_iff.mp hs) he
  have hv : t.blk.variant = s.blk.variant := ht.1
  exact ⟨t.blk.inv_iff.mpr (hv ▸ ht), hv⟩

/-- Settles O8: `CoreOk` with the latch. -/
theorem latchedBrownoutIsFinal : Obligations.LatchedBrownoutIsFinal := by
  intro s t hs hl hporst hsupply he
  have ht := step_ok (fun _ => ⟨hporst, hsupply⟩) (s.blk.inv_final_iff.mp ⟨hs, hl⟩) he
  have hv : t.blk.variant = s.blk.variant := ht.1
  exact t.blk.inv_final_iff.mpr (hv ▸ ht)

end Sys2Proof.Machine
end

section
/-!
PROOFS. Addresses and records as words: each field of a word of fields is read back at its place (R99, R111).
-/

namespace Sys2Proof

/-! ### A word of fields -/

/-- A field of a word: its value, its lowest bit and its width. -/
structure FieldAt where
  value : Nat
  lo    : Nat
  width : Nat

/-- The sum that a list of fields writes into a word. -/
def placed (l : List FieldAt) : Nat := (l.map (fun f => at' f.value f.lo f.width)).sum

/-- The fields stand in the order of their bits and do not overlap. -/
def Ascending (l : List FieldAt) : Prop := l.Pairwise (fun f g => f.lo + f.width ≤ g.lo)

theorem placed_nil : placed [] = 0 := by
  simp [placed]

theorem placed_cons (f : FieldAt) (l : List FieldAt) : placed (f :: l) = at' f.value f.lo f.width + placed l := by
  simp [placed]

theorem placed_append (l m : List FieldAt) : placed (l ++ m) = placed l + placed m := by
  simp [placed]

/-- A field stays below its own end. -/
theorem at'_le (v lo n : Nat) : at' v lo n + 2 ^ lo ≤ 2 ^ (lo + n) := by
  have hv : v % 2 ^ n + 1 ≤ 2 ^ n := Nat.mod_lt _ (Nat.two_pow_pos n)
  calc at' v lo n + 2 ^ lo = (v % 2 ^ n + 1) * 2 ^ lo := by rw [at', Nat.succ_mul]
    _ ≤ 2 ^ n * 2 ^ lo := Nat.mul_le_mul_right _ hv
    _ = 2 ^ (lo + n) := by rw [← pow_add, Nat.add_comm]

/-- Fields that end at or below bit `k` write less than 2^k. -/
theorem placed_lt {l : List FieldAt} (hl : Ascending l) {k : Nat} (hk : ∀ f ∈ l, f.lo + f.width ≤ k) : placed l < 2 ^ k := by
  induction l using List.reverseRecOn generalizing k with
  | nil => exact Nat.two_pow_pos k
  | append_singleton l f ih =>
    obtain ⟨hinit, -, hlast⟩ := List.pairwise_append.mp hl
    have hbelow : placed l < 2 ^ f.lo := ih hinit (fun g hg => hlast g hg f (List.mem_singleton_self f))
    have hfield := at'_le f.value f.lo f.width
    have hend : 2 ^ (f.lo + f.width) ≤ 2 ^ k := Nat.pow_le_pow_right (by decide) (hk f (by simp))
    have hsum : placed (l ++ [f]) = placed l + at' f.value f.lo f.width := by simp [placed]
    omega

/-- Fields that begin at or above bit `k` write a multiple of 2^k. -/
theorem dvd_placed {l : List FieldAt} {k : Nat} (hk : ∀ f ∈ l, k ≤ f.lo) : 2 ^ k ∣ placed l := by
  refine List.dvd_sum (fun n hn => ?_)
  obtain ⟨f, hf, rfl⟩ := List.mem_map.mp hn
  exact (Nat.pow_dvd_pow 2 (hk f hf)).mul_left _

/-- A field is read back between what is smaller than its weight and what is a multiple of its end's. -/
theorem fieldOf_ofNat {w lo n below above : Nat} (hw : lo + n ≤ w) (hbelow : below < 2 ^ lo) (habove : 2 ^ (lo + n) ∣ above) (v : Nat) :
    fieldOf (BitVec.ofNat w (below + (at' v lo n + above))) lo n = v % 2 ^ n := by
  obtain ⟨a, rfl⟩ := habove
  have hsum : below + (at' v lo n + 2 ^ (lo + n) * a) = below + 2 ^ lo * (v % 2 ^ n + 2 ^ n * a) := by
    rw [at', pow_add]
    ring
  rw [fieldOf, BitVec.toNat_ofNat, hsum, ← Nat.mod_mul_right_div_self, ← pow_add, Nat.mod_mod_of_dvd _ (Nat.pow_dvd_pow 2 hw), pow_add,
    Nat.mod_mul_right_div_self, Nat.add_mul_div_left _ _ (Nat.two_pow_pos lo), Nat.div_eq_of_lt hbelow, Nat.zero_add,
    Nat.add_mul_mod_self_left, Nat.mod_mod]

/-- Each field of a word of fields is read back at its place. -/
theorem fieldOf_placed {w : Nat} {l : List FieldAt} (hl : Ascending l) (hw : ∀ f ∈ l, f.lo + f.width ≤ w) {f : FieldAt} (hf : f ∈ l) :
    fieldOf (BitVec.ofNat w (placed l)) f.lo f.width = f.value % 2 ^ f.width := by
  obtain ⟨below, above, rfl⟩ := List.append_of_mem hf
  obtain ⟨hb, ha, hba⟩ := List.pairwise_append.mp hl
  rw [placed_append]
  exact fieldOf_ofNat (hw f hf) (placed_lt hb (fun g hg => hba g hg f (by simp))) (dvd_placed (List.pairwise_cons.mp ha).1) f.value

/-! ### Addresses (R99) -/

/-- The fields of a PADDR, in the order of their bits. -/
def Addr.fields (a : Addr) : List FieldAt :=
  [⟨a.slot, 0, 2⟩, ⟨a.page, 2, 12⟩, ⟨a.block, 14, 12⟩, ⟨a.plane, 26, 3⟩, ⟨a.lun, 29, 2⟩, ⟨a.target, 31, 2⟩, ⟨a.channel, 33, 4⟩]

theorem Addr.word_eq (a : Addr) : a.word = BitVec.ofNat 64 (placed a.fields) := by
  simp only [Addr.word, Addr.fields, placed_cons, placed_nil, Nat.add_assoc, Nat.add_zero]

theorem Addr.fieldOf_word (a : Addr) {f : FieldAt} (hf : f ∈ a.fields) : fieldOf a.word f.lo f.width = f.value % 2 ^ f.width := by
  rw [a.word_eq]
  exact fieldOf_placed (by simp [Ascending, Addr.fields]) (by simp [Addr.fields]) hf

theorem addrOf_word (a : Addr) : addrOf a.word = ⟨a.slot % 4, a.page % 4096, a.block % 4096, a.plane % 8, a.lun % 4, a.target % 4,
    a.channel % 16⟩ := by
  have hread := fun {v lo n} (hf : ⟨v, lo, n⟩ ∈ a.fields) => a.fieldOf_word hf
  simp only [Addr.fields, List.mem_cons] at hread
  simp only [addrOf]
  congr 1 <;> exact hread (by simp)

/-- The fields of a PADDR with the bits above them zero add up to it. -/
theorem word_addrOf {p : Paddr} (hp : p.toNat < 2 ^ 37) : (addrOf p).word = p := by
  refine BitVec.eq_of_toNat_eq ?_
  simp only [Addr.word, addrOf, at', fieldOf, BitVec.toNat_ofNat]
  omega

/-- Settles O10: each field is read back modulo its width, and the seven fields fill the word up to bit 36. -/
theorem paddrFieldsReadBack : Obligations.PaddrFieldsReadBack := by
  refine ⟨fun a hslot hpage hblock hplane hlun htarget hchannel => ?_, fun p hp => word_addrOf hp⟩
  rw [addrOf_word, Nat.mod_eq_of_lt hslot, Nat.mod_eq_of_lt hpage, Nat.mod_eq_of_lt hblock, Nat.mod_eq_of_lt hplane, Nat.mod_eq_of_lt hlun,
    Nat.mod_eq_of_lt htarget, Nat.mod_eq_of_lt hchannel]

/-! ### Records (R111) -/

/-- The fields of a record's 16 bytes, in the order of their bits. -/
def Rec.fields (r : Rec) : List FieldAt :=
  [⟨r.state.code, 0, 3⟩, ⟨bitOf r.grownBad, 3, 1⟩, ⟨bitOf r.slc, 4, 1⟩, ⟨bitOf r.nru, 5, 1⟩, ⟨bitOf r.fly, 6, 1⟩, ⟨r.tension.toNat, 8, 4⟩,
    ⟨r.age.toNat, 12, 3⟩, ⟨bitOf r.rgnOwn, 15, 1⟩, ⟨r.zone.toNat, 16, 4⟩, ⟨r.region.toNat, 20, 4⟩, ⟨r.suspCnt.toNat, 24, 8⟩,
    ⟨r.wp.toNat, 32, 16⟩, ⟨r.valid.toNat, 48, 16⟩, ⟨r.eraseCnt.toNat, 64, 24⟩, ⟨r.voidCnt.toNat, 88, 4⟩, ⟨r.role.code, 92, 2⟩,
    ⟨r.next.toNat, 96, 18⟩, ⟨r.failCnt.toNat, 120, 8⟩]

theorem Rec.bytes_eq (r : Rec) : r.bytes = BitVec.ofNat 128 (placed r.fields) := by
  simp only [Rec.bytes, Rec.fields, placed_cons, placed_nil, Nat.add_assoc, Nat.add_zero]

theorem Rec.fieldOf_bytes (r : Rec) {f : FieldAt} (hf : f ∈ r.fields) : fieldOf r.bytes f.lo f.width = f.value % 2 ^ f.width := by
  rw [r.bytes_eq]
  exact fieldOf_placed (by simp [Ascending, Rec.fields]) (by simp [Rec.fields]) hf

/-- A field of a record as wide as its bit vector is that vector. -/
theorem Rec.ofNat_fieldOf_bytes (r : Rec) {n lo : Nat} (x : BitVec n) (hf : ⟨x.toNat, lo, n⟩ ∈ r.fields) :
    BitVec.ofNat n (fieldOf r.bytes lo n) = x := by
  rw [r.fieldOf_bytes hf, Nat.mod_eq_of_lt x.isLt, BitVec.ofNat_toNat, BitVec.setWidth_eq]

theorem getLsbD_eq_fieldOf {w : Nat} (x : BitVec w) (i : Nat) : x.getLsbD i = decide (fieldOf x i 1 = 1) := by
  rw [BitVec.getLsbD, Nat.testBit_eq_decide_div_mod_eq, fieldOf, pow_one]

/-- A flag of a record is its bit. -/
theorem Rec.getLsbD_bytes (r : Rec) {lo : Nat} (x : Bool) (hf : ⟨bitOf x, lo, 1⟩ ∈ r.fields) : r.bytes.getLsbD lo = x := by
  rw [getLsbD_eq_fieldOf, r.fieldOf_bytes hf]
  cases x <;> rfl

theorem UnitState.ofCode_code (u : UnitState) : UnitState.ofCode u.code = u := by
  cases u <;> rfl

theorem Role.ofCode_code (r : Role) : Role.ofCode (r.code % 2 ^ 2) = r := by
  cases r <;> rfl

/-- Settles O9: every field of a record is read back at its place in the 16 bytes. -/
theorem recordBytesReadBack : Obligations.RecordBytesReadBack := by
  intro r
  have hbit := fun {lo} (x : Bool) (hf : ⟨bitOf x, lo, 1⟩ ∈ r.fields) => r.getLsbD_bytes x hf
  have hword := fun {n lo} (x : BitVec n) (hf : ⟨x.toNat, lo, n⟩ ∈ r.fields) => r.ofNat_fieldOf_bytes x hf
  simp only [Rec.fields, List.mem_cons] at hbit hword
  rw [recOfBytes, hbit r.grownBad (by simp), hbit r.slc (by simp), hbit r.nru (by simp), hbit r.fly (by simp), hbit r.rgnOwn (by simp),
    hword r.tension (by simp), hword r.age (by simp), hword r.zone (by simp), hword r.region (by simp), hword r.suspCnt (by simp),
    hword r.wp (by simp), hword r.valid (by simp), hword r.eraseCnt (by simp), hword r.voidCnt (by simp), hword r.next (by simp),
    hword r.failCnt (by simp), r.fieldOf_bytes_state, UnitState.ofCode_code, r.fieldOf_bytes (f := ⟨r.role.code, 92, 2⟩) (by simp [Rec.fields]),
    Role.ofCode_code]

end Sys2Proof
end

section
/-!
PROOFS. Parts of a half that the operations on the enables, the link and the interrupts leave alone, each read by a view `g` of the half.
-/

namespace Sys2Proof.Machine

open Sys2Proof

/-- A change of a half is known by what it makes of that half. -/
theorem Block.onHalf_congr {b : Block} {h : HalfId} {f g : Half → Half} (hfg : f (b.half h) = g (b.half h)) : b.onHalf h f = b.onHalf h g := by
  rw [Block.onHalf, hfg, Block.onHalf]

section
variable {α : Type} (g : Half → α)

theorem Block.onHalf_view (b : Block) (h k : HalfId) {f : Half → Half} (hf : ∀ x, g (f x) = g x) : g ((b.onHalf h f).half k) = g (b.half k) := by
  rw [Block.half_onHalf_iff]
  split
  · exact hf _
  · rfl

/-- The same, for a chain of changes read from the last to the first. -/
theorem Block.onHalf_keeps {b : Block} {h k : HalfId} {f : Half → Half} {y : α} (hb : g (b.half k) = y) (hf : ∀ x, g (f x) = g x) :
    g ((b.onHalf h f).half k) = y := (b.onHalf_view g h k hf).trans hb

theorem Block.each_view {β : Type} {f : Block → β → Block} (k : HalfId) (hf : ∀ a e, g ((f a e).half k) = g (a.half k)) (l : List β) (b : Block) :
    g ((b.each l f).half k) = g (b.half k) := by
  induction l generalizing b with
  | nil => rfl
  | cons e l ih => exact (ih (f b e)).trans (hf b e)

/-- A message to the twin changes the link's registers alone. -/
theorem Block.send_view (hg : ∀ x f, g (Half.onTwn x f) = g x) (b : Block) (h k : HalfId) (m : Msg) : g ((b.send h m).half k) = g (b.half k) := by
  unfold Block.send
  split
  · exact Block.onHalf_view g b h k (fun x => hg x _)
  · rfl

/-- An event changes the concentrator alone. -/
theorem Block.raise_view (hg : ∀ x i, g { x with irq := i } = g x) (b : Block) (h k : HalfId) (n : Nat) :
    g ((b.raise h n).half k) = g (b.half k) := by
  unfold Block.raise
  split
  · exact Block.onHalf_view g b h k (fun x => hg x _)
  · rfl

/-- An enable taken changes a half's channels and its pool's accounts alone. -/
theorem Block.takeEnable_view (hg : ∀ x cs pl, g { x with chans := cs, pool := pl } = g x) (b : Block) (h k : HalfId) (c : Nat) :
    g ((b.takeEnable h c).half k) = g (b.half k) := by
  unfold Block.takeEnable
  split
  · rfl
  · split
    · rfl
    · exact Block.onHalf_keeps g (Block.onHalf_keeps g (by simp) (fun x => hg x _ x.pool)) (fun x => hg x x.chans _)

theorem Block.takeAll_view (hg : ∀ x cs pl, g { x with chans := cs, pool := pl } = g x) (b : Block) (h k : HalfId) :
    g ((b.takeAll h).half k) = g (b.half k) :=
  Block.each_view g k (fun a c => a.takeEnable_view g hg h k c) _ b

/-- An enable dropped changes the half's channels alone. -/
theorem Block.dropEnable_view (hg : ∀ x cs, g { x with chans := cs } = g x) (b : Block) (h k : HalfId) (c : Nat) :
    g ((b.dropEnable h c).half k) = g (b.half k) := by
  unfold Block.dropEnable
  split
  · exact Block.onHalf_keeps g (by simp) (fun x => hg x _)
  · rfl

theorem Block.dropAll_view (hg : ∀ x cs, g { x with chans := cs } = g x) (b : Block) (h k : HalfId) :
    g ((b.dropAll h).half k) = g (b.half k) :=
  Block.each_view g k (fun a c => a.dropEnable_view g hg h k c) _ b

end

/-! ### What the halves share -/

/-- A view of the pair that the list's changes leave alone. -/
theorem Block.each_pairView {α β : Type} (g : Pair → α) {f : Block → β → Block} (hf : ∀ a e, g (f a e).pair = g a.pair) (l : List β) (b : Block) :
    g (b.each l f).pair = g b.pair := by
  induction l generalizing b with
  | nil => rfl
  | cons e l ih => exact (ih (f b e)).trans (hf b e)

/-- Enables dropped change the interlock and the pads alone. -/
theorem Block.dropEnable_pairView {α : Type} (g : Pair → α) (hg : ∀ p en pads, g { p with enable := en, pads := pads } = g p) (b : Block)
    (h : HalfId) (c : Nat) : g (b.dropEnable h c).pair = g b.pair := by
  unfold Block.dropEnable
  split
  · obtain ⟨pads, hp⟩ := (b.onPair (fun p => { p with enable := p.enable.drop c })).settlePads_pair [c]
    rw [Block.onHalf_pair, hp]
    exact hg b.pair _ pads
  · rfl

theorem Block.dropEnable_variant (b : Block) (h : HalfId) (c : Nat) : (b.dropEnable h c).variant = b.variant := by
  unfold Block.dropEnable
  split <;> simp

@[simp] theorem Block.dropAll_variant (b : Block) (h : HalfId) : (b.dropAll h).variant = b.variant :=
  Block.each_variant _ (fun a c => a.dropEnable_variant h c) _ b

end Sys2Proof.Machine
end

section
/-!
PROOFS. The reset of a half, and the peg phase (R58, R82, R88, R93, R620, R621, R647, R675).
-/

namespace Sys2Proof.Machine

open Sys2Proof

/-! ### The reset of a half (R620) -/

/-- Bring-up stands still while HRST is low, and without CLK_CORE's lock. -/
theorem Block.resumeBring_of_stopped {b : Block} {h : HalfId} (hs : (b.half h).boot.hrst = true ∨ (b.half h).boot.coreLock = false) :
    b.resumeBring h = b := by
  unfold Block.resumeBring
  rw [if_pos (by rcases hs with hs | hs <;> simp [hs])]

theorem Block.keepLost_view {α : Type} (g : Half → α) (hg : ∀ x m, g { x with mir := m } = g x) (b : Block) (h k : HalfId) :
    g ((b.keepLost h).half k) = g (b.half k) :=
  Block.onHalf_view g b h.twin k (fun y => hg y _)

/-- The block in which a reset half takes its reset values: its enables and what freeze held at its ports are gone. -/
def Block.cleared (b : Block) (h : HalfId) : Block := ((if b.linked then b.keepLost h else b).dropAll h).dropHeld h

@[simp] theorem Block.cleared_variant (b : Block) (h : HalfId) : (b.cleared h).variant = b.variant := by
  simp [Block.cleared, Block.dropHeld, apply_ite Block.variant, Block.keepLost]

theorem Block.cleared_view {α : Type} (g : Half → α) (hg : ∀ x m cs, g { x with mir := m, chans := cs } = g x) (b : Block) (h k : HalfId) :
    g ((b.cleared h).half k) = g (b.half k) := by
  simp only [Block.cleared, Block.dropHeld, Block.onPair_half]
  refine (Block.dropAll_view g (fun x cs => hg x x.mir cs) _ h k).trans ?_
  split
  · exact b.keepLost_view g (fun x m => hg x m x.chans) h k
  · rfl

/-- A brown-out latched for good holds a half that is reset (R622). -/
def Block.stays (b : Block) : Bool := b.pair.latched && !b.earlyLatch

/-- The half as its reset finds its registers, `y` being the half without its enables. -/
def Block.resetTo (b : Block) (h : HalfId) (lock : Bool) (y : Half) : Half :=
  let standby := b.linked || (b.half h).aside
  let z := y.halfReset b.variant (if standby then [] else y.twn.drives) standby (lock && !b.stays) (b.portEnded h)
  { z with store := { z.store with defects := if b.linked then y.store.defects else [] } }

/-- The block with the half at its reset values, before bring-up goes on: an ATTACH under way ends (R600). -/
def Block.resetBase (b : Block) (h : HalfId) (lock : Bool) : Block :=
  let b2 := (b.cleared h).onHalf h (b.resetTo h lock)
  if (b.half h).twn.st = .syncing then b2.onHalf h.twin (fun y => y.onTwn (fun t => { t with st := if y.aside then .standby else .solo })) else b2

theorem Block.resetHalf_eq (b : Block) (h : HalfId) (lock : Bool) : b.resetHalf h lock =
    if b.stays then (b.resetBase h lock).onHalf h (fun y => { y with boot := { y.boot with heldReset := true } })
    else (b.resetBase h lock).resumeBring h := rfl

theorem Block.resetBase_half (b : Block) (h : HalfId) (lock : Bool) : (b.resetBase h lock).half h = b.resetTo h lock ((b.cleared h).half h) := by
  unfold Block.resetBase
  dsimp only
  split <;> simp

/-- The other half keeps what is no part of its link registers, its mirror and its channels. -/
theorem Block.resetBase_twin_view {α : Type} (g : Half → α) (hg : ∀ x m cs t, g { x with mir := m, chans := cs, twn := t } = g x) (b : Block)
    (h : HalfId) (lock : Bool) : g ((b.resetBase h lock).half h.twin) = g (b.half h.twin) := by
  have hclear := b.cleared_view g (fun x m cs => hg x m cs x.twn) h h.twin
  unfold Block.resetBase
  dsimp only
  split
  · exact Block.onHalf_keeps g (by rw [Block.half_onHalf_twin, hclear]) (fun x => hg x x.mir x.chans _)
  · rw [Block.half_onHalf_twin, hclear]

@[simp] theorem Block.resetTo_boot_hrst (b : Block) (h : HalfId) (lock : Bool) (y : Half) : (b.resetTo h lock y).boot.hrst = y.boot.hrst := rfl

@[simp] theorem Block.resetTo_boot_coreLock (b : Block) (h : HalfId) (y : Half) : (b.resetTo h false y).boot.coreLock = false := rfl

/-- A reset that leaves the half held, by HRST or for want of a clock, ends with its registers at their reset values. -/
theorem Block.resetHalf_of_held {b : Block} {h : HalfId} {lock : Bool} (hs : (b.half h).boot.hrst = true ∨ lock = false) :
    b.resetHalf h lock = (b.resetBase h lock).onHalf h (fun y => { y with boot := { y.boot with heldReset := y.boot.heldReset || b.stays } }) := by
  rw [Block.resetHalf_eq]
  cases hstays : b.stays
  · have hboot : ((b.cleared h).half h).boot = (b.half h).boot := b.cleared_view Half.boot (fun _ _ _ => rfl) h h
    rw [if_neg Bool.false_ne_true, Block.resumeBring_of_stopped]
    · refine Block.ext_halves (by simp) (by simp) (by simp) (fun k => ?_)
      simp [Block.half_onHalf_iff]
    · rw [Block.resetBase_half]
      rcases hs with hs | rfl
      · exact .inl (by rw [Block.resetTo_boot_hrst, hboot, hs])
      · exact .inr (Block.resetTo_boot_coreLock b h _)
  · simp

/-- A half held by its reset stands at its reset values, but for its boot record, its place in the twin's order, the port, and the defects flash keeps; of the boot record the
straps and HRST's level stand. -/
theorem Block.resetHalf_half {b : Block} {h : HalfId} {lock : Bool} (hs : (b.half h).boot.hrst = true ∨ lock = false) :
    ∃ (e : Boot) (t : Twin) (d : List Defect) (p : Resp), (b.resetHalf h lock).half h =
        { Half.reset b.variant with boot := e, twn := t, store := { (Half.reset b.variant).store with defects := d }, port := p } ∧
      e.strap = (b.half h).boot.strap ∧ e.latched = (b.half h).boot.latched ∧ e.hrst = (b.half h).boot.hrst ∧
      (lock = false → e.coreLock = false ∧ e.heldReset = true) := by
  have hboot : ((b.cleared h).half h).boot = (b.half h).boot := b.cleared_view Half.boot (fun _ _ _ => rfl) h h
  rw [Block.resetHalf_of_held hs, Block.half_onHalf, Block.resetBase_half, ← hboot]
  exact ⟨_, _, _, _, rfl, rfl, rfl, rfl, fun hl => by subst hl; exact ⟨rfl, rfl⟩⟩

/-- The other half of a pair keeps its queues and records. -/
theorem Block.resetHalf_twin {b : Block} {h : HalfId} {lock : Bool} (hs : (b.half h).boot.hrst = true ∨ lock = false) :
    ((b.resetHalf h lock).half h.twin).que = (b.half h.twin).que ∧ ((b.resetHalf h lock).half h.twin).store = (b.half h.twin).store := by
  rw [Block.resetHalf_of_held hs, Block.half_onHalf_twin]
  exact ⟨b.resetBase_twin_view Half.que (fun _ _ _ _ => rfl) h lock, b.resetBase_twin_view Half.store (fun _ _ _ _ => rfl) h lock⟩

/-- Settles O16: HRST low and a lost lock both leave the half held at its reset values; HRST's rise only resumes bring-up. -/
theorem halfResetClearsTheHalf : Obligations.HalfResetClearsTheHalf := by
  refine fun h s => ⟨fun halive hphase => ?_, fun halive hphase => ?_, fun hlock hstate => ?_⟩
  · let b := s.blk.onHalf h (fun x => { x with boot := { x.boot with hrst := true } })
    have hs : (b.half h).boot.hrst = true ∨ (s.blk.half h).boot.coreLock = false := .inl (by simp [b])
    obtain ⟨e, t, d, p, hx, hstrap, hlatched, hhrst, -⟩ := Block.resetHalf_half hs
    obtain ⟨hque, hstore⟩ := Block.resetHalf_twin hs
    refine ⟨s.withBlock (b.resetHalf h (s.blk.half h).boot.coreLock), ?_, rfl, ?_, ?_⟩
    · simp [exec, execHalfReset, State.withBlock, halive, hphase, b]
    · simp [Block.held, State.withBlock, hx, hhrst, b]
    · dsimp only [State.withBlock]
      rw [hx, hque, hstore]
      simp [b, hstrap, hlatched, show (Half.reset s.blk.variant).store.recs = [] from rfl]
  · simp [exec, execHalfReset, State.withBlock, halive, hphase]
  · obtain ⟨e, t, d, p, hx, -, -, -, hheld⟩ := Block.resetHalf_half (b := s.blk) (h := h) (.inr rfl)
    obtain ⟨hno, hheld⟩ := hheld rfl
    refine ⟨s.withBlock (s.blk.resetHalf h false), ?_, rfl, ?_⟩
    · simp [exec, execPllLockLoss, State.withBlock, hlock, hstate]
    · dsimp only [State.withBlock]
      rw [hx]
      exact ⟨hno, hheld, rfl, rfl⟩

/-! ### The peg phase (R82, R88, R93) -/

/-- Bit by bit, the majority of three samples. -/
theorem majority_getLsbD (p q r : BitVec 16) (k : Nat) : (majority p q r).getLsbD k =
    ((p.getLsbD k && q.getLsbD k) || (p.getLsbD k && r.getLsbD k) || (q.getLsbD k && r.getLsbD k)) := by
  simp [majority]

/-- A bit is split where its three samples are not the same. -/
theorem splitBits_getLsbD (p q r : BitVec 16) (k : Nat) : (splitBits p q r).getLsbD k =
    !((p.getLsbD k == q.getLsbD k) && (q.getLsbD k == r.getLsbD k)) := by
  by_cases hk : k < 16
  · simp only [splitBits, BitVec.getLsbD_and, BitVec.getLsbD_or, BitVec.getLsbD_not, hk, decide_true, Bool.true_and]
    cases p.getLsbD k <;> cases q.getLsbD k <;> cases r.getLsbD k <;> rfl
  · simp [splitBits, BitVec.getLsbD_of_ge _ k (Nat.le_of_not_lt hk)]

/-- Of a half's boot record, what the end of the peg phase latches. -/
def Boot.pegged (t : Boot) : BitVec 16 × BitVec 16 × Bool := (t.strap, t.split, t.latched)

/-- The resolution of the straps chooses channels and states, and leaves what was latched and what the halves share. -/
theorem Block.resolveStraps_pegged (b : Block) (h : HalfId) :
    (b.resolveStraps.half h).boot.pegged = (b.half h).boot.pegged ∧ b.resolveStraps.pair = b.pair := by
  let g := fun x : Half => x.boot.pegged
  unfold Block.resolveStraps Block.takeAbsent
  dsimp only
  split
  · exact ⟨Block.onHalf_keeps g (Block.onHalf_view g b .a h (fun _ => rfl)) (fun _ => rfl), rfl⟩
  · exact ⟨Block.onHalf_keeps g (Block.onHalf_keeps g (Block.onHalf_view g b .a h (fun _ => rfl)) (fun _ => rfl)) (fun _ => rfl), rfl⟩
  · exact ⟨Block.onHalf_keeps g (Block.onHalf_keeps g (Block.onHalf_view g b .a h (fun _ => rfl)) (fun _ => rfl)) (fun _ => rfl), rfl⟩
  · split <;> exact ⟨Block.onHalf_keeps g (Block.onHalf_keeps g (Block.onHalf_keeps g (Block.onHalf_view g b .a h (fun _ => rfl)) (fun _ => rfl))
      (fun _ => rfl)) (fun _ => rfl), rfl⟩

/-- A freeze asked for leaves the boot records and the pins' phase. -/
theorem Block.askFreeze_pegged (b : Block) (cause : Nat) (h : HalfId) :
    ((b.askFreeze cause).half h).boot = (b.half h).boot ∧ (b.askFreeze cause).pair.phase = b.pair.phase := by
  unfold Block.askFreeze
  split
  · exact ⟨rfl, rfl⟩
  · obtain ⟨pads, hp⟩ := b.freeze_pair cause
    refine ⟨?_, by rw [hp]⟩
    unfold Block.freeze
    dsimp only
    exact Block.onHalf_keeps Half.boot (Block.onHalf_keeps Half.boot (by simp) (fun _ => rfl)) (fun _ => rfl)

/-- The half with its straps latched from three samples. -/
def Half.peg (v : Variant) (p q r : BitVec 16) (x : Half) : Half :=
  let w := majority p q r &&& strapMask v
  { x with boot := { x.boot with strap := w, split := splitBits p q r, latched := true, strapErr := strapFault v w,
                                 stage := if strapFault v w then 15 else x.boot.stage, haltCause := if strapFault v w then 7 else 0 } }

/-- The straps latched and the pins parked, before the exchange with the twin. -/
def Block.pegged (b : Block) (h : HalfId) (p q r : BitVec 16) : Block :=
  (b.onHalf h (Half.peg b.variant p q r)).onPair (fun z => { z with phase := .parked })

theorem Block.pegged_half (b : Block) (h : HalfId) (p q r : BitVec 16) :
    ((b.pegged h p q r).half h).boot.pegged = (majority p q r &&& strapMask b.variant, splitBits p q r, true) := by
  rw [Block.pegged, Block.onPair_half, Block.half_onHalf]
  rfl

/-- The exchange with the twin after the straps are latched (R91, R98). -/
def Block.pegExchange (b : Block) (h : HalfId) (link : Bool) : Block :=
  let t := (b.half h.twin).boot
  let c := if t.twinAbsent && !(b.half h).boot.strapErr then b.tooLate h else if t.latched && link then b.resolveStraps else b
  if c.pair.frzPend then c.askFreeze 1 else c

theorem exec_pegPhaseEnd {h : HalfId} {link : Bool} {s : State} {p q r : BitVec 16} (hsamples : (s.blk.half h).boot.samples = [p, q, r])
    (hlatched : (s.blk.half h).boot.latched = false) :
    exec (.pegPhaseEnd h link) s = .next (s.withBlock ((s.blk.pegged h p q r).pegExchange h link)) := by
  have hexec : exec (.pegPhaseEnd h link) s = execPegPhaseEnd h link s := rfl
  rw [hexec, execPegPhaseEnd, run_eq]
  simp only [hsamples, hlatched, State.withBlock, Block.pegExchange, Block.pegged, Block.onPair_half, Block.half_onHalf]
  rfl

/-- The exchange leaves what was latched, and the pins parked. -/
theorem Block.pegExchange_pegged (b : Block) (h : HalfId) (link : Bool) :
    ((b.pegExchange h link).half h).boot.pegged = (b.half h).boot.pegged ∧ (b.pegExchange h link).pair.phase = b.pair.phase := by
  have hlate : ((b.tooLate h).half h).boot.pegged = (b.half h).boot.pegged ∧ (b.tooLate h).pair = b.pair := by
    simp [Block.tooLate, Half.detached, Boot.pegged]
  have hsolve := b.resolveStraps_pegged h
  have hask := fun c : Block => c.askFreeze_pegged 1 h
  unfold Block.pegExchange
  dsimp only
  (repeat' split) <;> simp [hlate, hsolve, hask]

/-- Settles O17: the end of the peg phase latches what the samples give, and nothing that follows in it changes that. -/
theorem pegPhaseLatchesStraps : Obligations.PegPhaseLatchesStraps := by
  refine ⟨fun s hpow hphase => ?_, fun h lines s hphase halive hlatched hsamples => ?_, fun h link s p q r hsamples hlatched => ?_⟩
  · simp [exec, execPegPhaseStart, State.withBlock, hpow, hphase]
  · simp [exec, execPegCycleEnd, State.withBlock, hphase, halive, hlatched, hsamples]
  · obtain ⟨hboot, hphase⟩ := (s.blk.pegged h p q r).pegExchange_pegged h link
    refine ⟨_, exec_pegPhaseEnd hsamples hlatched, rfl, hphase, ?_⟩
    rw [Block.pegged_half, Boot.pegged, Prod.mk.injEq, Prod.mk.injEq] at hboot
    obtain ⟨hstrap, hsplit, hlatch⟩ := hboot
    refine ⟨hlatch, fun k => ?_, fun k => ?_⟩
    · rw [← majority_getLsbD, ← BitVec.getLsbD_and, ← hstrap]
      rfl
    · rw [← splitBits_getLsbD, ← hsplit]
      rfl

end Sys2Proof.Machine
end

section
/-!
PROOFS. The cold reset, and the loss of one half's supply (R620, R673, R675).
-/

namespace Sys2Proof.Machine

open Sys2Proof

/-! ### Tables whose entries all have a property -/

theorem Tab.mem_of_mem_drop {α : Type} {t : Tab α} {k : Nat} {e : Nat × α} (he : e ∈ Tab.drop t k) : e ∈ t := by
  induction t with
  | nil => exact he
  | cons a r ih =>
    unfold Tab.drop at he
    split at he
    · exact List.mem_cons_of_mem _ he
    · split at he
      · exact he
      · rcases List.mem_cons.mp he with rfl | he
        · exact List.mem_cons_self
        · exact List.mem_cons_of_mem _ (ih he)

theorem Tab.mem_put {α : Type} {t : Tab α} {k : Nat} {v : α} {e : Nat × α} (he : e ∈ Tab.put t k v) : e = (k, v) ∨ e ∈ t := by
  induction t with
  | nil => exact .inl (List.mem_singleton.mp he)
  | cons a r ih =>
    unfold Tab.put at he
    split at he
    · exact (List.mem_cons.mp he).imp_right (List.mem_cons_of_mem _)
    · split at he
      · exact List.mem_cons.mp he
      · rcases List.mem_cons.mp he with rfl | he
        · exact .inr List.mem_cons_self
        · exact (ih he).imp_right (List.mem_cons_of_mem _)

/-- An entry set is the table's own or the one put there. -/
theorem Tab.mem_set {α : Type} [DecidableEq α] {d : α} {t : Tab α} {k : Nat} {v : α} {e : Nat × α} (he : e ∈ Tab.set d t k v) :
    e = (k, v) ∨ e ∈ t := by
  unfold Tab.set at he
  split at he
  · exact .inr (Tab.mem_of_mem_drop he)
  · exact Tab.mem_put he

/-- What a table shows at a key is its default or one of its entries. -/
theorem Tab.get_mem {α : Type} (d : α) (t : Tab α) (k : Nat) : Tab.get d t k = d ∨ ∃ i, (i, Tab.get d t k) ∈ t := by
  induction t with
  | nil => exact .inl rfl
  | cons a r ih =>
    unfold Tab.get
    split
    · exact .inr ⟨_, List.mem_cons_self⟩
    · split
      · exact .inl rfl
      · exact ih.imp_right (fun ⟨i, hi⟩ => ⟨i, List.mem_cons_of_mem _ hi⟩)

/-- What a table holds for a key is one of its entries. -/
theorem Tab.mem_of_find {α : Type} {t : Tab α} {k : Nat} {v : α} (hk : t.find? k = some v) : (k, v) ∈ t := by
  induction t with
  | nil => cases hk
  | cons a r ih =>
    unfold Tab.find? at hk
    split at hk
    · next hi => cases hk; exact List.mem_cons.mpr (.inl (by rw [← hi]))
    · split at hk
      · cases hk
      · exact List.mem_cons_of_mem _ (ih hk)

/-- Where the keys rise, each entry is what the table holds for its key. -/
theorem Tab.find_of_mem {α : Type} {t : Tab α} {lo k : Nat} {v : α} (ht : Tab.risingFrom lo t = true) (hk : (k, v) ∈ t) :
    lo ≤ k ∧ t.find? k = some v := by
  induction t generalizing lo with
  | nil => cases hk
  | cons a r ih =>
    obtain ⟨i, w⟩ := a
    simp only [Tab.risingFrom, Bool.and_eq_true, decide_eq_true_eq] at ht
    obtain ⟨hlo, hr⟩ := ht
    rcases List.mem_cons.mp hk with heq | hk
    · cases heq
      exact ⟨hlo, by simp [Tab.find?]⟩
    · obtain ⟨hi, hfind⟩ := ih hr hk
      refine ⟨by omega, ?_⟩
      rw [Tab.find?, if_neg (by omega), if_neg (by omega), hfind]

theorem Tab.ne_of_mem_drop {α : Type} {t : Tab α} {k : Nat} {e : Nat × α} (ht : Tab.risingFrom 0 t = true) (he : e ∈ t.drop k) : e.1 ≠ k := by
  rintro rfl
  have hsome := (Tab.find_of_mem (Tab.rising_drop e.1 ht) he).2
  rw [Tab.find_drop_same e.1 ht] at hsome
  cases hsome

/-! ### The cold reset (R620) -/

/-- A pad ring as PORST_n low leaves it. -/
theorem PadRing.select_none_source (r : PadRing) : (r.select none).source = none := by
  unfold PadRing.select
  split
  · assumption
  · rfl

/-- Every channel is parked with WP_n low. -/
theorem Block.cold_pad (b : Block) (on : Bool) (c : Nat) : ((b.cold on).pair.pad c).wp = false ∧ ((b.cold on).pair.pad c).source = none := by
  have hall : ∀ (l : Tab PadRing) (t : Tab PadRing), (∀ e ∈ t, e.2.wp = false ∧ e.2.source = none) →
      ∀ e ∈ l.foldl (fun (t : Tab PadRing) e => Tab.set PadRing.reset t e.1 { e.2.select none with wp := false }) t,
        e.2.wp = false ∧ e.2.source = none := by
    intro l
    induction l with
    | nil => exact fun t ht => ht
    | cons a l ih =>
      refine fun t ht => ih _ (fun e he => ?_)
      rcases Tab.mem_set he with rfl | he
      · exact ⟨rfl, a.2.select_none_source⟩
      · exact ht e he
  rcases Tab.get_mem PadRing.reset (b.cold on).pair.pads c with hc | ⟨i, hi⟩
  · rw [Pair.pad, hc]
    exact ⟨rfl, rfl⟩
  · exact hall _ [] (fun e he => by cases he) _ hi

/-! ### The loss of a half's supply (R675) -/

theorem Block.dropEnable_enable {b : Block} (hf : b.pair.frozen = false) (h : HalfId) (c : Nat) :
    (b.dropEnable h c).pair.enable = if b.enabled h c then b.pair.enable.drop c else b.pair.enable := by
  unfold Block.dropEnable
  cases b.enabled h c
  · rfl
  · obtain ⟨pads, hp⟩ := (b.onPair (fun p => { p with enable := p.enable.drop c })).settlePads_pair [c]
    simp [hf, hp]

/-- Outside a freeze, the drops of a list of channels leave enables rising, and none of the half's on those channels. -/
theorem Block.each_dropEnable (h : HalfId) (l : List Nat) (b : Block) (hf : b.pair.frozen = false) (hok : b.EnablesOk) :
    ∀ e ∈ (b.each l (fun a c => a.dropEnable h c)).pair.enable, e ∈ b.pair.enable ∧ (e.1 ∈ l → e.2 ≠ h) := by
  induction l generalizing b with
  | nil => exact fun e he => ⟨he, fun hl => by cases hl⟩
  | cons c l ih =>
    have hfrozen : (b.dropEnable h c).pair.frozen = false := (b.dropEnable_pairView Pair.frozen (fun _ _ _ => rfl) h c).trans hf
    have henable := Block.dropEnable_enable hf h c
    have hrising : (b.dropEnable h c).EnablesOk := by
      rw [Block.EnablesOk, henable]
      split
      · exact Tab.rising_drop c hok
      · exact hok
    intro e he
    obtain ⟨hmem, hl⟩ := ih (b.dropEnable h c) hfrozen hrising e he
    rw [henable] at hmem
    split at hmem
    · refine ⟨Tab.mem_of_mem_drop hmem, fun hc => ?_⟩
      rcases List.mem_cons.mp hc with hc | hc
      · exact absurd hc (Tab.ne_of_mem_drop hok hmem)
      · exact hl hc
    · next hno =>
      refine ⟨hmem, fun hc => ?_⟩
      rcases List.mem_cons.mp hc with rfl | hc
      · rintro rfl
        exact hno (decide_eq_true (Tab.find_of_mem hok hmem).2)
      · exact hl hc

/-- Outside a freeze, a half that drops every enable holds none. -/
theorem Block.enabled_dropAll {b : Block} (hf : b.pair.frozen = false) (hok : b.EnablesOk) (h : HalfId) (c : Nat) :
    (b.dropAll h).enabled h c = false := by
  refine decide_eq_false (fun hfind => ?_)
  obtain ⟨hmem, hl⟩ := b.each_dropEnable h _ hf hok (c, h) (Tab.mem_of_find hfind)
  exact hl (List.mem_map.mpr ⟨(c, h), List.mem_filter.mpr ⟨hmem, by simp⟩, rfl⟩) rfl

/-- Settles O15: the cold reset is read off its definition; a half without VDD_AON has dropped its enables before it takes its reset values. -/
theorem coldResetsClearThePair : Obligations.ColdResetsClearThePair := by
  refine ⟨fun s on => ⟨?_, rfl, rfl, rfl, rfl, rfl, rfl, rfl, rfl, rfl, rfl, fun ch => s.blk.cold_pad on ch, fun h => ?_⟩, fun h s hf hok => ?_⟩
  · cases on <;> rfl
  · cases h <;> rfl
  · refine ⟨s.withBlock (s.blk.unpower h), rfl, rfl, ?_, fun c => ?_, ?_⟩
    · simp [Block.alive, State.withBlock, Block.unpower]
    · have hkeep : (if s.blk.linked then s.blk.keepLost h else s.blk).pair = s.blk.pair := by
        split
        · exact Block.onHalf_pair _ _ _
        · rfl
      have hdrop := Block.enabled_dropAll (b := if s.blk.linked then s.blk.keepLost h else s.blk) (by rw [hkeep, hf])
        (by rw [Block.EnablesOk, hkeep]; exact hok) h c
      simpa [State.withBlock, Block.unpower, Block.enabled, Block.dropHeld] using hdrop
    · simp only [State.withBlock, Block.unpower, Block.half_onHalf]
      exact ⟨rfl, rfl, rfl⟩

end Sys2Proof.Machine
end

section
/-!
PROOFS. The clocks of bring-up, the groundsheet fill and the input pins (R73, R91, R92, R139, R470, R498, R530, R548, R549, R620, R626).
-/

namespace Sys2Proof.Machine

open Sys2Proof

/-! ### Going on to discovery (R626 step 4) -/

@[simp] theorem Block.keepTaken_pair (b : Block) (h : HalfId) : (b.keepTaken h).pair = b.pair := by
  unfold Block.keepTaken
  dsimp only
  split
  · split <;> simp
  · rfl

section
variable {α : Type} (g : Pair → α) (hg : ∀ p en r pads, g { p with enable := en, ranPhase := r, pads := pads } = g p)
include hg

theorem Block.takeEnable_pairView (b : Block) (h : HalfId) (c : Nat) : g (b.takeEnable h c).pair = g b.pair := by
  unfold Block.takeEnable
  split
  · rfl
  · split
    · rfl
    · rw [Block.notePool_pair, Block.onHalf_pair]
      obtain ⟨pads, hp⟩ := Block.settlePads_pair (b.onPair (fun p => ({ p with enable := p.enable.put c h, ranPhase := true } : Pair).onPad c
        (fun r => { r with wp := r.wp || (b.half h).drivesWpHigh }))) [c]
      rw [hp]
      exact hg b.pair _ true pads

theorem Block.takeAll_pairView (b : Block) (h : HalfId) : g (b.takeAll h).pair = g b.pair :=
  Block.each_pairView g (fun a c => a.takeEnable_pairView g hg h c) _ b

theorem Block.driveWp_pairView (b : Block) (h : HalfId) (on : Bool) : g (b.driveWp h on).pair = g b.pair := by
  refine List.foldlRecOn (motive := fun p => g p = g b.pair) _ _ rfl (fun p hp c _ => ?_)
  exact (hg p p.enable p.ranPhase _).trans hp

/-- Going on to discovery changes the interlock, the run phase and the pads alone. -/
theorem Block.goDiscover_pairView (b : Block) (h : HalfId) : g (b.goDiscover h).pair = g b.pair := by
  unfold Block.goDiscover Block.enterDiscovery
  split
  · rw [Block.onHalf_pair, Block.keepTaken_pair, Block.driveWp_pairView g hg, Block.takeAll_pairView g hg]
  · rfl

end

section
variable {α : Type} (g : Half → α)
  (hg : ∀ x cs pl t i n a, g { x with chans := cs, pool := pl, twn := t, irq := i, boot := { x.boot with stage := n, twinAbsent := a } } = g x)
include hg

theorem Block.keepTaken_view (b : Block) (h k : HalfId) : g ((b.keepTaken h).half k) = g (b.half k) := by
  unfold Block.keepTaken
  dsimp only
  have hdrive := fun l : Half → List Nat => b.onHalf_view g h k (f := fun x => x.drive (l x)) (fun x => hg x x.chans x.pool _ x.irq x.boot.stage x.boot.twinAbsent)
  split
  · split
    · exact hdrive _
    · refine (Block.raise_view g (fun x i => hg x x.chans x.pool x.twn i x.boot.stage x.boot.twinAbsent) _ h k 105).trans ?_
      exact Block.onHalf_keeps g (hdrive _) (fun x => hg x x.chans x.pool _ x.irq x.boot.stage _)
  · rfl

/-- Going on to discovery changes a half's channels, pool accounts, link registers, interrupts and stage alone. -/
theorem Block.goDiscover_view (b : Block) (h k : HalfId) : g ((b.goDiscover h).half k) = g (b.half k) := by
  unfold Block.goDiscover Block.enterDiscovery
  split
  · refine Block.onHalf_keeps g ?_ (fun x => hg x x.chans x.pool x.twn x.irq 2 x.boot.twinAbsent)
    rw [Block.keepTaken_view g hg]
    refine (congrArg g (Block.onPair_half _ _ k)).trans ?_
    exact b.takeAll_view g (fun x cs pl => hg x cs pl x.twn x.irq x.boot.stage x.boot.twinAbsent) h k
  · rfl

end

/-- A half whose fill has still to come stays at its step. -/
theorem Block.goDiscover_of_unfilled {b : Block} {h : HalfId} (hg : groundsheet (b.half h).boot.strap = true)
    (hfill : (b.half h).boot.filled = false) : b.goDiscover h = b := by
  unfold Block.goDiscover
  rw [if_neg (by simp [Half.fillDone, hg, hfill])]

/-! ### PLLs and the fill (R470, R530, R626) -/

/-- The lock of CLK_CORE taken by a half that waits for it. -/
def Block.coreLocked (b : Block) (h : HalfId) : Block :=
  (b.onHalf h (fun x => { x with boot := { x.boot with coreLock := true, heldReset := false } })).onPair (fun p =>
    if p.frozen then p else { p with budget := p.budgetIn })

/-- Resuming bring-up keeps what the lock of CLK_CORE has set. -/
theorem Block.resumeBring_view {α : Type} (g : Half → α)
    (hg : ∀ x cs pl t i w n a, g { x with chans := cs, pool := pl, twn := t, irq := i, win := w, boot := { x.boot with stage := n, twinAbsent := a } } = g x)
    (b : Block) (h k : HalfId) : g ((b.resumeBring h).half k) = g (b.half k) := by
  unfold Block.resumeBring
  dsimp only
  split
  · rfl
  · split
    · rw [Block.goDiscover_view g (fun x cs pl t i n a => hg x cs pl t i x.win n a)]
      exact Block.onHalf_view g b h k (fun x => hg x x.chans x.pool x.twn _ _ 1 x.boot.twinAbsent)
    · rfl

theorem Block.resumeBring_pairView {α : Type} (g : Pair → α) (hg : ∀ p en r pads, g { p with enable := en, ranPhase := r, pads := pads } = g p)
    (b : Block) (h : HalfId) : g (b.resumeBring h).pair = g b.pair := by
  unfold Block.resumeBring
  dsimp only
  split
  · rfl
  · split
    · rw [Block.goDiscover_pairView g hg, Block.onHalf_pair]
    · rfl

/-- With its fill still to come, a half whose clock runs and whose HRST is high stands at the fill step. -/
theorem Block.resumeBring_stage {b : Block} {h : HalfId} (hf : b.pair.frozen = false) (hlock : (b.half h).boot.coreLock = true)
    (hheld : (b.half h).boot.heldReset = false) (hhrst : (b.half h).boot.hrst = false) (hlatched : (b.half h).boot.latched = true)
    (hstage : (b.half h).boot.stage ≤ 1) (hsheet : groundsheet (b.half h).boot.strap = true) (hfill : (b.half h).boot.filled = false) :
    ((b.resumeBring h).half h).boot.stage = 1 := by
  unfold Block.resumeBring
  dsimp only
  rw [if_neg (by simp [hf, hlock, hheld, hhrst, hlatched]), if_pos (by simpa using Nat.le_one_iff_eq_zero_or_eq_one.mp hstage),
    Block.goDiscover_of_unfilled]
  · rw [Block.half_onHalf]
    rfl
  · rw [Block.half_onHalf]
    exact hsheet
  · rw [Block.half_onHalf]
    exact hfill

/-- A memory filled shows every word written, and another is untouched. -/
theorem Half.mem_fill (x : Half) (m n : Nat) : (x.onMem m (fun z => { z.fill with poisoned := [] })).mem n =
    if n = m then { (x.mem m).fill with poisoned := [] } else x.mem n := by
  have hne : { (x.mem m).fill with poisoned := [] } ≠ Mem.reset := fun he => absurd (congrArg Mem.allWritten he) (by simp [Mem.fill, Mem.reset])
  simp only [Half.mem, Half.onMem, Tab.modify, Tab.set] at hne ⊢
  rw [if_neg hne]
  split
  · next hn => rw [hn, Tab.get_put_same]
  · next hn => rw [Tab.get_put_ne _ _ hn]

theorem Half.fillAll_mem (x : Half) {m : Nat} (hm : m < 5) : (x.fillAll.mem m).allWritten = true ∧ (x.fillAll.mem m).poisoned = [] := by
  have hkeep : ∀ (l : List Nat) (y : Half), m ∈ l ∨ ((y.mem m).allWritten = true ∧ (y.mem m).poisoned = []) →
      let z := l.foldl (fun y m => y.onMem m (fun z => { z.fill with poisoned := [] })) y
      (z.mem m).allWritten = true ∧ (z.mem m).poisoned = [] := by
    intro l
    induction l with
    | nil => exact fun y hy => hy.resolve_left (by simp)
    | cons n l ih =>
      refine fun y hy => ih _ ?_
      rw [Half.mem_fill]
      by_cases hn : m = n
      · rw [if_pos hn]
        exact .inr ⟨rfl, rfl⟩
      · rw [if_neg hn]
        exact hy.imp_left (fun hmem => (List.mem_cons.mp hmem).resolve_left hn)
  exact hkeep (List.range 5) x (.inl (List.mem_range.mpr hm))

/-- Settles O18: a lock takes effect by what it belongs to; that of CLK_CORE is resumed from, and bring-up keeps it. -/
theorem clocksAndFill : Obligations.ClocksAndFill := by
  refine ⟨fun h s hlatched halive hfailed => ⟨?_, fun c hc => ?_, fun hlock hheld => ?_, fun p hf htries => ?_, fun p hf htries => ?_⟩,
    fun h s hsheet hfill hruns hstage => ?_, fun x m hm => x.fillAll_mem hm⟩
  · simp [exec, execPllLock, State.withBlock, hlatched, halive, hfailed]
  · have hexec : exec (.pllLock h (.phy c)) s = execPllLock h (.phy c) s := rfl
    simp only [hexec, execPllLock, run_eq, State.withBlock, hlatched, halive, hfailed, Bool.not_true, Bool.or_self, Bool.false_eq_true, if_false]
    congr 2
    exact Block.onHalf_congr (by simp only [hc]; rfl)
  · have hboot := (s.blk.coreLocked h).resumeBring_view (fun x => (x.boot.coreLock, x.boot.heldReset)) (fun _ _ _ _ _ _ _ _ => rfl) h h
    rw [Block.coreLocked, Block.onPair_half, Block.half_onHalf] at hboot
    refine ⟨s.withBlock ((s.blk.coreLocked h).resumeBring h), ?_, rfl, congrArg Prod.fst hboot, congrArg Prod.snd hboot, fun hf => ?_,
      fun hf hhrst hstage hsheet hfill => ?_⟩
    · rcases hheld with hno | hno | hno <;> simp [exec, execPllLock, State.withBlock, hlatched, halive, hfailed, hlock, hno, Block.coreLocked]
    · refine ((s.blk.coreLocked h).resumeBring_pairView Pair.budget (fun _ _ _ _ => rfl) h).trans ?_
      simp [Block.coreLocked, hf]
    · refine Block.resumeBring_stage ?_ ?_ ?_ ?_ ?_ ?_ ?_ ?_ <;> simp [Block.coreLocked, hf, hhrst, hlatched, hstage, hsheet, hfill]
  · simp [exec, execPllLockTimeout, State.withBlock, hlatched, halive, hfailed, hf, htries]
  · simp [exec, execPllLockTimeout, State.withBlock, hlatched, halive, hfailed, hf, htries, Block.halfFault]
  · simp [exec, execGroundsheetFill, State.withBlock, hsheet, hfill, hruns, hstage]

/-! ### The input pins (R73, R139, R498, R548, R549) -/

/-- An early brown-out discarded leaves none latched. -/
theorem Block.discardEarly_latched (b : Block) : b.discardEarly.pair.latched = false := by
  unfold Block.discardEarly
  dsimp only
  rw [Block.goDiscover_pairView Pair.latched (fun _ _ _ _ => rfl), Block.goDiscover_pairView Pair.latched (fun _ _ _ _ => rfl)]
  rfl

/-- Settles O19: each pin's edge by what it finds, and UPDATE_EN by what the half held of it. -/
theorem inputPins : Obligations.InputPins := by
  refine ⟨fun s hhold => ?_, fun s on => ?_, fun b h => ⟨fun hruns => ?_, fun hruns hlevel => ?_, fun hruns hheld hlow => ?_⟩, fun value s hf => ?_,
    fun value s hf => ?_, fun h s hlatched herr hans habsent hdet hf => ?_, fun s hlatched hran hdone => ⟨fun hbo => ?_, fun hbo => ?_⟩⟩
  · simp [exec, execBrownoutFall, State.withBlock, hhold]
  · cases on <;> rfl
  · simp [Block.syncUpdate, hruns]
  · have hstop : ¬ ((b.half h).win.updateEn && !b.pair.updateEn) = true := by rcases hlevel with hl | hl <;> simp [hl]
    rw [Block.syncUpdate, if_pos hruns, if_neg hstop]
    rfl
  · rw [Block.syncUpdate, if_pos hruns, if_pos (by simp [hheld, hlow]), hlow]
    rfl
  · simp [exec, execBudgetTgl, State.withBlock, hf]
    rfl
  · simp [exec, execBudgetTgl, State.withBlock, hf]
  · simp [exec, execTwinAnswerTimeout, State.withBlock, hlatched, herr, hans, habsent, hdet, hf, Block.takeAbsent, Half.drive]
  · rcases hdone with hd | hd <;> simp [exec, execEarlyBrownoutDiscard, State.withBlock, Block.earlyLatch, hlatched, hran, hd, hbo]
  · refine ⟨s.withBlock s.blk.discardEarly, ?_, rfl, s.blk.discardEarly_latched⟩
    rcases hdone with hd | hd <;> simp [exec, execEarlyBrownoutDiscard, State.withBlock, Block.earlyLatch, hlatched, hran, hd, hbo]

end Sys2Proof.Machine
end

section
/-!
PROOFS. What the journal, the end of a command and the fall of UPDATE_EN leave alone: the power controller, the boot record and, but for events raised, the concentrator of each half,
and of the pair all but its groups (R139, R553, R579).
-/

namespace Sys2Proof.Machine

open Sys2Proof

/-- What of a half no change of queues, records, channels, journals or link registers touches. -/
def Half.calmPart (x : Half) : Irq × Power × Boot × Bool := (x.irq, x.pwr, x.boot, x.win.prefetch)

/-- A property of the block that no change of queues, records, channels, journals or link registers touches, and that events raised and changes noted for a group keep. -/
structure Calm (Q : Block → Prop) : Prop where
  onHalf : ∀ (b : Block) (h : HalfId) (f : Half → Half), Q b → (∀ x, (f x).calmPart = x.calmPart) → Q (b.onHalf h f)
  raise : ∀ (b : Block) (h : HalfId) (n : Nat), Q b → Q (b.raise h n)
  groups : ∀ (b : Block) (gs : Tab Group), Q b → Q (b.onPair (fun p => { p with groups := gs }))

theorem Block.each_keeps {α : Type} {Q : Block → Prop} {f : Block → α → Block} (hf : ∀ a e, Q a → Q (f a e)) (l : List α) {b : Block} (hb : Q b) :
    Q (b.each l f) := List.foldlRecOn (motive := Q) l f hb (fun a ha e _ => hf a e ha)

section
variable {Q : Block → Prop} (hQ : Calm Q)
include hQ

theorem Calm.onCtx {b : Block} (hb : Q b) (seq : Nat) (f : Ctx → Ctx) : Q (b.onCtx seq f) :=
  hQ.onHalf _ _ _ (hQ.onHalf _ _ _ hb (fun _ => rfl)) (fun _ => rfl)

theorem Calm.send {b : Block} (hb : Q b) (h : HalfId) (m : Msg) : Q (b.send h m) := by
  unfold Block.send
  split
  · exact hQ.onHalf _ _ _ hb (fun _ => rfl)
  · exact hb

theorem Calm.awaitLink {b : Block} (hb : Q b) (h : HalfId) (seq : Nat) : Q (b.awaitLink h seq) := by
  unfold Block.awaitLink
  cases b.ackOf h with
  | none => exact hb
  | some n => exact hQ.onCtx hb seq _

theorem Calm.shareProgress {b : Block} (hb : Q b) (h : HalfId) (seq : Nat) : Q (b.shareProgress h seq) := by
  unfold Block.shareProgress
  split
  · exact hb
  · exact hQ.onHalf _ _ _ hb (fun _ => rfl)

theorem Calm.appendJrnl {b : Block} (hb : Q b) (h : HalfId) (seq : Option Nat) (l : List JEntry) : Q (b.appendJrnl h seq l) := by
  have h1 : Q (b.onHalf h (fun x => x.onFly (fun f => { f with journal := f.journal ++ asRecord l }))) :=
    hQ.onHalf _ _ _ hb (fun _ => rfl)
  unfold Block.appendJrnl
  dsimp only
  cases seq with
  | none =>
    refine hQ.send ?_ h _
    split
    · exact hQ.onHalf _ _ _ h1 (fun _ => rfl)
    · exact h1
  | some q =>
    have h2 := hQ.shareProgress (hQ.onCtx h1 q (fun c => { c.noteChange (asRecord l) with waitJrnl := false })) h q
    refine hQ.awaitLink (hQ.send ?_ h _) h q
    split
    · exact hQ.onHalf _ _ _ h2 (fun _ => rfl)
    · exact h2

theorem Calm.journal {b : Block} (hb : Q b) (h : HalfId) (seq : Option Nat) (es : List JEntry) : Q (b.journal h seq es) := by
  unfold Block.journal
  dsimp only
  split
  · exact hQ.appendJrnl hb h seq es
  · have h0 : Q (b.onHalf h (fun x => x.onFly (fun f => { f with waiting := f.waiting ++ [(seq, es)], stall := true }))) :=
      hQ.onHalf _ _ _ hb (fun _ => rfl)
    cases seq with
    | none =>
      split
      · exact h0
      · exact hQ.raise _ h 117 h0
    | some q =>
      split
      · exact hQ.onCtx h0 q _
      · exact hQ.raise _ h 117 (hQ.onCtx h0 q _)

theorem Calm.noteChange {b : Block} (hb : Q b) (e : JEntry) (i : Nat) : Q (b.onPair (fun p => p.noteChange e i)) := by
  unfold Pair.noteChange Block.onPair
  dsimp only
  split
  · exact hb
  · exact hQ.groups b _ hb

theorem Calm.updRec {b : Block} (hb : Q b) (h : HalfId) (seq : Option Nat) (i group gseq : Nat) (freed : Bool) (f : Rec → Rec) :
    Q (b.updRec h seq i group gseq freed f) := by
  exact hQ.journal (hQ.onHalf _ h (fun x => x.setRec i (f ((b.half h).rec? i))) (hQ.noteChange hb _ i) (fun _ => rfl)) h seq _

theorem Calm.finish {b : Block} (hb : Q b) (h : HalfId) (seq : Nat) (st : Status) (result : Nat) : Q (b.finish h seq st result) := by
  refine hQ.awaitLink (hQ.send (hQ.onHalf b h (fun x => x.onCtx seq _) hb (fun _ => rfl)) h _) h seq

theorem Calm.refuse {b : Block} (hb : Q b) (h : HalfId) (seq : Nat) (st : Status) : Q (b.refuse h seq st) := hQ.finish hb h seq st 0

theorem Calm.withdraw {b : Block} (hb : Q b) (seq i : Nat) : Q (b.withdraw seq i) := by
  unfold Block.withdraw
  split
  · exact hb
  · exact hQ.onHalf _ _ _ hb (fun _ => rfl)

theorem Calm.pushOps {b : Block} (hb : Q b) (i : Nat) (l : List DieOp) : Q (b.pushOps i l) := by
  unfold Block.pushOps
  split
  · exact hb
  · exact hQ.onHalf _ _ _ hb (fun _ => rfl)

theorem Calm.pump {b : Block} (hb : Q b) (i : Nat) : Q (b.pump i) := by
  unfold Block.pump
  split
  · exact hb
  · refine Block.each_keeps (fun a g ha => ?_) _ hb
    split
    · exact ha
    · exact hQ.pushOps (hQ.onCtx ha _ _) i _

/-- A command stopped by the fall of UPDATE_EN (R139). -/
theorem Calm.lockOut {b : Block} (hb : Q b) (h : HalfId) (seq : Nat) (c : Ctx) : Q (b.lockOut h seq c) := by
  unfold Block.lockOut Block.lockOutProgram Block.lockOutErase
  split
  · exact hb
  · split
    · split
      · exact hQ.pump (hQ.onCtx (hQ.withdraw hb _ _) _ _) _
      · exact hb
    · split
      · exact hQ.pump (hQ.onCtx (hQ.withdraw hb _ _) _ _) _
      · exact hb
    · split
      · split
        · exact hQ.refuse (hQ.updRec (hQ.withdraw hb _ _) _ _ _ _ _ _ _) _ _ _
        · exact hb
      · exact hb
    · split
      · exact hQ.refuse (hQ.withdraw hb _ _) _ _ _
      · exact hb
    · exact hb

theorem Calm.stopUpdates {b : Block} (hb : Q b) (h : HalfId) : Q (b.stopUpdates h) := by
  unfold Block.stopUpdates
  exact Block.each_keeps (Q := Q) (fun _ e ha => hQ.lockOut ha h e.1 e.2) _ hb

theorem Calm.syncUpdate {b : Block} (hb : Q b) (h : HalfId) : Q (b.syncUpdate h) := by
  have h1 : Q (b.onHalf h (fun x => x.onWin (fun w => { w with updateEn := b.pair.updateEn }))) := hQ.onHalf _ _ _ hb (fun _ => rfl)
  unfold Block.syncUpdate
  split
  · dsimp only
    split
    · exact hQ.stopUpdates h1 h
    · exact h1
  · exact hb

end

end Sys2Proof.Machine
end

section
/-!
PROOFS. Thaw: what it leaves of the pair, and which halves it wakes (R511, R545, R617, R618, R619).
-/

namespace Sys2Proof.Machine

open Sys2Proof

/-! ### What a thaw leaves of the pair -/

/-- A property of the pair that the interlock, the pads, the groups, and the take of BUDGET at a wake keep. -/
structure Pair.Steady (P : Pair → Prop) : Prop where
  interlock : ∀ p en r pads, P p → P { p with enable := en, ranPhase := r, pads := pads }
  groups : ∀ p gs, P p → P { p with groups := gs }
  budget : ∀ p : Pair, P p → P { p with budget := p.budgetIn }

theorem Pair.Steady.calm {P : Pair → Prop} (hP : Pair.Steady P) : Calm (fun b => P b.pair) where
  onHalf b h f hb _ := by rwa [Block.onHalf_pair]
  raise b h n hb := by rwa [Block.raise_pair]
  groups b gs hb := hP.groups b.pair gs hb

/-- The part of the pair apart from the interlock, the run phase and the pads. -/
def Pair.rest (p : Pair) : Pair := { p with enable := [], ranPhase := false, pads := [] }

theorem Pair.eq_of_rest {p q : Pair} (hr : p.rest = q.rest) : p = { q with enable := p.enable, ranPhase := p.ranPhase, pads := p.pads } := by
  cases p
  cases q
  simp only [Pair.rest, Pair.mk.injEq] at hr ⊢
  simp [hr]

theorem Pair.Steady.of_rest {P : Pair → Prop} (hP : Pair.Steady P) {p q : Pair} (hr : p.rest = q.rest) (hq : P q) : P p := by
  rw [Pair.eq_of_rest hr]
  exact hP.interlock q _ _ _ hq

theorem Block.settlePads_rest (b : Block) (l : List Nat) : (b.settlePads l).pair.rest = b.pair.rest := by
  obtain ⟨pads, hp⟩ := b.settlePads_pair l
  rw [hp]
  rfl

theorem Block.padsThawed_rest (b : Block) : b.padsThawed.pair.rest = b.pair.rest := by
  unfold Block.padsThawed
  rw [Block.settlePads_rest]
  exact Block.each_pairView Pair.rest (fun a (e : Nat × HalfId) => a.dropEnable_pairView Pair.rest (fun _ _ _ => rfl) e.2 e.1) _ b

/-! ### A wake -/

/-- A half awake again with its enables taken, before its twin is told (R537). -/
def Block.woken (b : Block) (h : HalfId) (cause : Nat) : Block :=
  let n := (b.half h).pwr.state
  let b1 := b.onHalf h (fun y =>
    let z := { y with pwr := { y.pwr with state := 0, wakeCause := cause, entering := false }, win := { y.win with updateEn := b.pair.updateEn } }
    if n = 4 then z.afterPs4 b.variant else z)
  (if 2 ≤ n then b1.takeAll h else b1).onHalf h (fun y =>
    let z := if n = 1 then y else y.onDriven (fun k => k.askRetrain (decide (3 ≤ n)))
    (z.onDriven Chan.pollAll).countLatched)

theorem Block.wakeOne_of_asleep {b : Block} {h : HalfId} (hn : (b.half h).pwr.state ≠ 0) (cause : Nat) : b.wakeOne h cause =
    if 2 ≤ (b.half h).pwr.state then
      (((b.woken h cause).onPair (fun p => { p with budget := p.budgetIn })).send h .awake).raise h 112
    else if (b.half h).falling then (b.woken h cause).send h .awake else b.woken h cause := by
  unfold Block.wakeOne
  dsimp only
  rw [if_neg hn]
  rfl

theorem Block.woken_rest (b : Block) (h : HalfId) (cause : Nat) : (b.woken h cause).pair.rest = b.pair.rest := by
  unfold Block.woken
  dsimp only
  rw [Block.onHalf_pair]
  split
  · rw [Block.takeAll_pairView Pair.rest (fun _ _ _ _ => rfl), Block.onHalf_pair]
  · rw [Block.onHalf_pair]

theorem Half.onDriven_view {α : Type} (g : Half → α) (hg : ∀ x cs, g { x with chans := cs } = g x) (x : Half) (f : Chan → Chan) :
    g (x.onDriven f) = g x :=
  List.foldlRecOn (motive := fun y => g y = g x) x.twn.drives _ rfl (fun y hy _ _ => (hg y _).trans hy)

/-- A half that is woken is in PS0. -/
theorem Block.woken_state (b : Block) (h : HalfId) (cause : Nat) : ((b.woken h cause).half h).pwr.state = 0 := by
  have hchan := fun x f => Half.onDriven_view Half.pwr (fun _ _ => rfl) x f
  have hclock : ∀ z : Half, z.pwr.state = 0 → (if (b.half h).pwr.state = 4 then z.afterPs4 b.variant else z).pwr.state = 0 := by
    intro z hz
    split <;> exact hz
  unfold Block.woken
  dsimp only
  rw [Block.half_onHalf]
  refine (congrArg Power.state (hchan _ Chan.pollAll)).trans ?_
  have hbase : ∀ c : Block, (c.half h).pwr.state = 0 → ((if 2 ≤ (b.half h).pwr.state then c.takeAll h else c).half h).pwr.state = 0 := by
    intro c hc
    split
    · exact (congrArg Power.state (c.takeAll_view Half.pwr (fun _ _ _ => rfl) h h)).trans hc
    · exact hc
  split
  · exact hbase _ (by rw [Block.half_onHalf]; exact hclock _ rfl)
  · exact (congrArg Power.state (hchan _ _)).trans (hbase _ (by rw [Block.half_onHalf]; exact hclock _ rfl))

/-- A wake ends in PS0. -/
theorem Block.wakeOne_state (b : Block) (h : HalfId) (cause : Nat) : ((b.wakeOne h cause).half h).pwr.state = 0 := by
  by_cases hn : (b.half h).pwr.state = 0
  · unfold Block.wakeOne
    dsimp only
    rw [if_pos hn]
    split
    · rw [Block.half_onHalf]
      exact hn
    · exact hn
  · have hsend := fun c : Block => c.send_view Half.pwr (fun _ _ => rfl) h h .awake
    have hwoken := b.woken_state h cause
    rw [Block.wakeOne_of_asleep hn]
    split
    · rw [Block.raise_view Half.pwr (fun _ _ => rfl), hsend, Block.onPair_half, hwoken]
    · split
      · rw [hsend, hwoken]
      · exact hwoken

section
variable {P : Pair → Prop} (hP : Pair.Steady P) {b : Block} (hb : P b.pair)
include hP hb

theorem Pair.Steady.wakeOne (h : HalfId) (cause : Nat) : P (b.wakeOne h cause).pair := by
  have hwoken : P (b.woken h cause).pair := hP.of_rest (b.woken_rest h cause) hb
  by_cases hn : (b.half h).pwr.state = 0
  · unfold Block.wakeOne
    dsimp only
    rw [if_pos hn]
    split
    · rwa [Block.onHalf_pair]
    · exact hb
  · rw [Block.wakeOne_of_asleep hn]
    split
    · rw [Block.raise_pair, Block.send_pair]
      exact hP.budget _ hwoken
    · split
      · rwa [Block.send_pair]
      · exact hwoken

theorem Pair.Steady.wake (h : HalfId) (cause : Nat) : P (b.wake h cause).pair := by
  unfold Block.wake
  split
  · exact hb
  · split
    · exact hP.wakeOne (hP.wakeOne hb h cause) h.twin 5
    · exact hP.wakeOne hb h cause

theorem Pair.Steady.wakeLatched (h : HalfId) : P (b.wakeLatched h).pair := by
  unfold Block.wakeLatched
  split
  · exact hP.wake hb h 4
  · exact hb

theorem Pair.Steady.resumeBring (h : HalfId) : P (b.resumeBring h).pair :=
  hP.of_rest (b.resumeBring_pairView Pair.rest (fun _ _ _ _ => rfl) h) hb

end

/-! ### A thaw (R617, R618) -/

/-- The pair as a thaw finds its clocks running again. -/
def Block.unfrozen (b : Block) (ticks : Nat) : Block :=
  b.onPair (fun p => { p with frozen := false, frzTicks := Nat.min ticks (2 ^ 32 - 1), budget := p.budgetIn })

/-- The block at a thaw before bring-up goes on: pads, channels and UPDATE_EN as they stand. -/
def Block.thawedBase (b : Block) (ticks : Nat) : Block :=
  ((((b.unfrozen ticks).padsThawed.onHalf .a Half.thawed).onHalf .b Half.thawed).syncUpdate .a).syncUpdate .b

theorem Block.thaw_of_frozen {b : Block} (hf : b.pair.frozen = true) (ticks : Nat) : b.thaw ticks =
    ((((b.thawedBase ticks).resumeBring .a).resumeBring .b).wakeLatched .a).wakeLatched .b := by
  rw [Block.thaw, if_pos hf]
  rfl

theorem Pair.Steady.thaw {P : Pair → Prop} (hP : Pair.Steady P) {b : Block} (hf : b.pair.frozen = true) {ticks : Nat}
    (hb : P (b.unfrozen ticks).pair) : P (b.thaw ticks).pair := by
  have hpads : P (b.unfrozen ticks).padsThawed.pair := hP.of_rest (Block.padsThawed_rest _) hb
  have hbase : P (b.thawedBase ticks).pair := hP.calm.syncUpdate (hP.calm.syncUpdate (by simpa using hpads) .a) .b
  rw [Block.thaw_of_frozen hf]
  exact hP.wakeLatched (hP.wakeLatched (hP.resumeBring (hP.resumeBring hbase .a) .b) .a) .b

/-- After a thaw no freeze is active, its length stands in FRZ_TIME, and BUDGET is the pins' value. -/
theorem Block.thaw_pair {b : Block} (hf : b.pair.frozen = true) (ticks : Nat) :
    (b.thaw ticks).pair.frozen = false ∧ (b.thaw ticks).pair.frzTicks = Nat.min ticks (2 ^ 32 - 1) ∧
      (b.thaw ticks).pair.budget = b.pair.budgetIn := by
  have hsteady : Pair.Steady (fun p => p.frozen = false ∧ p.frzTicks = Nat.min ticks (2 ^ 32 - 1) ∧ p.budget = b.pair.budgetIn ∧
      p.budgetIn = b.pair.budgetIn) :=
    ⟨fun _ _ _ _ hp => hp, fun _ _ hp => hp, fun _ ⟨hp, ht, _, hin⟩ => ⟨hp, ht, hin, hin⟩⟩
  obtain ⟨hfrozen, hticks, hbudget, -⟩ := hsteady.thaw hf (ticks := ticks) ⟨rfl, rfl, rfl, rfl⟩
  exact ⟨hfrozen, hticks, hbudget⟩

/-! ### Which half an operation on the other leaves alone -/

section
variable {h k : HalfId} (hk : k ≠ h) (b : Block)
include hk

theorem Block.send_half_ne (m : Msg) : (b.send h m).half k = b.half k := by
  unfold Block.send
  split
  · exact Block.half_onHalf_ne b hk _
  · rfl

theorem Block.raise_half_ne (n : Nat) : (b.raise h n).half k = b.half k := by
  unfold Block.raise
  split
  · exact Block.half_onHalf_ne b hk _
  · rfl

theorem Block.takeEnable_half_ne (c : Nat) : (b.takeEnable h c).half k = b.half k := by
  unfold Block.takeEnable Block.notePool
  split
  · rfl
  · split
    · rfl
    · simp [Block.half_onHalf_ne _ hk]

theorem Block.takeAll_half_ne : (b.takeAll h).half k = b.half k :=
  Block.each_view id k (fun a c => a.takeEnable_half_ne hk c) _ b

theorem Block.keepTaken_half_ne : (b.keepTaken h).half k = b.half k := by
  unfold Block.keepTaken
  dsimp only
  split
  · split
    · exact Block.half_onHalf_ne b hk _
    · rw [Block.raise_half_ne hk, Block.half_onHalf_ne _ hk, Block.half_onHalf_ne _ hk]
  · rfl

theorem Block.goDiscover_half_ne : (b.goDiscover h).half k = b.half k := by
  unfold Block.goDiscover Block.enterDiscovery
  split
  · rw [Block.half_onHalf_ne _ hk, Block.keepTaken_half_ne hk, Block.driveWp, Block.onPair_half, Block.takeAll_half_ne hk]
  · rfl

theorem Block.resumeBring_half_ne : (b.resumeBring h).half k = b.half k := by
  unfold Block.resumeBring
  dsimp only
  split
  · rfl
  · split
    · rw [Block.goDiscover_half_ne hk, Block.half_onHalf_ne _ hk]
    · rfl

theorem Block.woken_half_ne (cause : Nat) : (b.woken h cause).half k = b.half k := by
  unfold Block.woken
  dsimp only
  rw [Block.half_onHalf_ne _ hk]
  split
  · rw [Block.takeAll_half_ne hk, Block.half_onHalf_ne _ hk]
  · rw [Block.half_onHalf_ne _ hk]

theorem Block.wakeOne_half_ne (cause : Nat) : (b.wakeOne h cause).half k = b.half k := by
  by_cases hn : (b.half h).pwr.state = 0
  · unfold Block.wakeOne
    dsimp only
    rw [if_pos hn]
    split
    · exact Block.half_onHalf_ne b hk _
    · rfl
  · rw [Block.wakeOne_of_asleep hn]
    split
    · rw [Block.raise_half_ne hk, Block.send_half_ne hk, Block.onPair_half, Block.woken_half_ne hk]
    · split
      · rw [Block.send_half_ne hk, Block.woken_half_ne hk]
      · exact b.woken_half_ne hk cause

end

/-! ### Which halves a thaw wakes (R511, R545) -/

/-- A sleeping half past its fill step has latched an event of source `n`, which may wake it. -/
def Block.WakeDue (b : Block) (k : HalfId) (n : Nat) : Prop :=
  2 ≤ (b.half k).pwr.state ∧ 2 ≤ (b.half k).boot.stage ∧ n ∈ (b.half k).irq.latched ∧ srcExists b.variant n = true ∧
    ((b.half k).irq.src n).mask = false

theorem Block.wakeDue_congr {b c : Block} {k : HalfId} {n : Nat} (hv : c.variant = b.variant)
    (hx : ((c.half k).pwr, (c.half k).boot, (c.half k).irq) = ((b.half k).pwr, (b.half k).boot, (b.half k).irq)) :
    c.WakeDue k n ↔ b.WakeDue k n := by
  obtain ⟨hpwr, hboot, hirq⟩ : _ ∧ _ ∧ _ := by simpa using hx
  rw [Block.WakeDue, Block.WakeDue, hv, hpwr, hboot, hirq]

/-- An event of a sleeping half is latched beside those it has latched. -/
theorem calm_wakeDue (k : HalfId) (n : Nat) : Calm (fun b => b.WakeDue k n) where
  onHalf b h f hb hf := by
    refine (Block.wakeDue_congr (Block.onHalf_variant b h f) ?_).mpr hb
    exact b.onHalf_view (fun x => (x.pwr, x.boot, x.irq)) h k (fun x => congrArg (fun p => (p.2.1, p.2.2.1, p.1)) (hf x))
  raise b h m hb := by
    unfold Block.raise
    split
    · obtain ⟨hstate, hstage, hmem, hsrc, hmask⟩ := hb
      by_cases hk : k = h
      · subst hk
        have hruns : b.coreRuns k = false := by
          have : ¬ (b.half k).pwr.state ≤ 1 := by omega
          simp [Block.coreRuns, this]
        simpa [Block.WakeDue, hruns, hstate, hstage, hsrc] using ⟨.inl hmem, hmask⟩
      · rw [Block.WakeDue, Block.half_onHalf_ne _ hk, Block.onHalf_variant]
        exact ⟨hstate, hstage, hmem, hsrc, hmask⟩
    · exact hb
  groups b gs hb := (Block.wakeDue_congr rfl (by rw [Block.onPair_half])).mpr hb

/-- Up to the point where bring-up goes on, a thaw leaves what wakes a sleeping half. -/
theorem Block.thawedBase_wakeDue {b : Block} {k : HalfId} {n : Nat} (hb : b.WakeDue k n) (ticks : Nat) : (b.thawedBase ticks).WakeDue k n := by
  let g := fun x : Half => (x.pwr, x.boot, x.irq)
  have hpads : (b.unfrozen ticks).padsThawed.WakeDue k n := by
    refine (Block.wakeDue_congr ?_ ?_).mpr hb
    · unfold Block.padsThawed
      rw [Block.settlePads_variant, Block.each_variant _ (fun a (e : Nat × HalfId) => a.dropEnable_variant e.2 e.1)]
      rfl
    · unfold Block.padsThawed
      rw [Block.settlePads_half]
      refine (Block.each_view g k (fun a (e : Nat × HalfId) => a.dropEnable_view g (fun _ _ => rfl) e.2 k e.1) _ _).trans ?_
      rw [Block.unfrozen, Block.onPair_half]
  have hthawed : ∀ (c : Block) (h : HalfId), c.WakeDue k n → (c.onHalf h Half.thawed).WakeDue k n := by
    intro c h hc
    by_cases hk : k = h
    · subst hk
      have hstate : ¬ (c.half k).pwr.state ≤ 1 := by
        obtain ⟨hlo, -⟩ := hc
        omega
      have hchan := Half.onDriven_view g (fun _ _ => rfl) (c.half k) Chan.thawed
      simp only [g, Prod.mk.injEq] at hchan
      obtain ⟨hpwr, hboot, hirq⟩ := hchan
      refine (Block.wakeDue_congr (Block.onHalf_variant c k _) ?_).mpr hc
      simp [Half.thawed, hpwr, hboot, hirq, hstate]
    · refine (Block.wakeDue_congr (Block.onHalf_variant c h _) ?_).mpr hc
      rw [Block.half_onHalf_ne _ hk]
  exact (calm_wakeDue k n).syncUpdate ((calm_wakeDue k n).syncUpdate (hthawed _ .b (hthawed _ .a hpads)) .a) .b

@[simp] theorem Block.goDiscover_variant (b : Block) (h : HalfId) : (b.goDiscover h).variant = b.variant := by
  simp [Block.goDiscover, Block.enterDiscovery, Block.keepTaken, Block.driveWp, apply_ite Block.variant]

@[simp] theorem Block.resumeBring_variant (b : Block) (h : HalfId) : (b.resumeBring h).variant = b.variant := by
  simp [Block.resumeBring, apply_ite Block.variant]

@[simp] theorem Block.wakeLatched_variant (b : Block) (h : HalfId) : (b.wakeLatched h).variant = b.variant := by
  simp [Block.wakeLatched, apply_ite Block.variant]

/-- Bring-up goes on only at a half that has not passed its fill step. -/
theorem Block.resumeBring_wakeDue {b : Block} {k : HalfId} {n : Nat} (hb : b.WakeDue k n) (h : HalfId) : (b.resumeBring h).WakeDue k n := by
  by_cases hk : k = h
  · subst hk
    have hstage : ¬ ((b.half k).boot.stage = 0 || (b.half k).boot.stage = 1) = true := by
      obtain ⟨-, hlo, -⟩ := hb
      simp only [Bool.or_eq_true, decide_eq_true_eq]
      omega
    have hsame : b.resumeBring k = b := by
      unfold Block.resumeBring
      dsimp only
      rw [if_neg hstage, ite_self]
    rwa [hsame]
  · refine (Block.wakeDue_congr ?_ ?_).mpr hb
    · exact b.resumeBring_variant h
    · rw [Block.resumeBring_half_ne hk]

/-- A half that wakes, or stays awake, with the pair unfrozen. -/
theorem Block.wakeLatched_of_due {b : Block} {k : HalfId} {n : Nat} (hf : b.pair.frozen = false) (hb : b.WakeDue k n) :
    ((b.wakeLatched k).half k).pwr.state = 0 := by
  obtain ⟨hstate, -, hmem, hsrc, hmask⟩ := hb
  have hany : (b.half k).irq.latched.any (b.wakesOn k) = true := by
    refine List.any_eq_true.mpr ⟨n, hmem, ?_⟩
    have : 1 ≤ (b.half k).pwr.state := by omega
    simp [Block.wakesOn, hf, hsrc, hmask, this]
  rw [Block.wakeLatched, if_pos hany, Block.wake, if_neg (by simp [hf])]
  split
  · rw [Block.wakeOne_half_ne (HalfId.ne_twin k), Block.wakeOne_state]
  · exact b.wakeOne_state k 4

/-- The wake of one half by its latched events, seen from the other: it stands, or is woken with it from PS4. -/
theorem Block.wakeLatched_twin (b : Block) {h k : HalfId} (hk : k ≠ h) :
    (b.wakeLatched h).half k = b.half k ∨ ((b.wakeLatched h).half k).pwr.state = 0 := by
  have htwin : k = h.twin := by cases h <;> cases k <;> first | rfl | exact absurd rfl hk
  unfold Block.wakeLatched
  split
  · unfold Block.wake
    split
    · exact .inl rfl
    · split
      · exact .inr (by rw [htwin, Block.wakeOne_state])
      · exact .inl (b.wakeOne_half_ne hk 4)
  · exact .inl rfl

/-- A half in PS0 sleeps through no wake. -/
theorem Block.wakeLatched_awake {b : Block} {k : HalfId} (hs : (b.half k).pwr.state = 0) (h : HalfId) :
    ((b.wakeLatched h).half k).pwr.state = 0 := by
  by_cases hk : k = h
  · subst hk
    have hno : ¬ (b.half k).irq.latched.any (b.wakesOn k) = true := by simp [Block.wakesOn, hs]
    rwa [Block.wakeLatched, if_neg hno]
  · rcases b.wakeLatched_twin hk with hx | hx
    · rwa [hx]
    · exact hx

/-- The block of a thaw at which latched events wake, and how each half stands there. -/
theorem Block.thaw_wakes {b : Block} {k : HalfId} {n : Nat} (hf : b.pair.frozen = true) (hb : b.WakeDue k n) (ticks : Nat) :
    ((b.thaw ticks).half k).pwr.state = 0 := by
  let c := ((b.thawedBase ticks).resumeBring .a).resumeBring .b
  have hdue : c.WakeDue k n := Block.resumeBring_wakeDue (Block.resumeBring_wakeDue (Block.thawedBase_wakeDue hb ticks) .a) .b
  have hsteady : Pair.Steady (fun p => p.frozen = false) := ⟨fun _ _ _ _ hp => hp, fun _ _ hp => hp, fun _ hp => hp⟩
  have hcf : c.pair.frozen = false := by
    have hpads : (b.unfrozen ticks).padsThawed.pair.frozen = false := hsteady.of_rest (Block.padsThawed_rest _) rfl
    exact hsteady.resumeBring (hsteady.resumeBring (hsteady.calm.syncUpdate (hsteady.calm.syncUpdate (by simpa using hpads) .a) .b) .a) .b
  rw [Block.thaw_of_frozen hf]
  cases k with
  | a => exact Block.wakeLatched_awake (Block.wakeLatched_of_due hcf hdue) .b
  | b =>
    rcases c.wakeLatched_twin (h := .a) (k := .b) (by decide) with hx | hx
    · exact Block.wakeLatched_of_due (hsteady.wakeLatched hcf .a)
        ((Block.wakeDue_congr (Block.wakeLatched_variant c .a) (by rw [hx])).mpr hdue)
    · exact Block.wakeLatched_awake hx .b

/-- With no freeze and nothing at the ports, none of them has anything to release. -/
theorem Block.release_of_idle {b : Block} (hf : b.pair.frozen = false) (hheld : b.pair.held = []) : b.release = b := by
  have hpair : { b.pair with held := [] } = b.pair := by rw [← hheld]
  rw [Block.release, if_neg (by simp [hf]), hheld]
  exact congrArg (fun p => { b with pair := p }) hpair

/-- Settles O25: through the debug access port a thaw is the operation `thaw`; what it leaves is kept by every part of it, and the wake of a half is its last part. -/
theorem thawThroughTheDebugPort : Obligations.ThawThroughTheDebugPort := by
  refine ⟨fun h ticks s halive hf => ?_, fun b ticks hf => ?_, fun b hf hheld => ?_, fun h ticks s ht => ?_⟩
  · refine (dbgRun_of_alive halive _).trans ?_
    rw [Block.wake_of_frozen hf]
    exact congrArg (fun c => Host.Outcome.next (s.withBlock c)) (if_pos hf)
  · obtain ⟨hfrozen, hticks, hbudget⟩ := Block.thaw_pair hf ticks
    exact ⟨hfrozen, hticks, hbudget, fun k n hstate hstage hmem hsrc hmask => Block.thaw_wakes hf ⟨hstate, hstage, hmem, hsrc, hmask⟩ ticks⟩
  · exact Block.release_of_idle hf hheld
  · exact portRun_of_takes ht causeRegister (.frzCtlThaw h false ticks) (fun b => b)

end Sys2Proof.Machine
end

section
/-!
PROOFS. Brown-out and checkpoints (R78, R548, R550, R555, R556, R562, R563).
-/

namespace Sys2Proof.Machine

open Sys2Proof

/-! ### The latch (R73, R78, R79, R550) -/

/-- The pair with a brown-out latched at its rising edge. -/
def Block.atLatch (b : Block) (holdup : Nat) : Block :=
  b.onPair (fun p => { p with brownout := true, latched := true, holdupMs := holdup % 256 })

/-- A rising edge outside reset, with none latched. -/
theorem exec_brownout {holdup : Nat} {s : State} (hl : s.blk.pair.latched = false) (hphase : s.blk.pair.phase ≠ .reset)
    (hbo : s.blk.pair.brownout = false) : exec (.brownout holdup) s = .next (s.withBlock
      (let b := s.blk.atLatch holdup
       let c := if s.blk.pair.frozen then b.thawFree.onPair (fun p => { p with boThaw := true }) else b
       (if s.blk.pair.ranPhase then c.brownAll c.pair.holdupMs else c).release)) := by
  have hexec : exec (.brownout holdup) s = execBrownout holdup s := rfl
  simp only [hexec, execBrownout, run_eq, State.withBlock, Block.atLatch, Block.onPair, hl, hbo, decide_eq_false hphase, Bool.or_false,
    Bool.false_eq_true, if_false]

theorem Block.thawFree_pair {P : Pair → Prop} (hP : Pair.Steady P) {b : Block} (hf : b.pair.frozen = true)
    (hb : ∀ n m, P { b.pair with frozen := false, frzTicks := n, budget := m }) : P b.thawFree.pair :=
  hP.thaw (b := { b with freeUses := b.freeUses + 1 }) hf (hb _ _)

/-! ### Both halves at the latch (R550) -/

/-- A wake leaves the flysheet controller, but that it gives up a checkpoint for PS4. -/
theorem Block.wakeOne_phase (b : Block) (h : HalfId) (cause : Nat) :
    ((b.wakeOne h cause).half h).fly.phase = (b.half h).fly.phase ∨ ((b.wakeOne h cause).half h).fly.phase = 0 := by
  by_cases hn : (b.half h).pwr.state = 0
  · unfold Block.wakeOne
    dsimp only
    rw [if_pos hn]
    split
    · exact .inr (by rw [Block.half_onHalf])
    · exact .inl rfl
  · have hwoken : ((b.woken h cause).half h).fly = (b.half h).fly := by
      have hchan := fun x f => Half.onDriven_view Half.fly (fun _ _ => rfl) x f
      have hbase : ∀ c : Block, (c.half h).fly = (b.half h).fly →
          ((if 2 ≤ (b.half h).pwr.state then c.takeAll h else c).half h).fly = (b.half h).fly := by
        intro c hc
        split
        · exact (c.takeAll_view Half.fly (fun _ _ _ => rfl) h h).trans hc
        · exact hc
      unfold Block.woken
      dsimp only
      rw [Block.half_onHalf]
      refine (hchan _ Chan.pollAll).trans ?_
      split
      · exact hbase _ (by rw [Block.half_onHalf]; split <;> rfl)
      · exact (hchan _ _).trans (hbase _ (by rw [Block.half_onHalf]; split <;> rfl))
    have hsend := fun c : Block => c.send_view Half.fly (fun _ _ => rfl) h h .awake
    rw [Block.wakeOne_of_asleep hn]
    refine .inl (congrArg Fly.phase ?_)
    split
    · rw [Block.raise_view Half.fly (fun _ _ => rfl), hsend, Block.onPair_half, hwoken]
    · split
      · rw [hsend, hwoken]
      · exact hwoken

/-- A half outside PS4 that does not replay drains at the latch, its checkpoint given up. -/
theorem Half.brown_drains {x : Half} (hstate : x.pwr.state ≠ 4) (hphase : x.fly.phase ≠ 4) (h : HalfId) (holdup : Nat) :
    (x.brown h holdup).fly.phase = 1 ∧ (x.brown h holdup).fly.ckptFrom = none := by
  have hfly : ((x.onDriven Chan.brown).brownWin h).fly.phase = x.fly.phase := by
    refine Eq.trans ?_ (congrArg Fly.phase (Half.onDriven_view Half.fly (fun _ _ => rfl) x Chan.brown))
    unfold Half.brownWin
    dsimp only
    split <;> rfl
  rw [Half.brown, if_neg hstate]
  exact ⟨by simp [hfly, hphase], rfl⟩

/-- The wake of one half at the latch (R544). -/
def Block.wakeAtLatch (b : Block) (h : HalfId) : Block := if (b.half h).pwr.state = 4 then b else b.wakeOne h 6

theorem Block.brownAll_eq (b : Block) (holdup : Nat) : b.brownAll holdup =
    (((b.wakeAtLatch .a).wakeAtLatch .b).onHalf .a (fun x => x.brown .a holdup)).onHalf .b (fun x => x.brown .b holdup) := rfl

/-- A half outside PS4 that does not replay is awake after it. -/
theorem Block.wakeAtLatch_half {b : Block} {k : HalfId} (hstate : (b.half k).pwr.state ≠ 4) (hphase : (b.half k).fly.phase ≠ 4) (h : HalfId) :
    ((b.wakeAtLatch h).half k).pwr.state ≠ 4 ∧ ((b.wakeAtLatch h).half k).fly.phase ≠ 4 := by
  unfold Block.wakeAtLatch
  by_cases hk : k = h
  · subst hk
    rw [if_neg hstate, Block.wakeOne_state]
    refine ⟨by decide, ?_⟩
    rcases b.wakeOne_phase k 6 with hx | hx <;> rw [hx]
    · exact hphase
    · decide
  · split
    · exact ⟨hstate, hphase⟩
    · rw [Block.wakeOne_half_ne hk]
      exact ⟨hstate, hphase⟩

theorem Block.brownAll_drains {b : Block} {k : HalfId} (hstate : (b.half k).pwr.state ≠ 4) (hphase : (b.half k).fly.phase ≠ 4) (holdup : Nat) :
    ((b.brownAll holdup).half k).fly.phase = 1 ∧ ((b.brownAll holdup).half k).fly.ckptFrom = none := by
  obtain ⟨ha, hap⟩ := Block.wakeAtLatch_half hstate hphase .a
  obtain ⟨hb, hbp⟩ := Block.wakeAtLatch_half ha hap .b
  rw [Block.brownAll_eq]
  cases k <;> exact Half.brown_drains hb hbp _ holdup

/-! ### The commit (R562, R563) -/

/-- A commit's flysheet controller: the record, its seals, and the phase they give. -/
def Block.committed (b : Block) (h : HalfId) (tHdr tSeal : BitVec 32) (fails0 fails1 : Nat) : Block :=
  let s0 := (b.half h).copySealed 0 fails0
  let s1 := (b.half h).copySealed 1 fails1
  b.onHalf h (fun x => x.onFly (fun f => { f with
    phase := if s0 && s1 then 3 else 2, record := b.flyRecord h tHdr tSeal, sealed := BitVec.ofNat 2 (bitOf s0 + 2 * bitOf s1)
    copyFails := Tab.set 0 (Tab.set 0 f.copyFails 0 fails0) 1 fails1 }))

/-- The block with source 119 raised where a copy's failures ask for it. -/
def Block.raiseFails (b : Block) (h : HalfId) (fails : Nat) : Block := if 4 ≤ fails then b.raise h 119 else b

theorem Block.raiseFails_view {α : Type} (g : Half → α) (hg : ∀ x i, g { x with irq := i } = g x) (b : Block) (h k : HalfId) (fails : Nat) :
    g ((b.raiseFails h fails).half k) = g (b.half k) := by
  unfold Block.raiseFails
  split
  · exact b.raise_view g hg h k 119
  · rfl

/-- Settles O21: the latch by what it finds of the run phase and of a freeze, the halves at the latch, and the commit. -/
theorem brownoutIsLatched : Obligations.BrownoutIsLatched := by
  refine ⟨fun holdup s hl hphase hbo hheld => ⟨fun hran hf => ?_, fun hran hf => ?_, fun hran hf => ?_⟩,
    fun b holdup h hstate hphase => Block.brownAll_drains hstate hphase holdup, fun h tHdr tSeal fails0 fails1 s hl hphase hruns hready => ?_⟩
  · rw [exec_brownout hl hphase hbo]
    dsimp only
    rw [hf, hran, if_neg Bool.false_ne_true, if_neg Bool.false_ne_true, Block.release_of_idle (b := s.blk.atLatch holdup) hf hheld]
    rfl
  · rw [exec_brownout hl hphase hbo]
    dsimp only
    rw [hf, hran, if_neg Bool.false_ne_true, if_pos rfl]
    rfl
  · have hsteady : Pair.Steady (fun p => p.frozen = false ∧ p.latched = true ∧ p.holdupMs = holdup % 256 ∧ p.held = []) :=
      ⟨fun _ _ _ _ hp => hp, fun _ _ hp => hp, fun _ hp => hp⟩
    obtain ⟨hfrozen, hlatched, hholdup, hempty⟩ := Block.thawFree_pair hsteady (b := s.blk.atLatch holdup) hf (fun _ _ => ⟨rfl, rfl, rfl, hheld⟩)
    refine ⟨_, exec_brownout hl hphase hbo, rfl, ?_⟩
    dsimp only [State.withBlock]
    rw [hf, hran, if_pos rfl, if_neg Bool.false_ne_true,
      Block.release_of_idle (b := (s.blk.atLatch holdup).thawFree.onPair (fun p => { p with boThaw := true })) hfrozen hempty]
    exact ⟨hfrozen, hlatched, rfl, hholdup⟩
  · refine ⟨s.withBlock (((s.blk.committed h tHdr tSeal fails0 fails1).raiseFails h fails0).raiseFails h fails1), ?_, rfl, ?_⟩
    · simp [exec, execFlysheetCommit, State.withBlock, hl, hphase, hruns, hready, Block.committed, Block.raiseFails]
    · have hview := fun {α : Type} (g : Half → α) (hg : ∀ x i, g { x with irq := i } = g x) =>
        (Block.raiseFails_view g hg _ h h fails1).trans (Block.raiseFails_view g hg (s.blk.committed h tHdr tSeal fails0 fails1) h h fails0)
      dsimp only [State.withBlock]
      rw [hview Half.fly (fun _ _ => rfl), hview Half.store (fun _ _ => rfl), Block.committed, Block.half_onHalf]
      exact ⟨rfl, rfl, rfl, rfl, rfl⟩

/-! ### Checkpoints (R555, R556) -/

/-- Both copies sealed, with no change waiting for room: the half's flysheet controller afterwards. -/
def Fly.sealedAt (f : Fly) (j0 : Nat) (c : Ckpt) (kept : List JEntry) : Fly :=
  { f with
    ckptSeq := f.ckptSeq + 1, ckptFrom := none, ckptNew := none, ckptSlots := f.ckptSlots.put c.slot { c with sealed := 2 }, copies := 2, phase := 0
    journal := kept ++ f.journal.drop j0, jbase := f.jbase + j0 - kept.length, stall := false }

theorem Block.sealCkpt_half {b : Block} {h : HalfId} {c : Ckpt} (hnew : (b.half h).fly.ckptNew = some c) (hwait : (b.half h).fly.waiting = [])
    (j0 : Nat) {α : Type} (g : Half → α) (hg : ∀ x i, g { x with irq := i } = g x) :
    g ((b.sealCkpt h j0).half h) = g ((b.half h).onFly (fun f => f.sealedAt j0 c
      (((f.journal.take j0).filter b.pair.carries).map (fun e => { e with old := true, count := 1 })))) := by
  unfold Block.sealCkpt
  rw [Block.raise_view g hg]
  simp [Block.drainJrnl, hwait, hnew, Half.onFly, Fly.sealedAt]

/-- Settles O22: a start takes the journal's length of that moment, and with nothing waiting a sealing is the flysheet controller's own change. -/
theorem checkpointsTrimTheJournal : Obligations.CheckpointsTrimTheJournal := by
  refine ⟨fun h s hruns hl hst hready hrec hfrom hdue hblank => ?_, fun h j0 c s hruns hl hfrom hnew hent hst hwait => ?_⟩
  · have hnow : (s.blk.onHalf h (fun x => x.onFly (fun f => { f with jrnlBad := false }))).ckptNow h false = s.blk.ckptNow h false := by
      simp [Block.ckptNow]
    simp [exec, execCheckpointStart, State.withBlock, Half.yieldDrained, hruns, hl, hst, hready, hrec, hfrom, hdue, hblank, Block.startCkpt, hnow,
      Block.onHalf_onHalf]
    rfl
  · have hview := fun {α : Type} (g : Half → α) => Block.sealCkpt_half hnew hwait j0 g
    refine ⟨s.withBlock (s.blk.sealCkpt h j0), ?_, rfl, ?_⟩
    · simp [exec, execCheckpointSealed, State.withBlock, hfrom, hruns, hl, hent, hst, Block.each]
    · dsimp only [State.withBlock]
      rw [hview Half.fly (fun _ _ => rfl), hview Half.store (fun _ _ => rfl), hview Half.que (fun _ _ => rfl)]
      exact ⟨rfl, rfl, Tab.find_put_same _ _ _, rfl, rfl, rfl⟩

end Sys2Proof.Machine
end

section
/-!
PROOFS. The read-out of a frozen pair, and accesses to the register window (R54, R612-R616, R640, R643).
-/

namespace Sys2Proof

/-- A segment's words are counted in the header's 23 bits. -/
theorem Machine.segWords_lt (v : Variant) {n : Nat} (hn : n < 18) : Machine.segWords v n < 2 ^ 23 := by
  cases v <;> interval_cases n <;> decide

end Sys2Proof

namespace Sys2Proof.Machine

open Sys2Proof

/-! ### Frames (R612, R613) -/

/-- The fields of a segment's header. -/
def headerFields (v : Variant) (h : HalfId) (n : Nat) : List FieldAt := [⟨n, 0, 8⟩, ⟨h.code, 8, 1⟩, ⟨segWords v n, 9, 23⟩]

theorem frameHeader_eq (v : Variant) (h : HalfId) (n : Nat) : frameHeader v h n = BitVec.ofNat 32 (placed (headerFields v h n)) := by
  simp only [frameHeader, headerFields, placed_cons, placed_nil, Nat.add_assoc, Nat.add_zero]

theorem fieldOf_frameHeader (v : Variant) (h : HalfId) (n : Nat) {f : FieldAt} (hf : f ∈ headerFields v h n) :
    fieldOf (frameHeader v h n) f.lo f.width = f.value % 2 ^ f.width := by
  rw [frameHeader_eq]
  exact fieldOf_placed (by simp [Ascending, headerFields]) (by simp [headerFields]) hf

theorem frameHeader_fields (v : Variant) (h : HalfId) {n : Nat} (hn : n < 18) : fieldOf (frameHeader v h n) 0 8 = n ∧
    fieldOf (frameHeader v h n) 8 1 = h.code ∧ fieldOf (frameHeader v h n) 9 23 = segWords v n := by
  have hread := fun {x lo w} (hf : ⟨x, lo, w⟩ ∈ headerFields v h n) => fieldOf_frameHeader v h n hf
  have hn8 : n % 2 ^ 8 = n := Nat.mod_eq_of_lt (Nat.lt_of_lt_of_le hn (by decide))
  have hcode : h.code % 2 ^ 1 = h.code := by cases h <;> rfl
  have hwords : segWords v n % 2 ^ 23 = segWords v n := Nat.mod_eq_of_lt (segWords_lt v hn)
  exact ⟨(hread (List.mem_cons_self)).trans hn8, (hread (x := h.code) (List.mem_cons_of_mem _ List.mem_cons_self)).trans hcode,
    (hread (x := segWords v n) (List.mem_cons_of_mem _ (List.mem_cons_of_mem _ List.mem_cons_self))).trans hwords⟩

theorem Block.frame_head (b : Block) (h : HalfId) (seg : Nat) (image : Nat → Word) :
    (b.frame h seg image).head? = some (frameHeader b.variant h seg) := rfl

theorem Block.frame_length (b : Block) (h : HalfId) (seg : Nat) (image : Nat → Word) :
    (b.frame h seg image).length = segWords b.variant seg + 2 := by
  simp [Block.frame]

/-! ### The debug access port of a frozen pair (R615) -/

/-- A command of FRZ through the debug access port of a frozen pair is its effect on the block that has answered. -/
theorem dbgRun_of_frozen {s : State} {h : HalfId} (halive : s.blk.alive h = true) (hf : s.blk.pair.frozen = true) (f : Block → Block) :
    dbgRun h f s = .next (s.withBlock (f (s.blk.dbgRespond (Resp.value 0)))) := by
  rw [dbgRun_of_alive halive, Block.wake_of_frozen hf]

/-- Settles O26: frames and headers word by word; the two registers through either port. -/
theorem readOutOfAFrozenPair : Obligations.ReadOutOfAFrozenPair := by
  refine ⟨fun h image s hf halive hsrc => ⟨?_, Block.frame_head _ h _ _, Block.frame_length _ h _ _⟩, fun v h n hn => ?_,
    fun h value s halive hf => ?_, fun h value s ht => ?_, fun h image s halive hf => ?_, fun h image s ht => ?_, fun b h image hsrc => ?_⟩
  · simp [exec, execFreezePortFrame, State.withBlock, Block.portSends, hf, halive, hsrc]
  · obtain ⟨hseg, hhalf, hwords⟩ := frameHeader_fields v h hn
    exact ⟨hseg, hhalf.trans (by cases h <;> rfl), hwords⟩
  · exact dbgRun_of_frozen halive hf (fun b => b.onHalf h (fun x => x.writeRoCtl value))
  · exact portRun_of_takes ht causeRegister (.frzRoCtlWrite h false value) _
  · exact dbgRun_of_frozen halive hf (fun b => (b.roData h image).1.dbgRespond (Resp.value (b.roData h image).2.toNat))
  · exact portRun_of_takes ht causeRegister (.frzRoDataRead h false image)
      (fun b => (b.roData h image).1.respond h (Resp.value (b.roData h image).2.toNat))
  · simp [Block.roData, hsrc]

/-! ### Register accesses (R54, R640, R643) -/

theorem exec_registerWrite_of_takes {s : State} {h : HalfId} (ht : s.blk.Takes h) (offset : Nat) (value : Word) :
    exec (.registerWrite h offset value) s = .next (s.withBlock ((s.blk.taken h (causeOf offset value)).writeReg h offset value false)) :=
  portRun_of_takes ht (causeOf offset value) (.registerWrite h offset value) _

/-- A debug access of a supplied half (R615). -/
theorem exec_debugAccess {addr : Nat} {s : State} (halive : s.blk.alive (debugPlace addr).1 = true) (write : Option Word) :
    exec (.debugAccess addr write) s = .next (s.withBlock (s.blk.debug (debugPlace addr).1 (debugPlace addr).2 write)) :=
  if_pos halive

/-- Where the debug access port reaches the register. -/
theorem Block.debug_of_reach {b : Block} {h : HalfId} {o : Nat} (hreach : b.pair.frozen = false ∧ b.held h = false ∨ inFrz o = true) :
    ¬ ((b.pair.frozen || b.held h) && !inFrz o) = true := by
  rcases hreach with ⟨hf, hheld⟩ | hfrz
  · simp [hf, hheld]
  · simp [hfrz]

/-- Settles O27: the window's write is `writeReg`, and the debug access port's accesses by whether they reach the register. -/
theorem registerAccess : Obligations.RegisterAccess := by
  refine ⟨fun h offset value s ht => exec_registerWrite_of_takes ht offset value, fun h value s ht => exec_registerWrite_of_takes ht 0x14 value,
    fun addr write s => ?_⟩
  intro h o halive
  refine ⟨fun hstop hfrz => ?_, fun hreach => ⟨fun w hw hthaw => ?_, fun hw => ?_⟩⟩
  · rw [exec_debugAccess halive, Block.debug, if_pos]
    rcases hstop with hf | hheld
    · simp [hf, hfrz, o]
    · simp [hheld, hfrz, h, o]
  · have hwrite : ¬ (s.blk.pair.frozen && decide (o = 0x90000)) = true := by
      rcases hthaw with hf | ho
      · simp [hf]
      · simp [ho]
    rw [exec_debugAccess halive, Block.debug, if_neg (Block.debug_of_reach hreach), hw]
    dsimp only [Option.elim]
    rw [if_neg hwrite]
  · rw [exec_debugAccess halive, Block.debug, if_neg (Block.debug_of_reach hreach), hw]
    rfl

end Sys2Proof.Machine
end

section
/-!
PROOFS. What the steps of commands under way leave alone, from their codewords to their ends (R131, R138, R241, R249-R268, R297).
-/

namespace Sys2Proof.Machine

open Sys2Proof

theorem Half.loadProfile_calm (x : Half) (n : Nat) (p : Profile) : (x.loadProfile n p).calmPart = x.calmPart := by
  unfold Half.loadProfile
  dsimp only
  split
  · rfl
  · exact List.foldlRecOn (motive := fun y : Half => y.calmPart = x.calmPart) _ _ rfl (fun _ hy _ _ => hy)

theorem Half.setRecs_calm (x : Half) (l : List (Nat × Rec)) : (l.foldl (fun (w : Half) e => w.setRec e.1 e.2) x).calmPart = x.calmPart :=
  List.foldlRecOn (motive := fun y : Half => y.calmPart = x.calmPart) l _ rfl (fun _ hy _ _ => hy)

theorem Half.setRegion_calm (x : Half) (own : Bool) (n : Nat) (d : RgnDesc) : (x.setRegion own n d).calmPart = x.calmPart := by
  unfold Half.setRegion
  split <;> rfl

section
variable {Q : Block → Prop} (hQ : Calm Q)
include hQ

theorem Calm.notePool {b : Block} (hb : Q b) (h : HalfId) : Q (b.notePool h) :=
  hQ.onHalf b h _ hb (by intro _; rfl)

/-! ### Codewords -/

theorem Calm.askMembers {b : Block} (hb : Q b) (seq : Nat) : Q (b.askMembers seq) := by
  unfold Block.askMembers
  split
  · exact hb
  · refine Block.each_keeps (fun a i ha => ?_) _ hb
    split
    · exact ha
    · split
      · exact hQ.onCtx ha seq _
      · exact ha

theorem Calm.askOne {b : Block} (hb : Q b) (seq i : Nat) (kind : OpKind) (cls : Nat) (slc : Bool) (k : Cw) : Q (b.askOne seq i kind cls slc k) := by
  have hset : ∀ j, Q (if j = k then b else (b.onCtx seq (fun c => { c with cws := c.cws.set i j })).notePool ((b.driver (recCh k.idx)).getD .a)) := by
    intro j
    split
    · exact hb
    · exact hQ.notePool (hQ.onCtx hb seq _) _
  unfold Block.askOne
  dsimp only
  generalize (if hasSets k then k else { k with sets := b.freeSets (recCh k.idx) }) = j
  have ha := hset j
  generalize (if j = k then b else (b.onCtx seq (fun c => { c with cws := c.cws.set i j })).notePool ((b.driver (recCh k.idx)).getD .a)) = a at ha ⊢
  split
  · split
    · exact ha
    · split
      · exact ha
      · exact hQ.pushOps ha _ _
  · exact hb

theorem Calm.askSense {b : Block} (hb : Q b) (seq : Nat) : Q (b.askSense seq) := by
  unfold Block.askSense
  split
  · exact hb
  · refine Block.each_keeps (fun a i ha => ?_) _ hb
    split
    · exact ha
    · split
      · exact hQ.askOne ha _ _ _ _ _ _
      · exact ha

theorem Calm.askWaiting {b : Block} (hb : Q b) : Q b.askWaiting :=
  Block.each_keeps (Q := Q) (fun _ e ha => hQ.askSense ha e) _ (Block.each_keeps (Q := Q) (fun _ e ha => hQ.askSense ha e) _ hb)

theorem Calm.writeTension {b : Block} (hb : Q b) (seq : Nat) (k : Cw) : Q (b.writeTension seq k) := by
  unfold Block.writeTension
  generalize (if k.step = 4 then k.best else k.entry) = e
  dsimp only
  split
  · exact hb
  · split
    · exact hb
    · exact hQ.updRec hb _ _ _ _ _ _ _

theorem Calm.putCw {b : Block} (hb : Q b) (seq i : Nat) (k : Cw) : Q (b.putCw seq i k) := by
  have hset := hQ.onCtx hb seq (fun c => { c with cws := c.cws.set i { k with sets := if k.st = .done || k.st = .recon then .none else k.sets } })
  have hcount : ∀ e, Q (match b.driver (recCh k.idx) with
      | none => b.onCtx seq (fun c => { c with cws := c.cws.set i { k with sets := if k.st = .done || k.st = .recon then .none else k.sets } })
      | some g => (b.onCtx seq (fun c => { c with cws := c.cws.set i { k with sets := if k.st = .done || k.st = .recon then .none else k.sets } })).onHalf
          g (fun x => x.countCw e)) := by
    intro e
    split
    · exact hset
    · exact hQ.onHalf _ _ _ hset (by intro _; rfl)
  unfold Block.putCw
  dsimp only
  split
  · exact hset
  · split
    · exact hQ.writeTension (hcount _) seq k
    · exact hcount _

theorem Calm.startCws {b : Block} (hb : Q b) (seq : Nat) (named t : Place) (slot n entry : Nat) (kind : OpKind) (what : CwFor) :
    Q (b.startCws seq named t slot n entry kind what) := by
  unfold Block.startCws
  dsimp only
  split
  · exact hb
  · refine hQ.notePool (hQ.notePool ?_ .a) .b
    have hput : ∀ (l : List Cw) (base : Nat) (a : Block), Q a → Q (a.each (List.range l.length) (fun a i => match l[i]? with
        | none => a
        | some k => if k.fin.isSome then a.putCw seq (base + i) k else a)) := by
      intro l base a ha
      refine Block.each_keeps (fun a i ha => ?_) _ ha
      split
      · exact ha
      · split
        · exact hQ.putCw ha seq _ _
        · exact ha
    split
    · exact hput _ _ _ (hQ.onCtx hb seq _)
    · exact hQ.pushOps (hput _ _ _ (hQ.onCtx hb seq _)) _ _

/-! ### The ends of commands -/

theorem Calm.endRead {b : Block} (hb : Q b) (h : HalfId) (seq : Nat) (c : Ctx) : Q (b.endRead h seq c) := by
  unfold Block.endRead
  refine hQ.finish (hQ.onHalf b h _ hb (fun x => ?_)) h seq _ _
  unfold Half.countWatch
  split <;> rfl

theorem Calm.holdPage {b : Block} (hb : Q b) (h : HalfId) (seq : Nat) (slots : List Payload) : Q (b.holdPage h seq slots) := by
  unfold Block.holdPage
  dsimp only
  split
  · exact hQ.onHalf b h _ hb (by intro _; rfl)
  · split
    · exact hQ.onCtx hb seq _
    · exact hQ.notePool (hQ.onCtx (hQ.onHalf _ _ _ hb (by intro _; rfl)) _ _) h

theorem Calm.endProgramCmd {b : Block} (hb : Q b) (h : HalfId) (seq : Nat) (c : Ctx) : Q (b.endProgramCmd h seq c) := by
  unfold Block.endProgramCmd
  dsimp only
  refine hQ.finish ?_ h seq _ _
  split
  · exact Block.each_keeps (Q := Q) (fun a p ha => hQ.holdPage ha h seq p.slots) _ hb
  · exact hb

theorem Calm.reserve {b : Block} (hb : Q b) (seq : Nat) (t : Place) (n : Nat) (touch stream : Bool) (data : Option (List (List Payload))) :
    Q (b.reserve seq t n touch stream data) := by
  unfold Block.reserve
  split
  · exact hb
  · exact hQ.notePool (hQ.notePool (hQ.onHalf _ _ _ (hQ.updRec (hQ.onCtx hb _ _) _ _ _ _ _ _ _) (by intro _; rfl)) .a) .b

theorem Calm.copyStep {b : Block} (hb : Q b) (h : HalfId) (seq : Nat) (c : Ctx) : Q (b.copyStep h seq c) := by
  unfold Block.copyStep
  split
  · exact hQ.finish hb h seq _ _
  · split
    · exact hb
    · unfold Block.copyWrite
      split
      · exact hQ.refuse hb h seq _
      · split
        · exact hQ.refuse hb h seq _
        · exact hQ.pump (hQ.onCtx (hQ.reserve hb _ _ _ _ _ _) _ _) _

theorem Calm.programStep {b : Block} (hb : Q b) (h : HalfId) (seq : Nat) (c : Ctx) : Q (b.programStep h seq c) := by
  unfold Block.programStep Block.startVerify
  split
  · refine Block.each_keeps (fun a p ha => ?_) _ hb
    split
    · exact ha
    · exact hQ.startCws ha _ _ _ _ _ _ _ _
  · exact hQ.endProgramCmd hb h seq c

theorem Calm.endProfileLoad {b : Block} (hb : Q b) (h : HalfId) (seq : Nat) (c : Ctx) : Q (b.endProfileLoad h seq c) := by
  unfold Block.endProfileLoad
  dsimp only
  split
  · exact hQ.finish hb h seq _ _
  · split
    · exact hQ.refuse hb h seq _
    · split
      · exact hQ.refuse hb h seq _
      · exact hQ.finish (hQ.send (hQ.onHalf b h _ hb (by intro x; exact x.loadProfile_calm _ _)) h _) h seq _ _

theorem Calm.rebuildWrite {b : Block} (hb : Q b) (seq : Nat) (t : Place) (n : Nat) (data : Option (List Payload)) : Q (b.rebuildWrite seq t n data) :=
  hQ.pump (hQ.onCtx (hQ.reserve hb _ _ _ _ _ _) _ _) _

theorem Calm.rebuildEnds {b : Block} (hb : Q b) (h : HalfId) (seq n : Nat) (r : Rebuild) (st : Status) (c : Ctx) : Q (b.rebuildEnds h seq n r st c) :=
  hQ.finish (hQ.onHalf _ _ _ (hQ.updRec hb h _ _ _ _ _ _) (by intro _; rfl)) h seq _ _

theorem Calm.rebuildRow {b : Block} (hb : Q b) (seq : Nat) (r : Rebuild) : Q (b.rebuildRow seq r) := by
  refine hQ.onCtx ?_ seq _
  unfold Block.rebuildCws
  split
  · exact hb
  · exact hQ.onCtx hb seq _

theorem Calm.rebuildStep {b : Block} (hb : Q b) (h : HalfId) (seq : Nat) (c : Ctx) : Q (b.rebuildStep h seq c) := by
  unfold Block.rebuildStep
  split
  · exact hb
  · next n r _ =>
    split
    · exact hb
    · dsimp only
      have hrow : ∀ q, Q ((b.onHalf h (fun x => x.onRebuild n (fun _ => q))).onCtx seq (fun c => { c with pages := [] })) := fun q =>
        hQ.onCtx (hQ.onHalf _ _ _ hb (by intro _; rfl)) seq _
      split
      · exact hb
      · split
        · exact hQ.rebuildEnds hb _ _ _ _ _ _
        · split
          · split
            · exact hb
            · exact hQ.rebuildWrite (hQ.onCtx (hQ.onHalf _ _ _ hb (by intro _; rfl)) _ _) _ _ _ _
          · split
            · exact hQ.askSense (hQ.askMembers (hQ.rebuildRow (hrow _) _ _) _) _
            · split
              · exact hQ.rebuildWrite (hrow _) _ _ _ _
              · split
                · exact hrow _
                · exact hQ.rebuildEnds (hrow _) _ _ _ _ _ _

theorem Calm.updRecs {b : Block} (hb : Q b) (h : HalfId) (who : Option Nat) (l : List (Nat × Rec)) (more : List JEntry) : Q (b.updRecs h who l more) := by
  unfold Block.updRecs
  have hx : Q (b.onHalf h (fun y => l.foldl (fun (w : Half) e => w.setRec e.1 e.2) y)) := hQ.onHalf b h _ hb (fun x => x.setRecs_calm l)
  exact hQ.journal hx h who _

theorem Calm.closeRegion {b : Block} (hb : Q b) (h : HalfId) (own : Bool) (seq n : Nat) (crc : BitVec 32) : Q (b.closeRegion h own seq n crc) := by
  unfold Block.closeRegion
  exact hQ.finish (hQ.onHalf _ _ _ (hQ.updRecs hb _ _ _ _) (by intro x; exact x.setRegion_calm _ _ _)) h seq _ _

theorem Calm.closeRead {b : Block} (hb : Q b) (h : HalfId) (seq : Nat) (c : Ctx) : Q (b.closeRead h seq c) := by
  unfold Block.closeRead
  dsimp only
  split
  · exact hQ.onCtx (hQ.onCtx hb _ _) _ _
  · exact hQ.askSense (hQ.startCws (hQ.onCtx hb _ _) _ _ _ _ _ _ _ _) _

theorem Calm.closeStep {b : Block} (hb : Q b) (h : HalfId) (seq : Nat) (c : Ctx) : Q (b.closeStep h seq c) := by
  unfold Block.closeStep
  dsimp only
  split
  · exact hQ.finish hb h seq _ _
  · split
    · exact hQ.refuse hb h seq _
    · split
      · exact hQ.closeRead (hQ.onCtx hb _ _) h seq _
      · split
        all_goals
          split
          · exact hQ.closeRegion hb h _ seq _ _
          · exact hQ.refuse hb h seq _

theorem Calm.finishOne {b : Block} (hb : Q b) (seq : Nat) : Q (b.finishOne seq) := by
  have hstep : ∀ h (c : Ctx), Q (if c.readLeft then b.copyStep h seq c
        else if c.moved && c.pages.all (fun p => decide (p.st = .passed) || decide (p.st = .failed)) then b.programStep h seq c
        else b) := by
    intro h c
    split
    · exact hQ.copyStep hb h seq c
    · split
      · exact hQ.programStep hb h seq c
      · exact hb
  have hdata : ∀ h (c : Ctx), Q (if c.moved then b.finish h seq (c.flags.status .doneOk) c.result.toNat else b) := by
    intro h c
    split
    · exact hQ.finish hb h seq _ _
    · exact hb
  unfold Block.finishOne
  split
  · exact hb
  · split
    · exact hb
    · split
      · exact hQ.pump (hQ.onCtx hb _ _) _
      · split
        · split
          · exact hQ.endRead hb _ seq _
          · exact hb
        · split
          · exact hQ.endRead hb _ seq _
          · exact hb
        · split
          · exact hQ.finish hb _ seq _ _
          · exact hb
        · exact hstep _ _
        · exact hstep _ _
        · exact hstep _ _
        · exact hstep _ _
        · exact hdata _ _
        · exact hdata _ _
        · exact hdata _ _
        · exact hQ.rebuildStep hb _ seq _
        · split
          · exact hQ.endProfileLoad hb _ seq _
          · exact hb
        · exact hQ.finish hb _ seq _ _
        · exact hQ.closeStep hb _ seq _
        · exact hb

theorem Calm.tryFinish {b : Block} (hb : Q b) (seq : Nat) : Q (b.tryFinish seq) :=
  Block.each_keeps (Q := Q) (fun _ e ha => hQ.finishOne ha e) _ (Block.each_keeps (Q := Q) (fun _ e ha => hQ.finishOne ha e) _ (hQ.finishOne hb seq))

/-- After a codeword has moved on. -/
theorem Calm.settle {b : Block} (hb : Q b) (seq : Nat) : Q (b.settle seq) :=
  hQ.askWaiting (hQ.tryFinish (hQ.askSense (hQ.askMembers hb seq) seq) seq)

theorem Calm.startFill {b : Block} (hb : Q b) (h : HalfId) (r n : Nat) (second : Bool) : Q (b.startFill h r n second) := by
  unfold Block.startFill
  split
  · exact hb
  · exact hQ.settle (hQ.onHalf _ _ _ hb (by intro _; rfl)) _

theorem Calm.askFill {b : Block} (hb : Q b) (h : HalfId) (r n : Nat) : Q (b.askFill h r n) := by
  unfold Block.askFill
  dsimp only
  split
  · exact hb
  · exact hQ.startFill (hQ.onHalf _ _ _ hb (by intro _; rfl)) h r n false

end

end Sys2Proof.Machine
end

section
/-!
PROOFS. The code window (R55, R128-R132) and doorbells (R306, R307, R323-R326, R348).
-/

namespace Sys2Proof.Machine

open Sys2Proof

/-- Equal blocks are equal next states. -/
theorem next_congr (s : State) {b c : Block} (hbc : b = c) : (Host.Outcome.next (s.withBlock b) : Host.Outcome State Fault Refusal) = .next (s.withBlock c) :=
  hbc ▸ rfl

/-! ### Prefetching -/

/-- The code window of half `h` does not prefetch. -/
def Block.NoPrefetch (h : HalfId) (b : Block) : Prop := (b.half h).win.prefetch = false

theorem Block.calm_noPrefetch (h : HalfId) : Calm (Block.NoPrefetch h) where
  onHalf b k f hb hf := by
    have hpart := Block.onHalf_view (fun x : Half => x.win.prefetch) b k h (f := f) (fun x => congrArg (fun p => p.2.2.2) (hf x))
    exact hpart.trans hb
  raise b k n hb := (Block.raise_view (fun x : Half => x.win.prefetch) (fun _ _ => rfl) b k h n).trans hb
  groups _ _ hb := hb

theorem Block.prefetch_off {b : Block} {h : HalfId} (hb : b.NoPrefetch h) (r n offset : Nat) : b.prefetch h r n offset = b := by
  unfold Block.NoPrefetch at hb
  simp [Block.prefetch, hb]

/-- The lines ahead of a burst's are asked for only where the window prefetches. -/
theorem Block.prefetchAll_off {b : Block} {h : HalfId} (hb : b.NoPrefetch h) (l : List (Nat × Nat)) (offset : Nat) :
    l.foldl (fun (z : Block) e => z.prefetch h e.1 e.2 offset) b = b := by
  induction l with
  | nil => rfl
  | cons e l ih => rw [List.foldl_cons, Block.prefetch_off hb, ih]

theorem Window.served_prefetch (w : Window) (l : List (Nat × Nat)) : (w.served l).prefetch = w.prefetch := by
  unfold Window.served
  refine List.foldlRecOn (motive := fun v : Window => v.prefetch = w.prefetch) l _ rfl (fun v hv e _ => ?_)
  cases v.line? e.1 e.2 <;> exact hv

/-! ### Fetches -/

theorem Block.fetchLine_of_bad {b : Block} {h : HalfId} {offset beats : Nat} {attr : Bool}
    (hbad : burstOk offset beats attr = false ∨ (b.half h).win.burstLines offset beats = none) :
    b.fetchLine h offset beats attr = b.respond h Resp.error := by
  rcases hbad with hbad | hbad <;> simp [Block.fetchLine, hbad]

section
variable {b : Block} {h : HalfId} {offset beats : Nat} {attr : Bool} {l : List (Nat × Nat)}
  (hok : burstOk offset beats attr = true) (hl : (b.half h).win.burstLines offset beats = some l)
include hok hl

theorem Block.fetchLine_of_held (hheld : (b.half h).win.holds l = true) (hpre : (b.half h).win.prefetch = false) :
    b.fetchLine h offset beats attr =
      (b.onHalf h (fun x => x.onWin (fun w => w.served l))).respond h ((b.half h).win.answer offset beats) := by
  simp only [Block.fetchLine, hok, hl, hheld, if_true]
  refine Block.prefetchAll_off ?_ l offset
  simp [Block.NoPrefetch, Block.respond, Half.onWin, Window.served_prefetch, hpre]

theorem Block.fetchLine_of_latched (hheld : (b.half h).win.holds l = false) (hlatch : b.pair.latched = true) :
    b.fetchLine h offset beats attr = b.respond h Resp.error := by
  simp [Block.fetchLine, hok, hl, hheld, hlatch]

theorem Block.fetchLine_of_missing (hheld : (b.half h).win.holds l = false) (hpre : (b.half h).win.prefetch = false) (hlatch : b.pair.latched = false) :
    b.fetchLine h offset beats attr = l.foldl (fun z e => z.askFill h e.1 e.2)
      (b.onHalf h (fun x => x.onWin (fun w => { w with stalled := w.stalled ++ [(offset, beats)] }))) := by
  simp only [Block.fetchLine, hok, hl, hheld, hlatch, if_true, Bool.false_eq_true, if_false]
  refine Block.prefetchAll_off ?_ l offset
  refine Block.each_keeps (Q := Block.NoPrefetch h) (fun a e ha => (Block.calm_noPrefetch h).askFill ha h e.1 e.2) l ?_
  simp [Block.NoPrefetch, Half.onWin, hpre]

end

/-! ### Line fills and line boundaries -/

/-- Away from the line boundary the window stays as it is. -/
theorem Window.boundary_of_busy {w : Window} (hbusy : w.fills ≠ [] ∨ w.stalled ≠ []) : w.boundary = w := by
  rcases hbusy with hbusy | hbusy <;> simp [Window.boundary, hbusy]

theorem Window.boundary_idle {w : Window} (hpend : w.pend = none) (hflush : w.flushDue = false) : w.boundary = w := by
  simp [Window.boundary, hpend, hflush]

section
variable {w : Window} (hfills : w.fills = []) (hstalled : w.stalled = [])
include hfills hstalled

theorem Window.boundary_of_pending {m : Tab WinMap} (hpend : w.pend = some m) (hflush : (w.applyMap m).flushDue = false) :
    w.boundary = w.applyMap m := by
  simp [Window.boundary, hfills, hstalled, hpend, hflush]

theorem Window.commit_taken (hflush : w.flushDue = false) (hfault : w.mapFault w.shadow = none) :
    Window.boundary { w with pend := some w.shadow } = { w with
      pend := none, map := w.shadow, refused := false
      lines := w.lines.filter (fun l => decide (Tab.get WinMap.off w.map l.region = Tab.get WinMap.off w.shadow l.region)) } := by
  have happly : Window.applyMap { w with pend := some w.shadow } w.shadow = { w with
      pend := none, map := w.shadow, refused := false
      lines := w.lines.filter (fun l => decide (Tab.get WinMap.off w.map l.region = Tab.get WinMap.off w.shadow l.region)) } := by
    unfold Window.applyMap
    rw [show Window.mapFault { w with pend := some w.shadow } w.shadow = none from hfault]
  refine (Window.boundary_of_pending (w := { w with pend := some w.shadow }) hfills hstalled rfl ?_).trans happly
  rw [happly]
  exact hflush

theorem Window.commit_refused {c : Nat} (hflush : w.flushDue = false) (hfault : w.mapFault w.shadow = some c) :
    Window.boundary { w with pend := some w.shadow } = { w with pend := none, shadow := w.map, refused := true, cause := c } := by
  have happly : Window.applyMap { w with pend := some w.shadow } w.shadow = { w with pend := none, shadow := w.map, refused := true, cause := c } := by
    unfold Window.applyMap
    rw [show Window.mapFault { w with pend := some w.shadow } w.shadow = some c from hfault]
  refine (Window.boundary_of_pending (w := { w with pend := some w.shadow }) hfills hstalled rfl ?_).trans happly
  rw [happly]
  exact hflush

theorem Window.flush_done (hpend : w.pend = none) : Window.boundary { w with flushDue := true } = { w with lines := [], flushDue := false } := by
  simp [Window.boundary, hfills, hstalled, hpend]

end

theorem Half.serveStalled_win (x : Half) : x.serveStalled.win =
    { x.win with stalled := x.win.stalled.filter (fun f => !(x.win.burstLines f.1 f.2).any x.win.holds) } := by
  unfold Half.serveStalled Half.onWin
  have hkeep : ∀ l : List (Nat × Nat), (l.foldl (fun (z : Half) f => { z with port := z.win.answer f.1 f.2 }) x).win = x.win := fun l =>
    List.foldlRecOn (motive := fun z : Half => z.win = x.win) l _ rfl (fun z hz e _ => hz)
  simp only [hkeep]

theorem Half.fillLine_lines (x : Half) (h : HalfId) (l : FLine) (hpend : x.win.pend = none) (hflush : x.win.flushDue = false) :
    (x.fillLine h l).win.lines = (l :: x.win.lines).take 32 := by
  unfold Half.fillLine
  dsimp only
  rw [show ∀ y : Half, (y.onWin Window.boundary).win = y.win.boundary from fun _ => rfl, Half.serveStalled_win,
    Window.boundary_idle (by exact hpend) (by exact hflush)]
  rfl

/-- A fill whose read of copy 0 gave its codeword. -/
theorem Block.fillStep_of_read {b : Block} {h : HalfId} {r n : Nat} {k : Cw} (hread : b.fillRead h r n false = some k) (hgood : k.unc = false) :
    b.fillStep h r n = b.onHalf h (fun x => x.fillLine h { region := r, line := n, data := k.data.user, poison := false }) := by
  simp [Block.fillStep, hread, hgood]

/-- Settles O28: fetches, fills and the line boundary, case by case. -/
theorem codeWindow : Obligations.CodeWindow := by
  refine ⟨fun h s ht => ?_, ?_, fun h r n k s hcore hdue hread hgood => ?_, fun x h l hpend hflush => x.fillLine_lines h l hpend hflush, ?_⟩
  · exact (portRun_of_takes ht causeRegister (.targetAccessOutside h) _)
  · intro h offset beats attr s ht b w
    have hrun : exec (.fetch h offset beats attr) s = .next (s.withBlock (b.fetchLine h offset beats attr)) :=
      portRun_of_takes ht causeFetch (.fetch h offset beats attr) _
    rw [hrun]
    refine ⟨fun hbad => ?_, fun l hok hl => ⟨fun hheld hpre => ?_, fun hheld hlatch => ?_, fun hheld hpre hlatch => ?_⟩⟩
    · rw [Block.fetchLine_of_bad hbad]
    · rw [Block.fetchLine_of_held hok hl hheld hpre]; rfl
    · rw [Block.fetchLine_of_latched hok hl hheld hlatch]
    · rw [Block.fetchLine_of_missing hok hl hheld hpre hlatch]; rfl
  · have hexec : exec (.lineFill h) s = execLineFill h s := rfl
    simp only [hexec, execLineFill, run_eq, hcore, if_true, hdue, Block.fillStep_of_read hread hgood, State.withBlock]
  · intro h s ht b w
    have hcommit : exec (.rgnCommitGo h) s = .next (s.withBlock (b.onHalf h (fun x => x.onWin (fun w => { w with pend := some w.shadow }.boundary)))) :=
      portRun_of_takes ht causeRegister (.rgnCommitGo h) _
    have hflush : exec (.rgnLineFlush h) s = .next (s.withBlock (b.onHalf h (fun x => x.onWin (fun w => { w with flushDue := true }.boundary)))) :=
      portRun_of_takes ht causeRegister (.rgnLineFlush h) _
    rw [hcommit, hflush]
    refine ⟨fun hf hs hd hm => ?_, fun c hf hs hd hm => ?_, fun hf hs hp => ?_, fun hbusy => ⟨?_, ?_⟩⟩
    · exact next_congr s (Block.onHalf_congr (congrArg (fun v => { b.half h with win := v }) (Window.commit_taken hf hs hd hm)))
    · exact next_congr s (Block.onHalf_congr (congrArg (fun v => { b.half h with win := v }) (Window.commit_refused hf hs hd hm)))
    · exact next_congr s (Block.onHalf_congr (congrArg (fun v => { b.half h with win := v }) (Window.flush_done hf hs hp)))
    · exact next_congr s (Block.onHalf_congr (congrArg (fun v => { b.half h with win := v }) (Window.boundary_of_busy (w := { w with pend := some w.shadow }) hbusy)))
    · exact next_congr s (Block.onHalf_congr (congrArg (fun v => { b.half h with win := v }) (Window.boundary_of_busy (w := { w with flushDue := true }) hbusy)))

/-! ### Doorbells -/

/-- What a doorbell does with the tail of a queue that is live and not in error. -/
theorem Block.doorbell_of_live {b : Block} {h : HalfId} {ad : Bool} {q : Nat} {u : Queue} (t : Nat) (hq : q < Config.queues b.variant)
    (htake : (b.half h).takesDoorbells = true) (hu : (b.half h).que.queue? ad q = some u) (hsize : u.size ≠ 0) (hlive : u.live = true)
    (hstate : u.state ≠ .error) :
    b.doorbell h ad q t =
      let r := u.ring' t
      let b1 := b.onHalf h (fun x => x.onQueue ad q (fun _ => r.1))
      if r.2 then
        if b.linked then b1.send h (.tail ad q t)
        else b1.onHalf h (fun x => x.onQueue ad q (fun u => { u with seen := t }))
      else if r.1.state = .error then b1.tellStop h ad q false
      else b1 := by
  simp [Block.doorbell, Nat.not_le.mpr hq, htake, hu, hsize, hlive, hstate]

theorem Block.doorbell_of_absent {b : Block} {h : HalfId} {ad : Bool} {q : Nat} (t : Nat) (hq : q < Config.queues b.variant)
    (hno : (b.half h).takesDoorbells = false ∨ (b.half h).que.queue? ad q = none) :
    b.doorbell h ad q t = b.onHalf h (fun x => x.stray ad q) := by
  rcases hno with hno | hno <;> simp [Block.doorbell, Nat.not_le.mpr hq, hno]

theorem Block.doorbell_of_dead {b : Block} {h : HalfId} {ad : Bool} {q : Nat} {u : Queue} (t : Nat) (hq : q < Config.queues b.variant)
    (htake : (b.half h).takesDoorbells = true) (hu : (b.half h).que.queue? ad q = some u) (hdead : u.size = 0 ∨ u.live = false) :
    b.doorbell h ad q t = b.onHalf h (fun x => x.stray ad q) := by
  rcases hdead with hdead | hdead <;> simp [Block.doorbell, Nat.not_le.mpr hq, htake, hu, hdead]

@[simp] theorem Queue.dirty_state (u : Queue) : u.dirty.state = u.state := by
  unfold Queue.dirty
  split <;> rfl

theorem Queue.stop_state (u : Queue) (cause index : Nat) : (u.stop cause index).state = .error := by
  unfold Queue.stop
  split
  · assumption
  · rw [Queue.dirty_state]

theorem Queue.ring'_past {u : Queue} {t : Nat} (h : u.ringSize ≤ t) : u.ring' t = (u.stop 6 t, false) := by
  simp [Queue.ring', h]

theorem Queue.ring'_overfull {u : Queue} {t : Nat} (h : t < u.ringSize) (hfull : u.free < u.claimed t) : u.ring' t = (u.stop 7 t, false) := by
  simp [Queue.ring', Nat.not_le.mpr h, hfull]

theorem Queue.ring'_nothing {u : Queue} {t : Nat} (h : t < u.ringSize) (hnone : u.claimed t = 0) : u.ring' t = (u, false) := by
  simp [Queue.ring', Nat.not_le.mpr h, hnone]

theorem Queue.ring'_accepted {u : Queue} {t : Nat} (h : t < u.ringSize) (hsome : u.claimed t ≠ 0) (hfits : u.claimed t ≤ u.free) :
    u.ring' t = ({ u with tail := t }.dirty, true) := by
  simp [Queue.ring', Nat.not_le.mpr h, Nat.not_lt.mpr hfits, hsome]

/-- Settles O29: each outcome of the ring's check by its own rule. -/
theorem doorbellsMoveTheTail : Obligations.DoorbellsMoveTheTail := by
  intro h ad q value s ht hq cmd b x t
  have hq' : q < Config.queues b.variant := by rw [Block.taken_variant]; exact hq
  have hrun : exec cmd s = .next (s.withBlock (b.doorbell h ad q t)) := exec_doorbell_of_takes ht ad q value
  rw [hrun]
  refine ⟨fun hno => ?_, fun u htake hu hdead => ?_, fun u htake hu hsize hlive hstate => ?_⟩
  · rw [Block.doorbell_of_absent t hq' hno]
  · rw [Block.doorbell_of_dead t hq' htake hu hdead]
  · rw [Block.doorbell_of_live t hq' htake hu hsize hlive hstate]
    refine ⟨fun hpast => ?_, fun hin hfull => ?_, fun hin hnone => ?_, fun hin hsome hfits hlink => ?_, fun hin hsome hfits hlink => ?_⟩
    · simp only [Queue.ring'_past hpast, Bool.false_eq_true, if_false, Queue.stop_state, if_true]
    · simp only [Queue.ring'_overfull hin hfull, Bool.false_eq_true, if_false, Queue.stop_state, if_true]
    · simp only [Queue.ring'_nothing hin hnone, Bool.false_eq_true, if_false, hstate]
    · simp only [Queue.ring'_accepted hin hsome hfits, if_true, hlink, Bool.false_eq_true, if_false]
    · simp only [Queue.ring'_accepted hin hsome hfits, if_true, hlink]

end Sys2Proof.Machine
end

section
/-!
PROOFS. Control of queues (R306, R335, R336, R351), the fetching of entries and the range-lock table (R328-R333, R398-R400, R407).
-/

namespace Sys2Proof.Machine

open Sys2Proof

/-! ### Queue control -/

theorem Block.control_of_queue {b : Block} {h : HalfId} {ad : Bool} {q : Nat} {u : Queue} (hu : (b.half h).que.queue? ad q = some u) (a : QAct) :
    b.control h ad q a = b.queueCtl h ad q a := by
  simp [Block.control, hu]

theorem Block.queueCtl_alone {b : Block} (hlink : b.linked = false) (h : HalfId) (ad : Bool) (q : Nat) (a : QAct) :
    b.queueCtl h ad q a = b.onHalf h (fun x => x.queueAct ad q a) := by
  simp [Block.queueCtl, hlink]

theorem Block.queueCtl_linked {b : Block} (hlink : b.linked = true) (h : HalfId) (ad : Bool) (q : Nat) (a : QAct) :
    b.queueCtl h ad q a = b.send h (.queue ad q a) := by
  simp [Block.queueCtl, hlink]

theorem Half.restartQueue_of_error {x : Half} {ad : Bool} {q : Nat} {u : Queue} (hu : x.que.queue? ad q = some u) (he : u.state = .error) :
    x.restartQueue ad q = (x.onQue (fun m => m.retryReplies ad q)).onQueue ad q Queue.restart := by
  simp [Half.restartQueue, hu, he]

theorem Half.restartQueue_of_ok {x : Half} {ad : Bool} {q : Nat} {u : Queue} (hu : x.que.queue? ad q = some u) (he : u.state ≠ .error) :
    x.restartQueue ad q = x := by
  simp [Half.restartQueue, hu, he]

/-- What a restart gives a queue in the error state. -/
theorem Queue.restart_of_error {u : Queue} (he : u.state = .error) :
    u.restart.state = (if u.disable then .draining else .active) ∧ u.restart.errCause = 0 ∧ u.restart.errIndex = 0 ∧
      u.restart.dbIgnored = false ∧ u.restart.fetch = u.fetch ∧ u.restart.tail = u.tail := by
  have hdirty : ∀ v : Queue, v.dirty.state = v.state ∧ v.dirty.errCause = v.errCause ∧ v.dirty.errIndex = v.errIndex ∧
      v.dirty.dbIgnored = v.dbIgnored ∧ v.dirty.fetch = v.fetch ∧ v.dirty.tail = v.tail := by
    intro v
    unfold Queue.dirty
    split <;> exact ⟨rfl, rfl, rfl, rfl, rfl, rfl⟩
  unfold Queue.restart
  rw [if_pos he]
  exact hdirty _

/-- The fields of the admin queue's configuration that a SIZE takes. -/
def QueMgr.adminRing (m : QueMgr) : Nat × BitVec 64 × BitVec 64 := (m.admSize, m.admRing, m.admHdr)

/-- A first valid SIZE stands, with the ring's and the header's addresses. -/
theorem Block.writeAdmCfg_first {b : Block} {h : HalfId} {value : Word} (hno : (b.half h).que.admSize = 0) (hlo : 4 ≤ value.field 0 4)
    (hhi : value.field 0 4 ≤ 14) :
    ((b.writeAdmCfg h value).half h).que.adminRing = (value.field 0 4, (b.half h).que.admRing, (b.half h).que.admHdr) := by
  unfold Block.writeAdmCfg
  simp only [hno, hlo, hhi, decide_true, Bool.and_self, if_true]
  split
  · simp [QueMgr.adminRing, QueMgr.onQueue]
  · rw [Block.send_view (fun x => x.que.adminRing) (fun _ _ => rfl)]
    simp [QueMgr.adminRing, QueMgr.onQueue]

theorem Block.writeAdmCfg_later {b : Block} {h : HalfId} {value : Word}
    (hno : (b.half h).que.admSize ≠ 0 ∨ value.field 0 4 < 4 ∨ 14 < value.field 0 4) :
    b.writeAdmCfg h value = b.onHalf h (fun x => x.onQue (fun m => { m with
      admGutter := if value.field 4 5 < Config.gutters b.variant then value.field 4 5 else m.admGutter
      admNotify := value.bit 9, admQuota := quotaLimits b.variant (value.field 16 12) })) := by
  unfold Block.writeAdmCfg
  dsimp only
  refine if_neg ?_
  simp only [Bool.and_eq_true, decide_eq_true_eq]
  omega

/-- Settles O31: each control by its rule, alone and with a twin attached. -/
theorem queueControl : Obligations.QueueControl := by
  refine ⟨?_, fun u he => u.restart_of_error he, ?_, ?_⟩
  · intro h ad q on u s ht b hu
    have hdisable : exec (.queueDisable h ad q on) s = .next (s.withBlock (b.control h ad q (.disable on))) :=
      portRun_of_takes ht causeRegister (.queueDisable h ad q on) _
    have hrestart : exec (.queueRestart h ad q) s = .next (s.withBlock (b.control h ad q .restart)) :=
      portRun_of_takes ht causeRegister (.queueRestart h ad q) _
    rw [hdisable, hrestart, Block.control_of_queue hu, Block.control_of_queue hu]
    refine ⟨fun hlink => ⟨?_, fun he => ?_, fun he => ?_⟩, fun hlink => ⟨?_, ?_⟩⟩
    · rw [Block.queueCtl_alone hlink]; rfl
    · rw [Block.queueCtl_alone hlink]
      exact next_congr s (Block.onHalf_congr (Half.restartQueue_of_error hu he))
    · rw [Block.queueCtl_alone hlink]
      exact next_congr s (Block.onHalf_congr (Half.restartQueue_of_ok hu he))
    · rw [Block.queueCtl_linked hlink]
    · rw [Block.queueCtl_linked hlink]
  · intro h value s ht b
    have hrun : exec (.adminQueueConfig h value) s = .next (s.withBlock (b.writeAdmCfg h value)) :=
      portRun_of_takes ht causeRegister (.adminQueueConfig h value) _
    refine ⟨fun hno => ?_, fun hno hlo hhi => ⟨_, hrun, rfl, ?_⟩⟩
    · rw [hrun, Block.writeAdmCfg_later hno, show b.variant = s.blk.variant from Block.taken_variant _ _ _]
    · have hfields := Block.writeAdmCfg_first hno hlo hhi
      simp only [QueMgr.adminRing, Prod.mk.injEq] at hfields
      exact hfields
  · intro h s ht b
    exact portRun_of_takes ht causeRegister (.queSeqRead h) _

/-! ### Fetching -/

theorem Block.coreRuns_unfrozen {b : Block} {h : HalfId} (hcore : b.coreRuns h = true) : b.pair.frozen = false := by
  simp only [Block.coreRuns, Bool.and_eq_true, Bool.not_eq_true'] at hcore
  simp only [hcore]

/-- A command to the master port of a half whose CLK_CORE runs takes place at once. -/
theorem masterRun_of_core {s : State} {h k : HalfId} (hcore : s.blk.coreRuns h = true) (i : Instr) (f : Block → Block) :
    masterRun k i f s = .next (s.withBlock (f s.blk)) := by
  simp only [masterRun, run_eq, Block.coreRuns_unfrozen hcore, Bool.false_eq_true, if_false, State.withBlock]

/-! ### Two entries under one sequence number -/

/-- A READ that waits at the range-lock table, and a job of the half itself kept under the same number: a RELEASE of tag 0. -/
def stalledOf (o : Opcode) : Ctx := Ctx.fresh 0 false 0 0 o 0 false

/-- A half that holds tag 0, with the command and the job under number 5. -/
def twiceNumbered : State :=
  { State.reset with blk := State.reset.blk.onHalf .a (fun x => { x with
      boot := { x.boot with coreLock := true, heldReset := false, hrst := false }
      pool := { x.pool with holds := [(0, { pages := [], poison := [] })] }
      que := { x.que with ctxs := [(5, stalledOf .read)], jobs := [(5, stalledOf .release)] } }) }

/-- The job under number 5 has taken its hold in a next state. -/
def jobTook (o : Host.Outcome State Fault Refusal) : Bool :=
  match o with
  | .next t => ((t.blk.half .a).que.jobs.find? 5).any Ctx.took
  | _ => false

/-- Refutes O32: leaving the range-lock table sets each entry's hold under the sequence number by that entry's own operands, so a job kept under the
number of the command takes its hold, where the statement has it take what the command names. -/
theorem not_entryFetching : ¬ Obligations.EntryFetching := by
  intro hall
  obtain ⟨-, -, -, hleave⟩ := hall
  have hnext := hleave .a 5 (stalledOf .read) twiceNumbered (by decide +kernel) (by decide +kernel) rfl (by decide +kernel) rfl
  have htook := congrArg jobTook hnext
  exact absurd htook (by decide +kernel)

end Sys2Proof.Machine
end

section
/-!
PROOFS. Replies, headers and their answers (R314-R320, R332, R333, R340, R343, R344, R408).
-/

namespace Sys2Proof.Machine

open Sys2Proof

/-- Settles O33: each write and each answer by its own branch. -/
theorem repliesAndHeaders : Obligations.RepliesAndHeaders := by
  intro h s hcore
  dsimp only
  refine ⟨fun seq c u st hw hc hu hfin hmay => ?_, fun ad q i u hw hu hout hmal => ?_, fun seq c hc hout => ⟨?_, ?_⟩, fun ad q u hu hd ho hw => ?_,
    fun ad q hout => ⟨?_, ?_⟩⟩
  · have hexec : exec (.replyWrite h (.cmd seq)) s = execReplyWrite h (.cmd seq) s := rfl
    simp [hexec, execReplyWrite, State.withBlock, hcore, hw, hc, hu, hfin, hmay]
  · have hexec : exec (.replyWrite h (.bad ad q i)) s = execReplyWrite h (.bad ad q i) s := rfl
    simp only [hexec, execReplyWrite, run_eq, State.withBlock, hcore, hw, hu, hout, hmal, Bool.not_true, Bool.not_false, Bool.and_self,
      Bool.false_eq_true, if_true, if_false]
  · have hexec : exec (.replyAck h (.cmd seq)) s = execReplyAck h (.cmd seq) s := rfl
    rw [hexec, execReplyAck, masterRun_of_core hcore]
    simp [hcore, hc, hout]
  · have hexec : exec (.replyError h (.cmd seq)) s = execReplyError h (.cmd seq) s := rfl
    rw [hexec, execReplyError, masterRun_of_core hcore]
    simp [hcore, hc, hout]
  · have hexec : exec (.headerWrite h ad q) s = execHeaderWrite h ad q s := rfl
    simp [hexec, execHeaderWrite, State.withBlock, hcore, hu, hd, ho, hw]
  · have hexec : exec (.headerWriteAck h ad q) s = execHeaderWriteAck h ad q s := rfl
    rw [hexec, execHeaderWriteAck, masterRun_of_core hcore]
    simp [hcore, hout]
  · have hexec : exec (.headerError h ad q) s = execHeaderError h ad q s := rfl
    rw [hexec, execHeaderError, masterRun_of_core hcore]
    simp [hcore, hout]

end Sys2Proof.Machine
end

section
/-!
PROOFS. Commands that have left the range-lock table: reads (R258, R262, R269, R362-R365) and the commands that return data through BUF (R374, R375, R383, R385).
-/

namespace Sys2Proof.Machine

open Sys2Proof

/-- A command that has left the range-lock table, at a half whose CLK_CORE runs and whose journal is open, has its effect. -/
theorem onLeft_of_left {s : State} {h : HalfId} {seq : Nat} {o : Opcode} {c : Ctx} (hleft : s.blk.Left h seq o c) (f : Block → Ctx → Block) :
    onLeft h seq o f s = .next (s.withBlock (f s.blk c)) := by
  obtain ⟨hctx, hcore, hopen⟩ := hleft
  simp [onLeft, hctx, hcore, hopen, State.withBlock]

/-! ### Reads -/

theorem Block.readCmd_nowhere {b : Block} {c : Ctx} (hno : b.locate c.entry.paddr = none) (h : HalfId) (seq : Nat) (nru stream : Bool) :
    b.readCmd h seq c nru stream = b.finish h seq .addressRange 0 := by
  simp [Block.readCmd, hno, Block.refuse]

section
variable {b : Block} {c : Ctx} {t : Place} (ht : b.locate c.entry.paddr = some t)
include ht

theorem Block.readCmd_refused {st : Status} (hst : b.readFault t (addrOf c.entry.paddr).slot (c.entry.bytes 44 2) = some st) (h : HalfId) (seq : Nat)
    (nru stream : Bool) : b.readCmd h seq c nru stream = b.finish h seq st 0 := by
  simp [Block.readCmd, ht, hst, Block.refuse]

theorem Block.readCmd_started (hok : b.readFault t (addrOf c.entry.paddr).slot (c.entry.bytes 44 2) = none) (h : HalfId) (seq : Nat)
    (nru stream : Bool) :
    b.readCmd h seq c nru stream = b.readFrom seq t (addrOf c.entry.paddr).slot (c.entry.bytes 44 2) nru stream := by
  simp [Block.readCmd, ht, hok]

end

theorem Block.rawCmd_nowhere {b : Block} {c : Ctx} (hno : b.locate c.entry.paddr = none) (h : HalfId) (seq : Nat) :
    b.rawCmd h seq c = b.finish h seq .addressRange 0 := by
  simp [Block.rawCmd, hno, Block.refuse]

theorem Block.rawCmd_started {b : Block} {c : Ctx} {t : Place} (ht : b.locate c.entry.paddr = some t)
    (hok : b.readFault t (addrOf c.entry.paddr).slot 1 = none) (hthere : b.goneUnit t = false) (h : HalfId) (seq : Nat) :
    b.rawCmd h seq c = (b.onCtx seq (fun c => { c with phase := .running, xfer := .wanted })).startCws seq t (b.servedPlace t)
      (addrOf c.entry.paddr).slot 1 (if c.entry.flag 0 then c.entry.byte 46 % 16 else (b.recAt (b.servedPlace t)).tension.toNat) .raw .main := by
  simp [Block.rawCmd, ht, hok, hthere]

/-- Settles O34: the place, the checks and the start of each of the three reads. -/
theorem readsStartTheLadder : Obligations.ReadsStartTheLadder := by
  intro h seq c s
  dsimp only
  refine ⟨fun hleft => ?_, fun hleft => ?_, fun hleft => ?_⟩
  · have hrun : exec (.read h seq) s = .next (s.withBlock (s.blk.readCmd h seq c true true)) := (show exec (.read h seq) s = execRead h seq s from rfl).trans (onLeft_of_left hleft _)
    rw [hrun]
    refine ⟨fun hno => ?_, fun t ht => ⟨fun st hst => ?_, fun hok => ?_⟩⟩
    · rw [Block.readCmd_nowhere hno]
    · rw [Block.readCmd_refused ht hst]
    · rw [Block.readCmd_started ht hok]
      rfl
  · have hrun : exec (.patrol h seq) s = .next (s.withBlock ((s.blk.readCmd h seq c false false).placeJobs h)) := (show exec (.patrol h seq) s = execPatrol h seq s from rfl).trans (onLeft_of_left hleft _)
    rw [hrun]
    refine ⟨fun hno => ?_, fun t ht => ⟨fun st hst => ?_, fun hok => ?_⟩⟩
    · rw [Block.readCmd_nowhere hno]
    · rw [Block.readCmd_refused ht hst]
    · rw [Block.readCmd_started ht hok]
      rfl
  · have hrun : exec (.readRaw h seq) s = .next (s.withBlock (s.blk.rawCmd h seq c)) := (show exec (.readRaw h seq) s = execReadRaw h seq s from rfl).trans (onLeft_of_left hleft _)
    rw [hrun]
    refine ⟨fun hno => ?_, fun t ht hok hthere => ?_⟩
    · rw [Block.rawCmd_nowhere hno]
    · rw [Block.rawCmd_started ht hok hthere]

/-! ### Data returned through BUF -/

theorem Block.blankCmd_started {b : Block} {c : Ctx} {t : Place} (ht : b.locateUnit c.entry.paddr = some t) (hlost : b.lostRec t.keep t.idx = false)
    (hfly : (b.recAt t).fly = false) (hdie : b.dieRetired t.idx = false) (hrgn : (b.recAt t).rgnOwn = false) (h : HalfId) (seq : Nat) :
    b.blankCmd h seq c = b.sampleStart seq c t := by
  simp [Block.blankCmd, ht, hlost, hfly, hdie, hrgn]

/-- Settles O35: the bytes each query puts into BUF, and a blank check's samples. -/
theorem queriesAnswer : Obligations.QueriesAnswer := by
  intro h seq c s
  dsimp only
  refine ⟨fun hleft => ?_, fun hleft => ?_, fun hleft hlen => ?_, fun hleft hlatch t ht hlost hfly hdie hrgn => ?_⟩
  · exact (show exec (.victim h seq) s = execVictim h seq s from rfl).trans (onLeft_of_left hleft _)
  · exact (show exec (.identify h seq) s = execIdentify h seq s from rfl).trans (onLeft_of_left hleft _)
  · have hrun : exec (.logGet h seq) s = .next (s.withBlock (s.blk.toBuf seq
        (packed ((s.blk.half h).logFields (c.entry.byte 20)) / 2 ^ (8 * c.entry.bytes 24 4)) (c.entry.bytes 28 4)
        (atByte 49 (((s.blk.half h).logFields (c.entry.byte 20)).map Prod.snd).sum 32))) := (show exec (.logGet h seq) s = execLogGet h seq s from rfl).trans (onLeft_of_left hleft _)
    rw [hrun, Block.toBuf, if_neg (Nat.ne_of_gt hlen)]
  · have hrun : exec (.blankCheck h seq) s = .next (s.withBlock (if s.blk.pair.latched then s.blk else s.blk.blankCmd h seq c)) :=
      (show exec (.blankCheck h seq) s = execBlankCheck h seq s from rfl).trans (onLeft_of_left hleft _)
    rw [hrun, hlatch, Block.blankCmd_started ht hlost hfly hdie hrgn]
    rfl

end Sys2Proof.Machine
end

section
/-!
PROOFS. Programs and copies (R114, R187-R191, R284, R368-R370), erases and invalidations (R113, R114, R207-R209, R372, R373), and the commands about
holds, groups and order (R378, R380-R382).
-/

namespace Sys2Proof.Machine

open Sys2Proof

/-! ### Programs -/

section
variable {b : Block} {h : HalfId} {seq : Nat} {c : Ctx} {p : Place} {page : Option Nat} (horder : b.orderHeld h seq c p.idx = false)
include horder

/-- A program in its order whose data comes from the stream. -/
theorem Block.programCmd_streamed (hheld : c.opcode = .offer ∨ c.entry.flag 2 = false)
    (hok : b.programFault p (c.entry.byte 44) page (decide (c.opcode ≠ .offer)) = none) :
    b.programCmd h seq c (some p) page = if b.declines c p then b.finish h seq .declined 0 else b.programStart h seq c p false := by
  have hno : (decide (c.opcode ≠ .offer) && c.entry.flag 2) = false := by
    rcases hheld with hheld | hheld <;> simp [hheld]
  simp only [Block.programCmd, horder, hno, hok, Bool.false_eq_true, if_false]

/-- A program in its order of the hold it names. -/
theorem Block.programCmd_held (hop : c.opcode ≠ .offer) (hflag : c.entry.flag 2 = true) (hredo : c.redo = false) (hhold : (b.half h).holdFault c = none)
    (hok : b.programFault p (c.entry.byte 44) page true = none) :
    b.programCmd h seq c (some p) page = if b.declines c p then b.finish h seq .declined 0 else b.programStart h seq c p true := by
  simp [Block.programCmd, horder, hop, hflag, hredo, hhold, hok]

end

theorem Block.declines_of_not_offer {c : Ctx} (hop : c.opcode ≠ .offer) (b : Block) (p : Place) : b.declines c p = false := by
  simp [Block.declines, hop]

/-- Only a command executed anew may find its page before WP. -/
theorem Block.atPage_of_first {c : Ctx} (hredo : c.redo = false) (b : Block) (h : HalfId) (p : Place) : b.atPage h c p = some p.page := by
  simp [Block.atPage, hredo]

theorem Block.programStart_streamed (b : Block) (h : HalfId) (seq : Nat) (c : Ctx) (p : Place) : b.programStart h seq c p false =
    ((b.reserve seq p (c.entry.byte 44) true (c.entry.flag 1) none).onCtx seq (fun c => { c.padPoisoned [] with
      phase := .running, xfer := .wanted })).pump p.idx := by
  simp [Block.programStart]

theorem Block.copyCmd_started {b : Block} {c : Ctx} {p : Place} (hp : b.locatePage c.entry.paddr = some p)
    (hok : b.readFault p 0 (4 * c.entry.byte 44) = none) (h : HalfId) (seq : Nat) :
    b.copyCmd h seq c = (b.onCtx seq (fun c => { c with readLeft := true })).readFrom seq p 0 (4 * c.entry.byte 44) false false := by
  simp [Block.copyCmd, hp, hok]

theorem Rec.reserve_wp {r : Rec} {n : Nat} (hn : r.wp.toNat + n < 2 ^ 16) (cap : Nat) (touch stream : Bool) :
    (r.reserve cap n touch stream).wp.toNat = r.wp.toNat + n := by
  simp only [Rec.reserve, BitVec.toNat_ofNat]
  exact Nat.mod_eq_of_lt hn

/-- Settles O36: the command of each program in its order, its start, a copy's reads, and the reservation. -/
theorem programsReserveTheirPages : Obligations.ProgramsReserveTheirPages := by
  refine ⟨fun h seq c p s => ?_, fun b h seq c p => b.programStart_streamed h seq c p, fun h seq c p s hleft hp hok => ?_,
    fun r cap n touch stream hn => ⟨Rec.reserve_wp hn cap touch stream, rfl, rfl, rfl⟩⟩
  · dsimp only
    intro horder
    refine ⟨fun hleft hp hop hok => ⟨fun hflag => ?_, fun hflag hredo hhold => ?_⟩, fun hleft hp hflag hredo hop hok => ?_,
      fun hleft hp hop hok => ⟨fun hdec => ?_, fun hdec => ?_⟩⟩
    · have hno : c.opcode ≠ .offer := by simp [hop]
      rw [show exec (.program h seq) s = execProgram h seq s from rfl, execProgram, onLeft_of_left hleft, hp,
        Block.programCmd_streamed horder (.inr hflag) (by simpa [hno] using hok), Block.declines_of_not_offer hno, if_neg Bool.false_ne_true]
    · have hno : c.opcode ≠ .offer := by simp [hop]
      rw [show exec (.program h seq) s = execProgram h seq s from rfl, execProgram, onLeft_of_left hleft, hp,
        Block.programCmd_held horder hno hflag hredo hhold hok, Block.declines_of_not_offer hno, if_neg Bool.false_ne_true]
    · have hno : c.opcode ≠ .offer := by simp [hop]
      have hpage := Block.atPage_of_first hredo s.blk h p
      rw [show exec (.programAt h seq) s = execProgramAt h seq s from rfl, execProgramAt, onLeft_of_left hleft]
      dsimp only
      rw [hp, Option.bind_some, hpage,
        Block.programCmd_streamed horder (.inr hflag) (by simpa [hno] using hok), Block.declines_of_not_offer hno, if_neg Bool.false_ne_true]
    · rw [show exec (.offer h seq) s = execOffer h seq s from rfl, execOffer, onLeft_of_left hleft, hp,
        Block.programCmd_streamed horder (.inl hop) (by simpa [hop] using hok), hdec, if_pos rfl]
    · rw [show exec (.offer h seq) s = execOffer h seq s from rfl, execOffer, onLeft_of_left hleft, hp,
        Block.programCmd_streamed horder (.inl hop) (by simpa [hop] using hok), hdec, if_neg Bool.false_ne_true]
  · rw [show exec (.copy h seq) s = execCopy h seq s from rfl, execCopy, onLeft_of_left hleft, Block.copyCmd_started hp hok]

/-! ### Erases and invalidations -/

section
variable {b : Block} {c : Ctx} {p : Place} (hp : b.locateUnit c.entry.paddr = some p) (hredo : c.redo = false)
include hp hredo

theorem Block.eraseCmd_refused {st : Status} (hst : b.eraseFault p = some st) (h : HalfId) (seq : Nat) :
    b.eraseCmd h seq c = b.finish h seq st 0 := by
  simp [Block.eraseCmd, hp, hredo, hst, Block.refuse]

theorem Block.eraseCmd_started (hok : b.eraseFault p = none) (h : HalfId) (seq : Nat) :
    b.eraseCmd h seq c = ((b.enterErasing seq p ((b.recAt p).rgnOwn || c.entry.flag 0)).onCtx seq (fun c => { c with
      phase := .running, before := if (b.recAt p).rgnOwn then some (b.recAt p) else none })).pushOps p.idx
        [mkOp .erase seq c.cls p.idx [] ((b.recAt p).rgnOwn || c.entry.flag 0) 0] := by
  simp [Block.eraseCmd, hp, hredo, hok]

theorem Block.invalidateCmd_refused (hlost : b.lostRec p.keep p.idx = false) {st : Status} (hst : invalidateFault (b.recAt p) = some st) (h : HalfId)
    (seq : Nat) : b.invalidateCmd h seq c = b.finish h seq st 0 := by
  simp [Block.invalidateCmd, hp, hredo, hlost, hst, Block.refuse]

theorem Block.invalidateCmd_done (hlost : b.lostRec p.keep p.idx = false) (hok : invalidateFault (b.recAt p) = none) (h : HalfId) (seq : Nat) :
    b.invalidateCmd h seq c =
      ((b.updRec p.keep (some seq) p.idx (b.groupOf c).1 (b.groupOf c).2
        (decide ((b.recAt p).state = .full) && decide ((invalidated (b.recAt p) (c.entry.bytes 28 2)).state = .free))
          (fun _ => invalidated (b.recAt p) (c.entry.bytes 28 2))).underflow p.keep (decide ((b.recAt p).valid.toNat < c.entry.bytes 28 2))).finish h seq
            .doneOk (invalidateResult (invalidated (b.recAt p) (c.entry.bytes 28 2)) (decide ((b.recAt p).valid.toNat < c.entry.bytes 28 2))) := by
  simp [Block.invalidateCmd, hp, hredo, hlost, hok]

end

/-- A unit of no stripe enters erasing by one change of its record. -/
theorem Block.enterErasing_single {b : Block} {p : Place} (hrole : (b.recAt p).role = .none) (seq : Nat) (slc : Bool) :
    b.enterErasing seq p slc = b.updRec p.keep (some seq) p.idx 0 0 false (fun r => { r with state := .erasing, suspCnt := 0, slc := slc }) := by
  simp [Block.enterErasing, hrole, Rec.erasing]

theorem Rec.lower_valid (r : Rec) (n : Nat) : (r.lower n).valid.toNat = r.valid.toNat - n := by
  have hlt : r.valid.toNat - n < 2 ^ 16 := Nat.lt_of_le_of_lt (Nat.sub_le _ _) r.valid.isLt
  simp only [Rec.lower, BitVec.toNat_ofNat]
  exact Nat.mod_eq_of_lt hlt

/-- An invalidation lowers VALID; it touches neither that nor WP where it frees the unit. -/
theorem invalidated_valid (r : Rec) (n : Nat) : (invalidated r n).valid.toNat = r.valid.toNat - n := by
  unfold invalidated
  dsimp only
  split <;> exact Rec.lower_valid r n

theorem invalidated_wp (r : Rec) (n : Nat) : (invalidated r n).wp = r.wp := by
  unfold invalidated
  dsimp only
  split <;> rfl

theorem invalidated_state (r : Rec) (n : Nat) :
    (invalidated r n).state = (if r.state = .full ∧ r.valid.toNat ≤ n then .free else r.state) := by
  have hzero : (r.lower n).valid = 0 ↔ r.valid.toNat ≤ n := by
    rw [← BitVec.toNat_inj, Rec.lower_valid r n]
    simp [Nat.sub_eq_zero_iff_le]
  simp only [invalidated, Bool.and_eq_true, decide_eq_true_eq, hzero]
  split <;> rfl

/-- Settles O37: the refusal and the effect of each, and what an invalidation makes of a record. -/
theorem erasesAndInvalidations : Obligations.ErasesAndInvalidations := by
  refine ⟨fun h seq c p s => ?_, fun r n => ⟨invalidated_valid r n, invalidated_wp r n, invalidated_state r n⟩⟩
  dsimp only
  intro hp hredo
  refine ⟨fun hleft => ?_, fun hleft hlost => ?_⟩
  · rw [show exec (.erase h seq) s = execErase h seq s from rfl, execErase, onLeft_of_left hleft]
    refine ⟨fun st hst => ?_, fun hok hrole => ?_⟩
    · rw [Block.eraseCmd_refused hp hredo hst]
    · rw [Block.eraseCmd_started hp hredo hok, Block.enterErasing_single hrole]
  · rw [show exec (.invalidate h seq) s = execInvalidate h seq s from rfl, execInvalidate, onLeft_of_left hleft]
    refine ⟨fun st hst => ?_, fun hok => ?_⟩
    · rw [Block.invalidateCmd_refused hp hredo hlost hst]
    · rw [Block.invalidateCmd_done hp hredo hlost hok]

/-! ### Holds, groups and fences -/

/-- A group whose members have all ended is closed. -/
theorem Block.commitGroup_eq (b : Block) (h : HalfId) (seq : Nat) (c : Ctx) (g : Group) : b.commitGroup h seq c g =
    let good := decide (g.members.length = c.entry.byte 20) && decide (g.ok.length = g.members.length) && !g.isVoid &&
      !b.pair.voidMarks.contains c.entry.group && !c.entry.flag 0
    (((if good then b.journal h (some seq) [closeEntry c.entry.group g.gseq false] else b.undoGroup h seq c.entry.group g).onPair (fun p => { p with
      groups := p.groups.drop c.entry.group
      voidMarks := p.voidMarks.filter (fun t => decide (t ≠ c.entry.group)) })).finish h seq (if good then .doneOk else .groupVoid) 0) := rfl

/-- Settles O38: each outcome of the three commands, and the return of a fence's read. -/
theorem holdsGroupsAndFences : Obligations.HoldsGroupsAndFences := by
  intro h seq c s
  dsimp only
  refine ⟨fun hleft hredo => ?_, fun hleft hredo g hg => ?_, fun hleft => ?_, fun hcore hread => ?_⟩
  · rw [show exec (.release h seq) s = execRelease h seq s from rfl, execRelease, onLeft_of_left hleft]
    refine ⟨fun x htook hx => ?_, fun hno => ?_⟩
    · simp [hredo, htook, hx, Half.dropHold]
    · rcases hno with hno | hno <;> simp [hredo, hno, Block.refuse]
  · rw [show exec (.groupCommit h seq) s = execGroupCommit h seq s from rfl, execGroupCommit, onLeft_of_left hleft]
    refine ⟨fun hopen => ?_, fun hended => ?_⟩
    · simp only [hredo, hg, hopen, Bool.false_eq_true, if_false]
      rfl
    · simp only [hredo, hg, hended, Bool.false_eq_true, if_false, if_true, Block.commitGroup_eq]
  · rw [show exec (.fence h seq) s = execFence h seq s from rfl, execFence, onLeft_of_left hleft]
    refine ⟨fun hheld => ?_, fun hheld haddr => ?_, fun hheld haddr => ?_⟩
    · rw [hheld, if_pos rfl]
      rfl
    · simp only [hheld, haddr, Bool.false_eq_true, if_false, if_true]
    · simp only [hheld, haddr, Bool.false_eq_true, if_false]
      rfl
  · rw [show exec (.fenceReadReturn h seq) s = execFenceReadReturn h seq s from rfl, execFenceReadReturn, masterRun_of_core hcore]
    simp only [hcore, hread, Bool.and_self, if_true]

end Sys2Proof.Machine
end

section
/-!
PROOFS. Administrative commands (R307-R309, R338, R340, R386-R388), regions (R136-R138, R390), and units in service (R391-R394).
-/

namespace Sys2Proof.Machine

open Sys2Proof

/-- What a REC_UPDATE whose checks pass does. -/
theorem Block.recCmd_done {b : Block} {c : Ctx} {k : HalfId} (hredo : c.redo = false) (hk : b.keeper (recCh (c.entry.bytes 20 3 % 2 ^ 18)) = some k)
    (hlost : b.lostRec k (c.entry.bytes 20 3 % 2 ^ 18) = false)
    (hok : b.recFault (c.entry.bytes 20 3 % 2 ^ 18) (c.entry.byte 23) ((b.half k).rec? (c.entry.bytes 20 3 % 2 ^ 18)) = none) (h : HalfId) (seq : Nat) :
    b.recCmd h seq c =
      let i := c.entry.bytes 20 3 % 2 ^ 18
      let r := (b.half k).rec? i
      let new := recUpdated r (c.entry.byte 23) (c.entry.byte 24)
      let b1 := b.updRec k (some seq) i 0 0 false (fun _ => new)
      (if c.entry.byte 23 = 2 then
        (b1.addDefect k (some seq) { index := i, cause := 2, eraseCnt := r.eraseCnt }).allAbsent (fun j => decide (j = i))
      else b1).finish h seq .doneOk (fieldOf new.bytes 0 112) := by
  simp only [Block.recCmd, hredo, hk, hlost, hok, Bool.false_and, Bool.false_eq_true, if_false]

/-- Settles O39: each of the five commands, refused and performed. -/
theorem adminCommands : Obligations.AdminCommands := by
  intro h seq c s
  dsimp only
  refine ⟨fun hleft => ?_, fun hleft u hu => ?_, fun hleft => ?_, fun hleft => ?_, fun hleft hredo k hk hlost hok => ?_⟩
  · rw [show exec (.pitch h seq) s = execPitch h seq s from rfl, execPitch, onLeft_of_left hleft]
    refine ⟨fun st hst => ?_, fun hok hwatch => ?_⟩
    · simp only [hst, Block.refuse]
    · simp only [hok, Block.pitchQueue, hwatch, Nat.zero_ne_one, if_false]
      rfl
  · rw [show exec (.strike h seq) s = execStrike h seq s from rfl, execStrike, onLeft_of_left hleft]
    refine ⟨fun hq hby hst hlive habort => ?_, fun hno => ?_⟩
    · simp [hu, hq, hby, hst, hlive, habort, Block.strikeQueue, Block.running]
    · have hbad : (decide (c.entry.bytes 20 2 = 0) || u.strikeBy.isSome || decide (u.state = .struck) || !u.live) = true := by
        rcases hno with hno | hno | hno | hno <;> simp [hno, Option.isSome_iff_ne_none]
      simp only [hu, hbad, if_true, Block.refuse]
  · exact (show exec (.profileLoad h seq) s = execProfileLoad h seq s from rfl).trans (onLeft_of_left hleft _)
  · rw [show exec (.profileBind h seq) s = execProfileBind h seq s from rfl, execProfileBind, onLeft_of_left hleft]
    refine ⟨fun st hst => ?_, fun hok => ?_⟩
    · simp only [hst, Block.refuse]
    · simp only [hok]
  · rw [show exec (.recUpdate h seq) s = execRecUpdate h seq s from rfl, execRecUpdate, onLeft_of_left hleft, Block.recCmd_done hredo hk hlost hok]
    refine ⟨fun hop => ?_, fun hop => ?_, fun hop => ?_⟩
    · simp [hop, recUpdated]
    · simp [hop, recUpdated]
    · simp [hop, recUpdated]

/-! ### Regions -/

/-- An open changes the descriptor and drops the region's lines; a region of the half's own. -/
theorem Block.openRegion_own (b : Block) (h : HalfId) (seq n : Nat) (d : RgnDesc) : b.openRegion h true seq n d =
    ((b.updRecs h (some seq) (b.regionRecs h true n d) [plainEntry (.region n d)]).onHalf h (fun x => { x with win := { x.win with
      desc := x.win.desc.put n d, lines := x.win.lines.filter (fun l => decide (l.region ≠ n)) } })).finish h seq .doneOk 0 := rfl

theorem Block.closeFault_of_state {b : Block} {h : HalfId} {own : Bool} {n : Nat} (hst : ((b.half h).regionOf own n).state ≠ .opened) :
    b.closeFault h own n = some .regionState := by
  simp [Block.closeFault, hst]

theorem Block.closeFault_of_locked {b : Block} {h : HalfId} {own : Bool} {n : Nat} (hst : ((b.half h).regionOf own n).state = .opened)
    (hlock : (b.half h).win.updateEn = false) : b.closeFault h own n = some .regionLocked := by
  simp [Block.closeFault, hst, hlock]

/-- Settles O40: the two commands' checks, and the changes that an open and a close make. -/
theorem regionsOpenAndClose : Obligations.RegionsOpenAndClose := by
  refine ⟨fun h seq c s => ?_, fun b h seq n d => b.openRegion_own h seq n d, fun b h seq n crc => rfl⟩
  dsimp only
  intro hredo
  refine ⟨fun hleft => ?_, fun hleft => ?_⟩
  · rw [show exec (.regionOpen h seq) s = execRegionOpen h seq s from rfl, execRegionOpen, onLeft_of_left hleft]
    refine ⟨fun st hst => ?_, fun hok => ?_⟩
    · simp only [hredo, hst, Bool.false_and, Bool.false_eq_true, if_false, Block.refuse]
    · simp only [hredo, hok, Bool.false_and, Bool.false_eq_true, if_false]
  · rw [show exec (.regionClose h seq) s = execRegionClose h seq s from rfl, execRegionClose, onLeft_of_left hleft]
    refine ⟨fun hst => ?_, fun hst hlock => ?_, fun hok hlatch => ?_⟩
    · simp only [hredo, Block.closeFault_of_state hst, Bool.false_eq_true, if_false, Block.refuse]
    · simp only [hredo, Block.closeFault_of_locked hst hlock, Bool.false_eq_true, if_false, Block.refuse]
    · simp only [hredo, hok, hlatch, Bool.false_eq_true, if_false]

/-! ### Dies and units in service -/

/-- Settles O41: the checks of each command in their order, and what it does where none applies. -/
theorem diesAndUnitsInService : Obligations.DiesAndUnitsInService := by
  intro h seq c s
  dsimp only
  refine ⟨fun hleft values => ?_, fun hleft hlatch hnames hop => ?_, fun hleft hredo lost => ?_, fun hleft hredo pass hhere hret => ?_⟩
  · rw [show exec (.dieFeature h seq values) s = execDieFeature h seq values s from rfl, execDieFeature, onLeft_of_left hleft]
    refine ⟨fun st hst => ?_, fun hok hop hlatch hbudget hserve p hp => ?_⟩
    · simp only [hst, Block.refuse]
    · simp [hok, hop, hlatch, hbudget, hserve, Block.featureCmd, hp]
  · rw [show exec (.dieReset h seq) s = execDieReset h seq s from rfl, execDieReset, onLeft_of_left hleft]
    simp [hlatch, Block.dieResetCmd, hnames, hop, Block.running]
  · rw [show exec (.retire h seq lost) s = execRetire h seq lost s from rfl, execRetire, onLeft_of_left hleft]
    refine ⟨fun hgone => ?_, fun hhere hret hlim => ?_, fun hhere hret hlim => ?_⟩
    · have habs : (!(s.blk.half h).unitHere s.blk.variant (c.entry.byte 20) (c.entry.byte 21) (c.entry.byte 22 % 8) ||
          (s.blk.half h).unitRetired (c.entry.byte 20) (c.entry.byte 21) (c.entry.byte 22 % 8)) = true := by
        rcases hgone with hgone | hgone <;> simp [hgone]
      simp only [hredo, habs, Bool.false_and, Bool.false_eq_true, if_false, if_true]
    · simp [hredo, hhere, hret, hlim]
    · simp [hredo, hhere, hret, hlim]
  · rw [show exec (.restore h seq pass) s = execRestore h seq pass s from rfl, execRestore, onLeft_of_left hleft]
    refine ⟨fun hblock => ?_, fun hblock hpass => ?_, fun hblock hpass => ?_⟩
    · simp [hredo, hhere, hret, hblock]
    · simp [hredo, hhere, hret, hblock, hpass]
    · simp [hredo, hhere, hret, hblock, hpass]

end Sys2Proof.Machine
end

section
/-!
PROOFS. Stripes and rebuilds (07), and the commands of the twin (R395, R585, R597-R599).
-/

namespace Sys2Proof.Machine

open Sys2Proof

/-- Settles O42: each command's checks and start, a row whose members have ended, and a rebuild whose rows are written. -/
theorem stripesAndRebuilds : Obligations.StripesAndRebuilds := by
  intro h s
  dsimp only
  refine ⟨fun seq c hleft hredo => ?_, fun slot t hcore hlatch ht hrow hend => ?_, fun seq c hleft hredo => ?_, fun n r hcore hopen hr hdone => ?_⟩
  · rw [show exec (.stripeOpen h seq) s = execStripeOpen h seq s from rfl, execStripeOpen, onLeft_of_left hleft]
    refine ⟨fun st hst => ?_, fun n hn => ?_⟩
    · simp only [hredo, hst, Bool.false_eq_true, if_false, Block.refuse]
    · simp only [hredo, hn, Bool.false_eq_true, if_false]
      rfl
  · simp only [show exec (.parityProgram h slot) s = execParityProgram h slot s from rfl, execParityProgram, run_eq, State.withBlock, ht, hcore, hlatch, hrow,
      hend, decide_true, Bool.not_false, Bool.and_self, if_true]
  · rw [show exec (.rebuild h seq) s = execRebuild h seq s from rfl, execRebuild, onLeft_of_left hleft]
    have hnew : ∀ i, c.swapped i = false := fun i => by simp [Ctx.swapped, hredo]
    refine ⟨fun st hst => ?_, fun hok => ?_⟩
    · simp only [hredo, hnew, hst, Bool.false_and, Bool.false_eq_true, if_false, Block.refuse]
    · simp only [hredo, hnew, hok, Bool.false_and, Bool.false_eq_true, if_false]
  · simp only [show exec (.rebuildSwap h n) s = execRebuildSwap h n s from rfl, execRebuildSwap, run_eq, State.withBlock, hr, hcore, hopen, hdone,
      Bool.and_self, if_true]

/-! ### Detach and attach -/

/-- Halves that are linked are both attached, so neither syncs. -/
theorem Block.linked_attached {b : Block} (hlink : b.linked = true) (h : HalfId) : (b.half h).attached = true := by
  obtain ⟨ha, hb⟩ := (Bool.and_eq_true _ _).mp hlink
  cases h
  · exact ha
  · exact hb

theorem Half.attached_not_syncing {x : Half} (hx : x.attached = true) : x.twn.st ≠ .syncing := by
  intro hst
  simp [Half.attached, hst] at hx

/-- What a standby half found fit, or not, means for an ATTACH. -/
theorem Block.attachCmd_passed {b : Block} {h : HalfId} (hdone : (b.half h.twin).twn.stDone = true) (hgood : (b.half h.twin).twn.stFail = false)
    (seq cause : Nat) : b.attachCmd h seq cause = (((b.running seq).onHalf h (fun x => x.onTwn (fun t => { t with st := .syncing }))).onHalf h.twin
      (fun x => x.onTwn (fun t => { t with st := .syncing }))) := by
  simp [Block.attachCmd, hdone, hgood]

section
variable {b : Block} {h : HalfId} (hno : (b.half h.twin).twn.stDone = false ∨ (b.half h.twin).twn.stFail = true)
include hno

theorem Block.attachCmd_tested (seq : Nat) : b.attachCmd h seq 0 = ((((b.onHalf h.twin (fun x => x.tested 0)).running seq).onHalf h
    (fun x => x.onTwn (fun t => { t with st := .syncing }))).onHalf h.twin (fun x => x.onTwn (fun t => { t with st := .syncing }))) := by
  rcases hno with hno | hno <;> simp [Block.attachCmd, hno]

theorem Block.attachCmd_unfit {cause : Nat} (hc : cause ≠ 0) (seq : Nat) :
    b.attachCmd h seq cause = (b.onHalf h.twin (fun x => x.tested cause)).finish h seq .attachFail 0 := by
  rcases hno with hno | hno <;> simp [Block.attachCmd, hno, hc]

end

/-- Settles O43: the checks and the two looks of either command. -/
theorem detachAndAttach : Obligations.DetachAndAttach := by
  intro h seq c s hc hcore hlatch
  dsimp only
  refine ⟨fun hop => ?_, fun hop cause good table => ?_⟩
  · simp only [show exec (.detach h seq) s = execDetach h seq s from rfl, execDetach, run_eq, hc, hcore, hlatch, hop, Bool.not_true, Bool.false_or,
      ne_eq, not_true_eq_false, decide_false, Bool.false_eq_true, if_false]
    refine ⟨fun hph hno => ?_, fun hph hself hlink hredo => ?_, fun hph hlink hdrain => ?_, fun hph hlink hdrain => ?_⟩
    · have hbad : (namesSelf h c.entry || !s.blk.linked || c.redo) = true := by
        rcases hno with hno | hno | hno <;> simp [hno]
      simp only [hph, if_true, hbad, Block.refuse, State.withBlock]
    · simp only [hph, if_true, hself, hlink, hredo, Bool.not_true, Bool.or_self, Bool.false_eq_true, if_false, Block.running, State.withBlock]
    · simp [hph, hlink, hdrain]
    · simp [hph, hlink, hdrain, State.withBlock]
  · simp only [show exec (.attach h seq cause good table) s = execAttach h seq cause good table s from rfl, execAttach, run_eq, hc, hcore, hlatch, hop,
      Bool.not_true, Bool.false_or, ne_eq, not_true_eq_false, decide_false, Bool.false_eq_true, if_false]
    refine ⟨fun hph hno => ?_, fun hph hself hst hredo hother => ?_, fun hph hst hst' hother => ?_, fun hph hst hlink => ?_, fun hph hlink hdrain => ?_⟩
    · have hbad : (namesSelf h c.entry || decide (¬ (s.blk.half h.twin).twn.st = .standby) || c.redo) = true := by
        rcases hno with hno | hno | hno <;> simp [hno]
      simp only [hph, if_true, hbad, Block.refuse, State.withBlock]
    · simp only [hph, if_true, hself, hst, hredo, hother, not_true_eq_false, decide_false, Bool.or_self, Bool.false_eq_true, if_false]
      refine ⟨fun hdone hgood => ?_, fun hno hcause => ?_, fun hno hcause => ?_⟩
      · rw [Block.attachCmd_passed hdone hgood]; rfl
      · rw [hcause, Block.attachCmd_tested hno]; rfl
      · rw [Block.attachCmd_unfit hno hcause]; rfl
    · simp only [hph, hst, hst', hother, decide_true, Bool.and_self, if_true, Block.attachSynced, reduceCtorEq, if_false, not_true_eq_false]
      refine ⟨fun hflag => ?_, fun hflag => ?_⟩
      · simp only [hflag, Bool.false_eq_true, if_false, State.withBlock]
      · simp only [hflag, if_true, State.withBlock]
    · simp [hph, hst, hlink, State.withBlock]
    · simp [hph, Half.attached_not_syncing (Block.linked_attached hlink h), hlink, hdrain, State.withBlock]

/-! ### Yields and self-tests -/

theorem Block.askYield_off {b : Block} {h : HalfId} (hst : (b.half h).twn.st ≠ .linkFault) : b.askYield h = b := by
  simp [Block.askYield, hst]

/-- What a YIELD leaves at a half in link fault. -/
theorem Block.askYield_half {b : Block} {h : HalfId} (hst : (b.half h).twn.st = .linkFault) : (b.askYield h).half h = { b.half h with
    twn := { (b.half h).twn with st := .yielding, holdOwn := true, holdAdopt := true }
    que := { (b.half h).que with
      queues := (b.half h).que.queues.map (fun e => (e.1, e.2.setDisable true))
      adopted := (b.half h).que.adopted.map (fun e => (e.1, e.2.setDisable true)) } } := by
  simp [Block.askYield, hst, Half.onTwn, Half.onQue]

/-- The half that takes a yielded or halted twin's channels owns the counter. -/
theorem Block.takeAfterYield_owner (b : Block) (h : HalfId) (ckpt : Ckpt) (flash : List FlashPage) : (b.takeAfterYield h ckpt flash).pair.owner = h := rfl

/-- Settles O44: a yield, a self-test, and the take of a twin that holds no enable. -/
theorem yieldAndSelftest : Obligations.YieldAndSelftest := by
  refine ⟨fun h s ht => ?_, fun h ckpt flash s => ?_⟩
  · dsimp only
    have hyield : exec (.twnCtlYield h) s = .next (s.withBlock ((s.blk.taken h causeRegister).askYield h)) :=
      portRun_of_takes ht causeRegister (.twnCtlYield h) _
    have htest : ∀ cause, exec (.twnCtlSelftest h cause) s = .next (s.withBlock ((s.blk.taken h causeRegister).askSelftest h cause)) := fun cause =>
      portRun_of_takes ht causeRegister (.twnCtlSelftest h cause) _
    refine ⟨fun hst => ⟨_, hyield, rfl, ?_⟩, fun hst => ?_, fun cause => ⟨fun hst => ?_, fun hst => ?_⟩⟩
    · dsimp only [State.withBlock]
      rw [Block.askYield_half hst]
      exact ⟨rfl, rfl, rfl, rfl, rfl, rfl, rfl⟩
    · rw [hyield, Block.askYield_off hst]
    · rw [htest, Block.askSelftest, if_pos hst]
      rfl
    · rw [htest, Block.askSelftest, if_neg hst]
  · dsimp only
    intro hcore hfree hhalf hseal hwhy
    refine ⟨?_, s.blk.takeAfterYield_owner h ckpt flash⟩
    have hdue : (s.blk.yieldFound h ckpt || s.blk.twinHalted h) = true := by
      rcases hwhy with ⟨hst, hclean, hseq⟩ | ⟨hst, hstage, hhalt, herr, htake⟩
      · simp [Block.yieldFound, hst, hclean, hseq]
      · simp [Block.twinHalted, hst, hstage, hhalt, herr, htake]
    simp only [show exec (.yieldedChannelsTake h ckpt flash) s = execYieldedChannelsTake h ckpt flash s from rfl, execYieldedChannelsTake, run_eq,
      State.withBlock, hcore, hdue, hfree, hhalf, hseal, Bool.not_false, decide_true, Bool.and_self, if_true]

end Sys2Proof.Machine
end

section
/-!
PROOFS. The guy link (R576-R579, R582), the loss of the twin and the takeover (R35, R539, R582, R583, R586).
-/

namespace Sys2Proof.Machine

open Sys2Proof

/-! ### Acknowledgements -/

theorem Half.restartQueue_twn (x : Half) (ad : Bool) (q : Nat) : (x.restartQueue ad q).twn = x.twn := by
  unfold Half.restartQueue
  split
  · rfl
  · split <;> rfl

/-- What an acknowledged message lets a half do leaves its link's registers alone. -/
theorem Half.ackEffect_twn (x : Half) (m : Msg) : (x.ackEffect m).twn = x.twn := by
  unfold Half.ackEffect
  split
  · rfl
  · unfold Half.queueAct
    split
    · rfl
    · exact x.restartQueue_twn _ _
    · rfl
    · rfl
    · rfl
  · split <;> rfl
  · rfl

theorem Half.ackedBy_twn (x : Half) (gone : HalfId × Nat → Bool) : (x.ackedBy gone).twn = x.twn := rfl

/-- The oldest applied message leaves its sender. -/
theorem Block.ackOldest_twn {b : Block} {h : HalfId} {e : Nat × Msg} {r : List (Nat × Msg)} (hsent : (b.half h).twn.sent = e :: r)
    (happ : (b.half h).twn.applied ≠ 0) (hawake : e.2 ≠ .sleep 2) :
    ((b.ackOldest h).half h).twn = { (b.half h).twn with sent := r, applied := (b.half h).twn.applied - 1 } := by
  have hview : ∀ (a : Block) (k : HalfId) (gone : HalfId × Nat → Bool), ((a.onHalf k (fun x => x.ackedBy gone)).half h).twn = (a.half h).twn :=
    fun a k gone => Block.onHalf_view Half.twn a k h (fun x => x.ackedBy_twn gone)
  simp only [Block.ackOldest, hsent, happ, if_false, hawake, decide_false, Bool.false_and, Bool.false_eq_true, hview, half_onHalf, Half.ackEffect_twn,
    Half.onTwn]

/-- A message from the twin that is no request for a number. -/
theorem exec_guyLinkMessage {s : State} {h : HalfId} {m : Msg} (hf : s.blk.pair.frozen = false) (hm : s.blk.incoming h = some m)
    (hgo : s.blk.coreRuns h = true ∨ m.passes = true) (hno : ∀ q i e, m ≠ .seqAsk q i e) :
    exec (.guyLinkMessage h) s = .next (s.withBlock ((s.blk.accepted h).applyMsg h m)) := by
  have hgo' : (s.blk.coreRuns h || m.passes) = true := by rcases hgo with hgo | hgo <;> simp [hgo]
  simp only [show exec (.guyLinkMessage h) s = execGuyLinkMessage h s from rfl, execGuyLinkMessage, run_eq, hm, hf, hgo', Bool.not_true, Bool.or_self,
    Bool.false_eq_true, if_false, State.withBlock]

/-- Settles O45: each kind of message and answer by its branch. -/
theorem linkMessages : Obligations.LinkMessages := by
  intro h s hf
  dsimp only
  refine ⟨fun e r hsent happ => ⟨?_, fun hawake => ?_⟩, fun m hm hgo hno => exec_guyLinkMessage hf hm hgo hno, fun q i e hm hcore => ⟨fun hown => ?_, fun hown => ?_⟩,
    fun hsent hfails => ?_, fun hsent hfails => ?_, fun hcore hlink hst => ?_, fun hcore hst hwatch => ?_⟩
  · simp [exec, execMirrorAck, State.withBlock, hf]
  · rw [Block.ackOldest_twn hsent happ hawake]
    exact ⟨rfl, rfl⟩
  · simp [exec, execGuyLinkMessage, State.withBlock, hf, hm, hcore, hown]
  · simp [exec, execGuyLinkMessage, State.withBlock, hf, hm, hcore, hown]
  · simp [exec, execLinkNak, State.withBlock, hf, Nat.not_le.mpr hsent, Nat.not_le.mpr hfails, Half.onTwn]
  · simp [exec, execLinkNak, State.withBlock, hf, Nat.not_le.mpr hsent, hfails]
  · simp only [show exec (.heartbeat h) s = execHeartbeat h s from rfl, execHeartbeat, run_eq, hcore, hlink, hst, decide_true, Bool.and_self, if_true, Twin.push,
      State.withBlock]
  · simp [exec, execHeartbeatLate, State.withBlock, hcore, hst, hwatch, Half.attached]

/-! ### Loss of the twin -/

/-- A half that has declared its twin lost: its link's registers, and its watch of the beacon. -/
theorem Block.declareLoss_twn (b : Block) (h : HalfId) :
    ((b.declareLoss h).half h).twn = { ((b.half h).ackAll).twn with st := .takingOver, waitLock := true, late := 0 } := by
  simp only [Block.declareLoss, half_onHalf]
  split <;> rfl

theorem Block.declareLoss_watching (b : Block) (h : HalfId) : ((b.declareLoss h).half h).pwr.watching = false := by
  simp only [Block.declareLoss, half_onHalf]

theorem Half.ackAll_sent (x : Half) : x.ackAll.twn.sent = [] := rfl

/-! ### Notices -/

section
variable {α : Type} (g : Half → α)

section
variable (hg : ∀ x gut dma port, g { x with gut := gut, dma := dma, port := port } = g x)
include hg

theorem Half.spill_view (x : Half) (m n : Nat) : g (x.spill m n) = g x := by
  induction n generalizing x with
  | zero => rfl
  | succ n ih =>
    unfold Half.spill
    dsimp only
    split
    · rfl
    · split
      · exact (ih _).trans (hg x _ _ x.port)
      · rfl

theorem Half.gutTake_view (x : Half) (m : Nat) : g (x.gutTake m) = g x := by
  unfold Half.gutTake
  dsimp only
  split
  · rfl
  · exact hg x _ x.dma _

theorem Half.gutUnstall_view (x : Half) (m n : Nat) : g (x.gutUnstall m n) = g x := by
  induction n generalizing x with
  | zero => rfl
  | succ n ih =>
    unfold Half.gutUnstall
    split
    · exact (ih _).trans ((hg (x.gutTake m) _ (x.gutTake m).dma (x.gutTake m).port).trans (x.gutTake_view g hg m))
    · rfl

/-- A notice is an item of a gutter: it may leave through the spill or end stalled reads. -/
theorem Half.notice_view (v : Variant) (x : Half) (m w0 w1 w2 w3 : Nat) : g (x.notice v m w0 w1 w2 w3) = g x := by
  have hitem : ∀ f, g (x.onGutter m f) = g x := fun _ => hg x _ x.dma x.port
  unfold Half.notice Half.append
  dsimp only
  split
  · split
    · exact (Half.spill_view g hg _ _ _).trans (hitem _)
    · exact (Half.gutUnstall_view g hg _ _ _).trans (hitem _)
  · rfl

/-- An event is a notice and a source raised. -/
theorem Block.event_view (hirq : ∀ x i, g { x with irq := i } = g x) (b : Block) (h k : HalfId) (kind detail rest : Nat) :
    g ((b.event h kind detail rest).half k) = g (b.half k) := by
  have hnotice := fun f => Block.onHalf_view g b h k (f := f)
  unfold Block.event
  dsimp only
  split
  · refine hnotice _ (fun x => ?_)
    split
    · exact x.notice_view g hg _ _ _ _ _ _
    · rfl
  · rw [Block.raise_view g hirq]
    refine hnotice _ (fun x => ?_)
    split
    · exact x.notice_view g hg _ _ _ _ _ _
    · rfl

end

end

theorem Block.event_twn (b : Block) (h k : HalfId) (kind detail rest : Nat) : ((b.event h kind detail rest).half k).twn = (b.half k).twn :=
  Block.event_view Half.twn (fun _ _ _ _ => rfl) (fun _ _ => rfl) b h k kind detail rest

/-- A takeover ends in state solo. -/
theorem Block.tookOver_solo (b : Block) (h : HalfId) (t : Taken) : ((b.tookOver h t).half h).twn.st = .solo := by
  have hraise := fun (a : Block) n => Block.raise_view Half.twn (fun _ _ => rfl) a h h n
  simp only [Block.tookOver, Block.notePool, Block.noteDegraded, half_onHalf, Block.event_twn, hraise]

/-- Settles O46: the loss by silence and by the beacon, the interlock, the takeover and a lapse. -/
theorem lossAndTakeover : Obligations.LossAndTakeover := by
  intro h s
  dsimp only
  refine ⟨fun hcore hst hwatch hlate => ⟨s.withBlock (s.blk.declareLoss h), ?_, rfl, ?_⟩, fun hf hst hwatch hok => ⟨?_, ?_, Block.declareLoss_watching _ _⟩,
    fun hcore hst hlock => ⟨fun hfree => ?_, fun hheld => ?_⟩, fun us flash hcore hst hlock => ⟨?_, Block.tookOver_solo _ _ _⟩, fun hf => ?_⟩
  · simp [exec, execTwinLoss, State.withBlock, Half.attached, hcore, hst, hwatch, hlate]
  · dsimp only [State.withBlock]
    rw [Block.declareLoss_twn]
    exact ⟨rfl, rfl, Half.ackAll_sent (s.blk.half h), rfl, Block.onHalf_pair _ _ _⟩
  · simp [exec, execBeaconLoss, State.withBlock, Half.attached, hf, hst, hwatch, hok]
  · rw [Block.declareLoss_twn]
  · simp [exec, execInterlockWaitEnd, State.withBlock, hcore, hst, hlock, hfree]
  · simp [exec, execInterlockWaitEnd, State.withBlock, hcore, hst, hlock, hheld]
  · simp [exec, execTakeover, State.withBlock, hcore, hst, hlock]
  · simp [exec, execPadEnableLapse, State.withBlock, hf]

end Sys2Proof.Machine
end

section
/-!
PROOFS. Channels moved, engines and banks out of service (R21-R30, R39-R42, R595); the scheduler and the bus (04, 05, 10).
-/

namespace Sys2Proof.Machine

open Sys2Proof

/-! ### Engines out of service -/

theorem Block.retireEngine_bound {b : Block} {h : HalfId} {e : Nat} (hrole : ((b.half h).engine e).role = .bound) (cause word : Nat) :
    b.retireEngine h e cause word = (b.dropEngine h e cause word).serveChannel h ((b.half h).engine e).chan cause := by
  simp [Block.retireEngine, hrole]

section
variable {b : Block} {h : HalfId} {e : Nat} (hrole : ((b.half h).engine e).role = .spare ∨ ((b.half h).engine e).role = .background)
include hrole

/-- A spare or background engine that waits for no channel: the roles are fitted to the engines left. -/
theorem Block.retireEngine_free (hnext : ((b.half h).engine e).next = none) (cause word : Nat) : b.retireEngine h e cause word =
    (((b.dropEngine h e cause word).onHalf h (fun x => x.fitRoles b.variant false)).placeJobs h).noteDegraded h := by
  rcases hrole with hrole | hrole <;> simp [Block.retireEngine, hrole, hnext]

theorem Block.retireEngine_awaited {c : Nat} (hnext : ((b.half h).engine e).next = some c) (cause word : Nat) : b.retireEngine h e cause word =
    ((((b.dropEngine h e cause word).onHalf h (fun x => x.fitRoles b.variant false)).placeJobs h).noteDegraded h).serveChannel h c cause := by
  rcases hrole with hrole | hrole <;> simp [Block.retireEngine, hrole, hnext]

end

/-- Settles O47: each command's condition, and the role of the engine that fails. -/
theorem repairsInService : Obligations.RepairsInService := by
  intro h s hcore
  dsimp only
  refine ⟨fun ch cause hlink hdrive hret htake hdue => ?_, fun e cause word hrole => ?_, fun e cause word hrole hnext => ?_,
    fun e cause word hrole => ⟨fun hnext => ?_, fun c hnext => ?_, fun hover => ?_⟩, fun bank cause lost hlive => ?_⟩
  · simp [exec, execChannelMove, State.withBlock, hcore, hlink, hdrive, hret, htake, hdue]
  · simp [exec, execEngineFailure, State.withBlock, hcore, Block.retireEngine_bound hrole]
  · simp [exec, execEngineFailure, State.withBlock, hcore, Block.retireEngine_free (.inl hrole) hnext]
  · simp [exec, execBackgroundEngineFailure, State.withBlock, hcore, hrole, Block.retireEngine_free (.inr hrole) hnext]
  · simp [exec, execBackgroundEngineFailure, State.withBlock, hcore, hrole, Block.retireEngine_awaited (.inr hrole) hnext]
  · simp [exec, execBackgroundJobEnd, State.withBlock, hcore, hrole, hover]
  · simp [exec, execPoolBankRetire, State.withBlock, hcore]

/-! ### The scheduler's choice -/

section
variable {b : Block} {h : HalfId} {ch die : Nat} {p : Profile} (hp : (b.half h).profile? ch die = some p)
include hp

/-- An idle die takes what its queues offer. -/
theorem Block.schedule_idle (hop : ((b.half h).die ch die).op = none) {m : Tab Int} {o : DieOp}
    (hch : b.choose h p ((b.half h).die ch die) ((b.half h).die ch die).ops = (m, some o)) :
    b.schedule h ch die = if o.writes && ((b.half h).die ch die).pulseWaits p then b.onHalf h (fun y => y.issueSetup ch die noSeq p)
      else b.onHalf h (fun y => y.issueOp ch die p m o none) := by
  unfold Half.die at hop hch ⊢
  simp only [Block.schedule, hp, hop, hch]

theorem Block.schedule_credits (hop : ((b.half h).die ch die).op = none) {m : Tab Int}
    (hch : b.choose h p ((b.half h).die ch die) ((b.half h).die ch die).ops = (m, none)) :
    b.schedule h ch die = b.onHalf h (fun y => y.onDie ch die (fun e => { e with credit := m })) := by
  unfold Half.die at hop hch
  simp only [Block.schedule, hp, hop, hch]

/-- A suspended operation leaves its die to one that may run under it. -/
theorem Block.schedule_under {o r : DieOp} {m : Tab Int} (hop : ((b.half h).die ch die).op = some o) (hph : o.phase = .suspended)
    (hunder : ((b.half h).die ch die).under = none)
    (hch : b.choose h p ((b.half h).die ch die) (((b.half h).die ch die).ops.filter (fun r => b.mayRun o r)) = (m, some r)) :
    b.schedule h ch die = b.onHalf h (fun y => y.issueOp ch die p m r (some (b.senseStep r))) := by
  unfold Half.die at hop hunder hch
  simp only [Block.schedule, hp, hop, hph, hunder, decide_true, Option.isNone_none, Bool.and_self, if_true, hch]

end

/-! ### A channel's bus -/

section
variable {b : Block} {h : HalfId} {ch : Nat} {t : BusTask} {p : Profile} (ht : ((b.half h).chan ch).nextTask (b.mayTask h ch) = some t)
  (hp : ((((b.half h).chan ch).die t.die).current.bind DieOp.prof).or ((b.half h).profile? ch t.die) = some p)
include ht hp

theorem Block.busTask_burst {o : DieOp} (ho : (((b.half h).chan ch).die t.die).current = some o)
    (hkind : t.kind = .dataOut ∨ t.kind = .dataIn ∨ t.kind = .fillOut) (busy data : Nat) : b.busTask h ch busy data =
      b.burstStep h ch busy data t p o ((((b.half h).chan ch).burst.filter (fun u => decide (u.task = t))).getD (b.freshBurst o t)) := by
  have hk : (decide (t.kind = .dataOut) || decide (t.kind = .dataIn) || decide (t.kind = .fillOut)) = true := by
    rcases hkind with hkind | hkind | hkind <;> simp [hkind]
  rw [ho] at hp
  simp only [Block.busTask, ht, ho, hp, hk, if_true]

theorem Block.busTask_plain
    (hplain : (((b.half h).chan ch).die t.die).current = none ∨ (t.kind ≠ .dataOut ∧ t.kind ≠ .dataIn ∧ t.kind ≠ .fillOut)) (busy data : Nat) :
    b.busTask h ch busy data = b.plainTask h ch busy data t p (!((b.half h).chan ch).mustPoll.isEmpty) := by
  cases ho : (((b.half h).chan ch).die t.die).current with
  | none =>
    rw [ho] at hp
    simp only [Block.busTask, ht, ho, hp]
  | some o =>
    obtain ⟨hout, hin, hfill⟩ := hplain.resolve_left (by simp [ho])
    rw [ho] at hp
    simp only [Block.busTask, ht, ho, hp, hout, hin, hfill, decide_false, Bool.or_self, Bool.false_eq_true, if_false]

end

/-- Settles O48: the scheduler at an idle die and under a suspended operation, the bus, and resumes and polls. -/
theorem busAndSchedule : Obligations.BusAndSchedule := by
  intro h ch die s
  dsimp only
  refine ⟨fun p hserve hlatch hp => ?_, fun hcore hen => ⟨fun busy data heng => ?_, fun o hop hph hunder hwhy hmay => ?_, fun hbusy => ?_, ?_⟩, fun hno => ?_⟩
  · have hrun : exec (.schedulerChoice h ch die) s = .next (s.withBlock (s.blk.schedule h ch die)) := by
      simp [exec, execSchedulerChoice, State.withBlock, hserve, hlatch]
    rw [hrun]
    refine ⟨fun hop => ⟨fun m o hch => ⟨fun hpulse => ?_, fun hpulse => ?_⟩, fun m hch => ?_⟩, fun o m r hop hph hunder hch => ?_⟩
    · rw [Block.schedule_idle hp hop hch, hpulse, if_neg Bool.false_ne_true]
    · rw [Block.schedule_idle hp hop hch, hpulse, if_pos rfl]
    · rw [Block.schedule_credits hp hop hch]
    · rw [Block.schedule_under hp hop hph hunder hch]
  · have hrun : exec (.busTask h ch busy data) s = .next (s.withBlock ((s.blk.busTask h ch busy data).bindDue h)) := by
      simp [exec, execBusTask, State.withBlock, hcore, hen, heng]
    rw [hrun]
    refine ⟨fun hnone => ?_, fun t p ht hp => ⟨fun o ho hkind => ?_, fun hplain => ?_⟩⟩
    · simp only [Block.busTask, hnone]
    · rw [Block.busTask_burst ht hp ho hkind]
    · rw [Block.busTask_plain ht hp hplain]
  · have hdue : (((s.blk.half h).die ch die).held || ((s.blk.half h).chan ch).trainDue || s.blk.suspOver o ((s.blk.half h).die ch die).ops) = true := by
      rcases hwhy with hwhy | hwhy | hwhy <;> simp [hwhy]
    simp only [show exec (.resume h ch die) s = execResume h ch die s from rfl, execResume, run_eq, State.withBlock, hop, hcore, hen, hph, hunder, hdue, hmay,
      decide_true, Option.isNone_none, Bool.and_self, if_true]
  · simp [exec, execPollDue, State.withBlock, hcore, hen, hbusy]
  · simp [exec, execRbNRise, State.withBlock, hcore, hen]
  · rcases hno with hno | hno <;> simp [exec, execRbNRise, State.withBlock, hno]

end Sys2Proof.Machine
end

section
/-!
PROOFS. How a LUN's operation ends (R157-R159, R165-R169, R213, R223), and the training of channels (R176-R185).
-/

namespace Sys2Proof.Machine

open Sys2Proof

/-! ### The end of an operation -/

section
variable {b : Block} {h : HalfId} {ch die : Nat} {o : DieOp} (ho : ((b.half h).die ch die).current = some o)
  (hph : o.phase = .busy ∨ o.phase = .unsuspendable)
include ho hph

/-- A sense that reads ready goes on to its data-out. -/
theorem Block.lunDone_read (hread : o.isRead = true) (hlatch : b.pair.latched = false) (fail : Bool) :
    b.lunDone h ch die fail = b.onHalf h (fun x => x.onChan ch (fun k =>
      (k.onDie die (fun e => { (e.onCurrent (fun o => { o with phase := .dataOut })) with timeouts := 0 })).addTask
        (if o.kind = .fill then .fillOut else .dataOut) die)) := by
  have hp : (decide (o.phase = .busy) || decide (o.phase = .unsuspendable)) = true := by rcases hph with hph | hph <;> simp [hph]
  simp only [Block.lunDone, ho, hp, if_true, hread, hlatch, Bool.false_eq_true, if_false]

theorem Block.lunDone_other (hread : o.isRead = false) (fail : Bool) : b.lunDone h ch die fail = b.opEnded h ch die o (!fail) := by
  have hp : (decide (o.phase = .busy) || decide (o.phase = .unsuspendable)) = true := by rcases hph with hph | hph <;> simp [hph]
  simp only [Block.lunDone, ho, hp, if_true, hread, Bool.false_eq_true, if_false]

end

/-- The age tick of an erase under way, which marks its die where the mark is reached for the first time. -/
theorem exec_eraseAgeTick {s : State} {h : HalfId} {ch die : Nat} {mark : Bool} (hcore : s.blk.coreRuns h = true)
    (hactive : ((s.blk.half h).die ch die).eraseActive = true)
    (hmark : (decide ((s.blk.half h).gen.ersMark ≠ 0) && decide ((s.blk.half h).gen.ersMark ≤ satAdd 65535 ((s.blk.half h).die ch die).eraseAge 1) &&
      !((s.blk.half h).die ch die).ageMarked) = mark) :
    exec (.eraseAgeTick h ch die) s = .next (s.withBlock (
      let n := satAdd 65535 ((s.blk.half h).die ch die).eraseAge 1
      let b1 := s.blk.onHalf h (fun x => x.onDie ch die (fun e => { e with eraseAge := n, starved := e.starved || mark, ageMarked := e.ageMarked || mark }))
      if mark then b1.event h 0x16 die (at' ch 0 8 + at' n 32 16) else b1)) := by
  simp only [show exec (.eraseAgeTick h ch die) s = execEraseAgeTick h ch die s from rfl, execEraseAgeTick, run_eq, hcore, hactive, hmark, Bool.and_self,
    if_true, State.withBlock]

/-- Settles O49: ready, suspended, timed out, the gap and the age. -/
theorem lunOperationsEnd : Obligations.LunOperationsEnd := by
  intro h ch die s hcore hen
  dsimp only
  have hready : ∀ status, exec (.lunReady h ch die status) s = .next (s.withBlock ((s.blk.lunReady h ch die status).bindDue h)) := fun status => by
    simp [exec, execLunReady, State.withBlock, hcore, hen]
  refine ⟨fun o status ho hph hst => ⟨fun hread hlatch => ?_, fun hread => ?_⟩, fun status hst => ?_, fun o status ho hph => ⟨fun hst hshow => ?_,
    fun hst hshow => ?_, ?_⟩, fun o ho hph hreset hsetup => ?_, fun o ho => ?_, fun hactive => ⟨fun hno => ?_, fun hset hle hmarked => ?_⟩⟩
  · rw [hready, Block.lunReady, hst, if_pos rfl, Block.lunDone_read ho hph hread hlatch]
  · rw [hready, Block.lunReady, hst, if_pos rfl, Block.lunDone_other ho hph hread]
  · rw [hready, Block.lunReady, hst, if_neg Bool.false_ne_true]
  · simp [exec, execSuspendReady, State.withBlock, ho, hcore, hen, hph, Block.suspendReady, hst, hshow]
  · simp [exec, execSuspendReady, State.withBlock, ho, hcore, hen, hph, Block.suspendReady, hst, hshow]
  · simp [exec, execSuspendTimeout, State.withBlock, ho, hcore, hen, hph]
  · have hp : (decide (o.phase = .busy) || decide (o.phase = .unsuspendable)) = true := by rcases hph with hph | hph <;> simp [hph]
    simp only [show exec (.operationTimeout h ch die) s = execOperationTimeout h ch die s from rfl, execOperationTimeout, run_eq, ho, hcore, hen, hp, hreset,
      hsetup, ne_eq, not_false_eq_true, decide_true, Bool.and_self, if_true, State.withBlock]
    rfl
  · simp [exec, execSuspendGapElapsed, State.withBlock, hcore]
  · have hmark : (decide ((s.blk.half h).gen.ersMark ≠ 0) &&
        decide ((s.blk.half h).gen.ersMark ≤ satAdd 65535 ((s.blk.half h).die ch die).eraseAge 1) && !((s.blk.half h).die ch die).ageMarked) = false := by
      rcases hno with hno | hno | hno
      · simp [hno]
      · simp [Nat.not_le.mpr hno]
      · simp [hno]
    rw [exec_eraseAgeTick hcore hactive hmark]
    rfl
  · have hmark : (decide ((s.blk.half h).gen.ersMark ≠ 0) &&
        decide ((s.blk.half h).gen.ersMark ≤ satAdd 65535 ((s.blk.half h).die ch die).eraseAge 1) && !((s.blk.half h).die ch die).ageMarked) = true := by
      simp [hset, hle, hmarked]
    rw [exec_eraseAgeTick hcore hactive hmark]
    rfl

/-! ### Training -/

theorem Block.trainFull_found {b : Block} {h : HalfId} {ch r : Nat} {found : List DieTrain}
    (hr : ((b.half h).trainTries ch).find? (fun r => ((b.half h).chan ch).allPass found r) = some r) (us : Nat) :
    b.trainFull h ch found us = (b.onHalf h (fun x => x.onChan ch (fun k =>
      (k.trainedAt found ((x.trainTries ch).filter (fun q => decide (r ≤ q))) r us).trainBus
        (trainCycles (x.trainDies ch) ((x.trainTries ch).filter (fun q => decide (r ≤ q))))))).releaseHeld h ch := by
  simp only [Block.trainFull, hr]
  exact congrArg (fun a : Block => a.releaseHeld h ch) (Block.onHalf_congr rfl)

theorem Block.trainFull_none {b : Block} {h : HalfId} {ch : Nat} {found : List DieTrain}
    (hr : ((b.half h).trainTries ch).find? (fun r => ((b.half h).chan ch).allPass found r) = none) (us : Nat) :
    b.trainFull h ch found us = b.trainFailed h ch found ((b.half h).trainTries ch) us := by
  simp only [Block.trainFull, hr]

/-- Settles O50: a full training, a quick one, what asks for them, and a trained channel's registers. -/
theorem channelTraining : Obligations.ChannelTraining := by
  refine ⟨fun h ch us found s hcore hen => ?_, fun h ch s ht => ?_, fun k found tried r us => ⟨rfl, rfl, rfl, rfl⟩, fun k hpad hret => ?_⟩
  · dsimp only
    refine ⟨fun hret hpad hlatch heng => ⟨fun hdue hcodes hready => ?_, fun hdue => ?_⟩, fun die counts htr hmon hany => ?_, fun htr hms => ?_⟩
    · have hrun : exec (.channelTraining h ch found us) s = .next (s.withBlock (s.blk.trainFull h ch found us)) := by
        simp only [show exec (.channelTraining h ch found us) s = execChannelTraining h ch found us s from rfl, execChannelTraining, run_eq, hcore, hen, hret,
          hpad, hlatch, heng, hdue, hcodes, hready, Bool.not_true, Bool.not_false, Bool.or_self, Bool.and_self, Bool.false_eq_true, if_true, if_false,
          State.withBlock]
      rw [hrun]
      refine ⟨fun r hr => ?_, fun hr => ?_⟩
      · rw [Block.trainFull_found hr]
      · rw [Block.trainFull_none hr]
    · simp [exec, execChannelTraining, State.withBlock, hcore, hen, hret, hpad, hlatch, heng, hdue]
    · simp only [show exec (.marginAlarm h ch die counts) s = execMarginAlarm h ch die counts s from rfl, execMarginAlarm, run_eq, hcore, hen, htr, hmon,
        hany, Bool.and_self, if_true, State.withBlock]
    · simp [exec, execRetrainPeriod, State.withBlock, hcore, htr, hms, Block.askRetrain, hen]
  · dsimp only
    have hfull : exec (.chnCtlRetrain h ch) s = .next (s.withBlock ((s.blk.taken h causeRegister).askRetrain h ch true)) :=
      portRun_of_takes ht causeRegister (.chnCtlRetrain h ch) _
    have hquick : exec (.chnCtlQuick h ch) s = .next (s.withBlock ((s.blk.taken h causeRegister).askRetrain h ch false)) :=
      portRun_of_takes ht causeRegister (.chnCtlQuick h ch) _
    rw [hfull, hquick, Block.askRetrain, Block.askRetrain]
    refine ⟨fun hen => ?_, fun hen => ?_⟩
    · rw [if_pos hen, if_pos hen]
      exact ⟨rfl, rfl⟩
    · rw [hen, if_neg Bool.false_ne_true, if_neg Bool.false_ne_true]
      exact ⟨rfl, rfl⟩
  · simp [Chan.askRetrain, hpad, hret]

end Sys2Proof.Machine
end

section
/-!
PROOFS. The read ladder (R237, R242, R244, R249-R259, R290) and the arbiter's boundaries (R417-R426).
-/

namespace Sys2Proof.Machine

open Sys2Proof

/-! ### The ladder -/

/-- A core that reports on the codeword it holds. -/
theorem exec_decodeDone {s : State} {h g : HalfId} {soft : Bool} {core : Nat} {w : CoreJob} {c : Ctx} {k : Cw} (hcore : s.blk.coreRuns h = true)
    (hw : (s.blk.half h).dec.busy.find? (fun e => decide (e.id = coreId soft core)) = some w) (hc : s.blk.ctxOf w.seq = some (g, c))
    (hk : c.cws[w.place]? = some k) (final : Bool) :
    exec (.decodeDone h soft core final) s = .next (s.withBlock (
      let d := w.decode soft (s.blk.cwShort k) k
      if d.ok && !final then s.blk.retireCore h soft core 8
      else
        let b1 := s.blk.onHalf h (fun x => x.coreDone (coreId soft core))
        let j := if d.ok then b1.decoded k soft d.image
          else if soft then k.toRecon else k.hardFailed d.unsat (!(b1.half h).dec.soft.isEmpty)
        (b1.putCw w.seq w.place j).settle w.seq)) := by
  simp only [show exec (.decodeDone h soft core final) s = execDecodeDone h soft core final s from rfl, execDecodeDone, run_eq, hw, hcore, Bool.not_true,
    Bool.false_eq_true, if_false, hc, hk, State.withBlock]

/-- An image that arrives at the half that drives its channel. -/
theorem exec_codewordArrival {s : State} {h g : HalfId} {seq i : Nat} {raw : BitVec 36864} {c : Ctx} {k : Cw} (hcore : s.blk.coreRuns h = true)
    (hc : s.blk.ctxOf seq = some (g, c)) (hk : c.cws[i]? = some k) (hdrive : s.blk.driver (recCh k.idx) = some h) (hst : k.st = .arriving) :
    exec (.codewordArrival h seq i raw) s = .next (s.withBlock (
      let e := s.blk.entering h seq k raw
      let j := e.1.arrived h c k e.2
      let b1 := e.1.putCw seq i j
      (if j.st = .decode then b1.askDecode k.idx false else if j.st = .soft then b1.askDecode k.idx true else b1).settle seq)) := by
  simp only [show exec (.codewordArrival h seq i raw) s = execCodewordArrival h seq i raw s from rfl, execCodewordArrival, run_eq, hc, hk, hcore, hdrive, hst,
    decide_true, Bool.and_self, if_true, State.withBlock]

/-- Settles O51: the image's arrival, a core's report and a reconstruction. -/
theorem readLadder : Obligations.ReadLadder := by
  intro h s hcore
  dsimp only
  refine ⟨fun seq i raw g c k hc hk hdrive hst => ?_, fun soft core w g c k hw hc hk => ?_, fun seq i g c k hc hk hkeep hst hdone => ?_⟩
  · rw [exec_codewordArrival hcore hc hk hdrive hst]
    refine ⟨fun hj => ?_, fun hj => ?_, fun hd hs => ?_⟩
    · simp only [hj, if_true]
    · simp only [hj, reduceCtorEq, if_true, if_false]
    · simp only [hd, hs, if_false]
  · have hrun := fun final => exec_decodeDone hcore hw hc hk (final := final)
    refine ⟨fun hok => ?_, fun hok => ?_, fun final hok hs => ?_, fun final hok hs => ?_⟩
    · rw [hrun]
      simp only [hok, Bool.not_false, Bool.and_self, if_true]
    · rw [hrun]
      simp only [hok, Bool.not_true, Bool.and_false, Bool.false_eq_true, if_true, if_false]
    · subst hs
      rw [hrun]
      simp only [hok, Bool.false_and, Bool.false_eq_true, if_false, if_true]
    · subst hs
      rw [hrun]
      simp only [hok, Bool.false_and, Bool.false_eq_true, if_false]
  · have hrun : exec (.stripeReconstruction h seq i) s = execStripeReconstruction h seq i s := rfl
    rw [hrun]
    refine ⟨fun d hd => ?_, fun hd => ?_⟩
    · simp only [execStripeReconstruction, run_eq, hc, hk, hcore, hkeep, hst, hdone, hd, decide_true, Bool.and_self, if_true, State.withBlock]
    · simp only [execStripeReconstruction, run_eq, hc, hk, hcore, hkeep, hst, hdone, hd, decide_true, Bool.and_self, if_true, State.withBlock, Cw.fail]

/-! ### The arbiter -/

/-- A saturating count is the lesser of its top and the sum. -/
theorem satAdd_eq_min (top v n : Nat) : satAdd top v n = Nat.min top (v + n) := by
  unfold satAdd
  split
  · exact (Nat.min_eq_left (by omega)).symm
  · exact (Nat.min_eq_right (by omega)).symm

theorem ArbCls.commit_idle {c : ArbCls} (hreqs : c.reqs = []) : c.commit.cur = c.shadow ∧ c.commit.pend = none := by
  simp [ArbCls.commit, ArbCls.applyPend, hreqs]

theorem ArbCls.commit_pending {c : ArbCls} (hreqs : c.reqs ≠ []) : c.commit.cur = c.cur ∧ c.commit.pend = some c.shadow := by
  simp [ArbCls.commit, hreqs]

/-- Settles O52: the two boundaries, the watchdog of each class, and the commit. -/
theorem arbiterBoundaries : Obligations.ArbiterBoundaries := by
  refine ⟨fun h s hcore => ⟨fun hawake => ⟨?_, fun soft => ?_⟩, fun who hheld => ?_, fun who hheld => ?_⟩, fun h s ht => ?_,
    fun c => ⟨ArbCls.commit_idle, ArbCls.commit_pending⟩, fun a dec who => ⟨rfl, rfl, rfl, satAdd_eq_min _ _ _⟩⟩
  · simp [exec, execPoolArbitration, State.withBlock, hcore, hawake]
  · simp [exec, execDecodeArbitration, State.withBlock, hcore, hawake]
  · simp only [show exec (.holdWatchdog h false who) s = execHoldWatchdog h false who s from rfl, execHoldWatchdog, run_eq, hcore, hheld, Bool.false_eq_true,
      if_false, Bool.and_self, if_true, State.withBlock]
  · simp only [show exec (.holdWatchdog h true who) s = execHoldWatchdog h true who s from rfl, execHoldWatchdog, run_eq, hcore, hheld, Bool.and_self, if_true,
      State.withBlock]
  · exact portRun_of_takes ht causeRegister (.arbCommitGo h) _

end Sys2Proof.Machine
end

section
/-!
PROOFS. The streams of the host DMA engine (R48, R435, R436, R440-R449, R453-R456).
-/

namespace Sys2Proof.Machine

open Sys2Proof

/-- The response to a slot's write goes to the oldest of them. -/
theorem Block.answerOldest {b : Block} {h : HalfId} {slot : Nat} {gen : BitVec 8} {descNo : Nat} {w : MWrite} {rest : List MWrite}
    (hw : w.kind = .stream slot gen descNo) (err : Bool) (pre : List MWrite) (hpre : ∀ v ∈ pre, ∀ n d, v.kind ≠ .stream slot n d) :
    (pre ++ w :: rest).foldr (fun w a => match w.kind with
      | .stream n gen descNo => if n = slot then b.writeAnswered h w n gen descNo err else a
      | _ => a) b = b.writeAnswered h w slot gen descNo err := by
  induction pre with
  | nil => simp only [List.nil_append, List.foldr_cons, hw, if_true]
  | cons v pre ih =>
    rw [List.cons_append, List.foldr_cons, ih (fun u hu => hpre u (List.mem_cons_of_mem v hu))]
    split
    · next n g d hv =>
      have hn : n ≠ slot := fun hn => hpre v List.mem_cons_self g d (hn ▸ hv)
      exact if_neg hn
    · rfl

/-- A stream is dropped by its own generation, and one that writes only before its last write has left. -/
theorem Stream.droppable_iff (t : Stream) (w : Word) : t.droppable w = true ↔
    t.active = true ∧ (t.dir = true → t.ended = false) ∧ w.bit 0 = true ∧ w.field 8 8 = t.gen.toNat := by
  unfold Stream.droppable
  cases t.dir <;> simp [and_assoc]

/-- Settles O54: each of the engine's steps, and the drop of a stream. -/
theorem dmaStreams : Obligations.DmaStreams := by
  refine ⟨fun h s hcore => ?_, fun h slot value s ht => ?_⟩
  · dsimp only
    refine ⟨fun q c n hlatch hfind hfree => ?_, fun slot c hc hact hend hdesc hmeta hread => ?_,
      fun slot c d hc hd hact hend hwr hrd => ?_, fun slot data poison err r hr => ?_,
      fun slot err pre w gen descNo rest hl hw hpre => ?_, fun slot hact hend hrd hresp => ?_⟩
    · simp [exec, execDmaStreamStart, State.withBlock, hcore, hlatch, hfind, hfree]
    · have hcan : (s.blk.half h).canRead = true := decide_eq_true hread
      have hrun : ∀ desc poison, exec (.descriptorFetch h slot desc poison) s = execDescriptorFetch h slot desc poison s := fun _ _ => rfl
      refine ⟨fun poison => ?_, fun d poison hbad => ?_, fun d hok => ?_⟩
      · rw [hrun, execDescriptorFetch, masterRun_of_core hcore]
        simp [hc, hcore, hcan, hact, hend, hdesc, hmeta]
      · have hbad' : (poison || d.invalid (c.writesOut || c.compares)) = true := by rcases hbad with hbad | hbad <;> simp [hbad]
        rw [hrun, execDescriptorFetch, masterRun_of_core hcore]
        simp only [hc, hcore, hcan, hact, hend, hdesc, hmeta, hbad', Option.isNone_none, Bool.not_false, Bool.and_self, if_true]
        exact next_congr s (congrArg (fun a : Block => a.shortChain h slot) (Block.onHalf_congr rfl))
      · rw [hrun, execDescriptorFetch, masterRun_of_core hcore]
        simp [hc, hcore, hcan, hact, hend, hdesc, hmeta, hok]
    · have hcanR : (s.blk.half h).canRead = true := decide_eq_true hrd
      have hcanW : (s.blk.half h).canWrite = true := decide_eq_true hwr
      simp [exec, execDmaBurst, State.withBlock, hc, hd, hcore, hact, hend, hcanR, hcanW]
    · rw [show exec (.dmaReadReturn h slot data poison err) s = execDmaReadReturn h slot data poison err s from rfl, execDmaReadReturn,
        masterRun_of_core hcore]
      refine ⟨fun hback => ?_, fun hback => ?_⟩
      · simp [hr, hcore, hback]
      · simp [hr, hcore, hback]
    · rw [show exec (.dmaWriteResponse h slot err) s = execDmaWriteResponse h slot err s from rfl, execDmaWriteResponse, masterRun_of_core hcore]
      simp only [hcore, Bool.not_true, Bool.false_eq_true, if_false, hl]
      exact next_congr s (Block.answerOldest hw err pre hpre)
    · have hquiet : ((s.blk.half h).stream slot).quiet = true := by
        rcases hresp with hresp | hresp <;> simp [Stream.quiet, hend, hrd, hresp]
      refine ⟨fun howe => ?_, fun howe hiss => ?_⟩
      · simp [exec, execDmaStreamComplete, State.withBlock, hcore, hact, hquiet, howe]
      · simp [exec, execDmaStreamComplete, State.withBlock, hcore, hact, hquiet, howe, hiss]
  · dsimp only
    have hrun : exec (.dmaStreamDrop h slot value) s = .next (s.withBlock ((s.blk.taken h causeRegister).askDrop h slot value)) :=
      portRun_of_takes ht causeRegister (.dmaStreamDrop h slot value) _
    rw [hrun, Block.askDrop]
    refine ⟨fun hact hdir hgo hgen => ?_, fun hno => ?_⟩
    · rw [if_pos ((Stream.droppable_iff _ _).mpr ⟨hact, hdir, hgo, hgen⟩)]
    · rw [if_neg]
      intro hdrop
      obtain ⟨hact, hdir, hgo, hgen⟩ := (Stream.droppable_iff _ _).mp hdrop
      rcases hno with hno | ⟨hd, he⟩ | hno | hno
      · simp [hact] at hno
      · simp [hdir hd] at he
      · simp [hgo] at hno
      · exact hno hgen

end Sys2Proof.Machine
end

section
/-!
PROOFS. The record window, ageing, the drive seed and the protected memories (R118, R124, R236, R471-R473, R650).
-/

namespace Sys2Proof.Machine

open Sys2Proof

/-! ### The record window -/

/-- Two 64-bit halves of a record's bytes, put together again. -/
theorem ofNat_halves (v : BitVec 128) :
    BitVec.ofNat 128 (v.toNat / 2 ^ (64 * 0) % 2 ^ 64 + 2 ^ 64 * (v.toNat / 2 ^ (64 * 1) % 2 ^ 64)) = v := by
  have hlt : v.toNat / 2 ^ 64 < 2 ^ 64 := Nat.div_lt_of_lt_mul (by simpa using v.isLt)
  rw [Nat.mul_zero, Nat.pow_zero, Nat.div_one, Nat.mul_one, Nat.mod_eq_of_lt hlt, Nat.mod_add_div, BitVec.ofNat_toNat, BitVec.setWidth_eq]

theorem Block.capture_clean {b : Block} {h : HalfId} {i : Nat} (hex : b.unitExists i = true) (hclean : (b.half h).capturePoison (b.serves h i) i = 0) :
    b.capture h i = b.onHalf h (fun x => { x with store := { x.store with
      index := i, valid := true, fromMirror := !b.serves h i, absent := false, poison := 0
      data := (if b.serves h i then Tab.get Rec.blank (b.half h).store.recs i else Tab.get Rec.blank (b.half h).mir.recs i).bytes } }) := by
  have hbit : ∀ k, (0 : BitVec 2).getLsbD k = false := fun k => BitVec.getLsbD_zero
  simp only [Block.capture, hex, hclean, hbit, Bool.not_true, Bool.false_eq_true, if_false, if_true, ofNat_halves]
  rfl

theorem Block.capture_absent {b : Block} {h : HalfId} {i : Nat} (hno : b.unitExists i = false) :
    b.capture h i = b.onHalf h (fun x => { x with store := { x.store with
      index := i, valid := true, fromMirror := !b.serves h i, absent := true, poison := 0, data := 0 } }) := by
  simp [Block.capture, hno, Half.onStore]

/-! ### The drive seed -/

/-- A journal record of no command touches the two halves alone. -/
theorem Block.journal_none_pair (b : Block) (h : HalfId) (es : List JEntry) : (b.journal h none es).pair = b.pair := by
  unfold Block.journal Block.appendJrnl
  dsimp only
  split
  · rw [Option.elim_none, Block.send_pair]
    split <;> simp only [Block.onHalf_pair]
  · split
    · exact Block.onHalf_pair _ _ _
    · rw [Block.raise_pair]
      exact Block.onHalf_pair _ _ _

theorem Block.journal_none_refused (b : Block) (h k : HalfId) (es : List JEntry) :
    ((b.journal h none es).half k).dec.refused = (b.half k).dec.refused := by
  have hput := fun (a : Block) (f : Half → Half) hf => Block.onHalf_view (fun x : Half => x.dec.refused) a h k (f := f) hf
  have hsend := fun (a : Block) m => Block.send_view (fun x : Half => x.dec.refused) (fun _ _ => rfl) a h k m
  have hraise := fun (a : Block) n => Block.raise_view (fun x : Half => x.dec.refused) (fun _ _ => rfl) a h k n
  unfold Block.journal Block.appendJrnl
  dsimp only
  split
  · rw [Option.elim_none, hsend]
    split
    · exact (hput _ _ (by intro _; rfl)).trans (hput _ _ (by intro _; rfl))
    · exact hput _ _ (fun _ => rfl)
  · split
    · exact hput _ _ (fun _ => rfl)
    · rw [hraise]
      exact hput _ _ (fun _ => rfl)

section
variable {b : Block} {value : Word}

theorem Block.writeSeed_refused (hdata : b.ha.store.recs.any (fun e => holdsSeed e.2) = true ∨ b.hb.store.recs.any (fun e => holdsSeed e.2) = true)
    (h : HalfId) : b.writeSeed h value = (b.onHalf .a (fun x => { x with dec := { x.dec with refused := true } })).onHalf .b
      (fun x => { x with dec := { x.dec with refused := true } }) := by
  have hany : (List.any b.ha.store.recs (fun e => holdsSeed e.2) || List.any b.hb.store.recs (fun e => holdsSeed e.2)) = true := by
    rcases hdata with hdata | hdata <;> simp only [hdata, Bool.true_or, Bool.or_true]
  rw [Block.writeSeed, if_pos hany]

/-- A seed taken is the pair's; neither half notes a refusal. -/
theorem Block.writeSeed_taken (ha : b.ha.store.recs.any (fun e => holdsSeed e.2) = false) (hb : b.hb.store.recs.any (fun e => holdsSeed e.2) = false)
    (h : HalfId) : (b.writeSeed h value).pair.seed = BitVec.ofNat 31 (value.field 0 31) ∧
      ∀ k, ((b.writeSeed h value).half k).dec.refused = (b.half k).dec.refused := by
  have hany : ¬ (List.any b.ha.store.recs (fun e => holdsSeed e.2) || List.any b.hb.store.recs (fun e => holdsSeed e.2)) = true := by
    simp only [ha, hb, Bool.or_self, Bool.false_eq_true, not_false_eq_true]
  rw [Block.writeSeed, if_neg hany]
  refine ⟨?_, fun k => ?_⟩
  · rw [Block.onHalf_pair, Block.journal_none_pair]
    rfl
  · exact (Block.onHalf_view (fun x : Half => x.dec.refused) _ h k (by intro _; rfl)).trans (Block.journal_none_refused _ h k _)

end

/-! ### Ageing -/

theorem satBits_age (v : BitVec 3) : (satBits v 1).toNat = Nat.min 7 (v.toNat + 1) := by
  revert v
  decide

theorem aged_frame (r : Rec) : (aged r).wp = r.wp ∧ (aged r).valid = r.valid ∧ (aged r).state = r.state := by
  unfold aged
  split
  · split <;> exact ⟨rfl, rfl, rfl⟩
  · exact ⟨rfl, rfl, rfl⟩

theorem aged_of_used {r : Rec} (hst : r.state = .opened ∨ r.state = .full) :
    (aged r).nru = false ∧ (aged r).age.toNat = (if r.nru then 0 else Nat.min 7 (r.age.toNat + 1)) := by
  have hst' : (decide (r.state = .opened) || decide (r.state = .full)) = true := by rcases hst with hst | hst <;> simp [hst]
  unfold aged
  rw [if_pos hst']
  cases hn : r.nru
  · rw [if_neg Bool.false_ne_true, if_neg Bool.false_ne_true]
    exact ⟨rfl, satBits_age r.age⟩
  · exact ⟨rfl, rfl⟩

theorem aged_of_idle {r : Rec} (ho : r.state ≠ .opened) (hf : r.state ≠ .full) : aged r = r := by
  simp [aged, ho, hf]

/-- Settles O55: each write of the stores, and the three walks. -/
theorem storesAndMemories : Obligations.StoresAndMemories := by
  refine ⟨fun h value s ht => ?_, fun h s hcore => ?_, fun r => ?_⟩
  · dsimp only
    have hrun : exec (.recIndexWrite h value) s = .next (s.withBlock ((s.blk.taken h causeRegister).capture h (value.field 0 18))) :=
      portRun_of_takes ht causeRegister (.recIndexWrite h value) _
    have hseed : exec (.decRandSeedWrite h value) s = .next (s.withBlock ((s.blk.taken h causeRegister).writeSeed h value)) :=
      portRun_of_takes ht causeRegister (.decRandSeedWrite h value) _
    refine ⟨fun hex hclean => ?_, fun hno => ?_, ?_, fun hdata => ?_, fun ha hb => ⟨_, hseed, rfl, Block.writeSeed_taken ha hb h⟩, fun m => ?_,
      fun mask => ?_, ?_⟩
    · rw [hrun, Block.capture_clean hex hclean]
    · rw [hrun, Block.capture_absent hno]
    · exact portRun_of_takes ht causeRegister (.recAgeWrite h value) _
    · rw [hseed, Block.writeSeed_refused hdata]
    · exact portRun_of_takes ht causeRegister (.memClr h m value) _
    · exact portRun_of_takes ht causeRegister (.memInitFill h mask) _
    · exact portRun_of_takes ht causeRegister (.poolMinClr h) _
  · refine ⟨fun hms => ?_, fun hms => ?_, fun m hit lost hint hm hm5 => ?_, fun hit lost hint m error => ?_⟩
    · simp [exec, execAgeingWalk, State.withBlock, hcore, hms]
    · simp [exec, execAgeingWalk, hcore, hms]
    · have hrun : ∀ error, exec (.scrubWord h m error hit lost) s = .next (s.withBlock (s.blk.scrub h m error hit lost)) := fun error => by
        simp [exec, execScrubWord, State.withBlock, hcore, hint, hm5]
      have hm0 : m ≠ 0 := Nat.pos_iff_ne_zero.mp hm
      dsimp only
      refine ⟨?_, fun hwr hgood => ⟨?_, ?_⟩⟩
      · rw [hrun, Block.scrub]
        simp only [hm0, if_false]
        split <;> rfl
      · rw [hrun, Block.scrub]
        simp only [hm0, hwr, hgood, if_false, Bool.not_true, Bool.or_self, Bool.false_eq_true]
        rfl
      · rw [hrun, Block.scrub]
        simp only [hm0, hwr, hgood, if_false, Bool.not_true, Bool.or_self, Bool.false_eq_true]
    · simp [exec, execScrubWord, hcore, hint]
  · obtain ⟨hwp, hvalid, hst⟩ := aged_frame r
    exact ⟨hwp, hvalid, hst, aged_of_used, aged_of_idle⟩

end Sys2Proof.Machine
end

section
/-!
PROOFS. The gutters (R478-R483) and the loop engine's governors (R486-R491, R503, R505).
-/

namespace Sys2Proof.Machine

open Sys2Proof

/-! ### Gutters -/

theorem Half.onGutter_congr {x : Half} {g : Nat} {f k : Gutter → Gutter} (hfk : f (x.gutter g) = k (x.gutter g)) : x.onGutter g f = x.onGutter g k := by
  unfold Half.gutter at hfk
  simp only [Half.onGutter, Tab.modify, hfk]

section
variable {x : Half} {g : Nat}

theorem Half.gutRead_spilling (hs : (x.gutter g).spilling = true) :
    x.gutRead g = { x.onGutter g (fun _ => { x.gutter g with tmo := false }) with port := { ok := true, data := 0, poison := false } } := by
  rw [Half.gutRead, if_pos hs]
  exact congrArg (fun y : Half => { y with port := { ok := true, data := 0, poison := false } }) (Half.onGutter_congr rfl)

theorem Half.gutRead_word {w : Word} {p : Bool} (hs : (x.gutter g).spilling = false) (hp : (x.gutter g).peek = some (w, p)) :
    x.gutRead g = { x.onGutter g (fun _ => { (x.gutter g).advance with tmo := false }) with port := { ok := true, data := w.toNat, poison := p } } := by
  simp only [Half.gutRead, hs, Bool.false_eq_true, if_false, hp, Option.isSome_some, if_true, Half.gutTake]
  exact congrArg (fun y : Half => { y with port := { ok := true, data := w.toNat, poison := p } }) (Half.onGutter_congr rfl)

theorem Half.gutRead_stalled (hs : (x.gutter g).spilling = false) (hp : (x.gutter g).peek = none) :
    x.gutRead g = x.onGutter g (fun _ => { x.gutter g with stalled := (x.gutter g).stalled + 1, tmo := false }) := by
  simp only [Half.gutRead, hs, Bool.false_eq_true, if_false, hp, Option.isSome_none]
  exact Half.onGutter_congr rfl

theorem Half.unstall_stalled (hs : (x.gutter g).spilling = false) (hst : (x.gutter g).stalled ≠ 0) :
    x.unstall g = { x.onGutter g (fun _ => { x.gutter g with stalled := 0 }) with port := { ok := true, data := 0, poison := false } } := by
  simp only [Half.unstall, hs, hst, decide_false, Bool.or_self, Bool.false_eq_true, if_false]
  exact congrArg (fun y : Half => { y with port := { ok := true, data := 0, poison := false } }) (Half.onGutter_congr rfl)

theorem Half.spillFail_out (ho : (x.gutter g).spOut ≠ []) :
    x.spillFail g = { x.onGutter g (fun u => { u with spillErr := true, spStop := true, spOut := [] }) with
      dma := x.dma.keepWrites (fun m => decide (m.kind ≠ .spill g)) } := by
  rw [Half.spillFail, if_neg (by simpa using ho)]
  rfl

end

section
variable {u : Gutter} (hs : u.spilling = false)
include hs

theorem Gutter.control_mark : u.control true false false = { u with mark := some u.pointer } := by
  simp [Gutter.control, hs, Gutter.setMark]

theorem Gutter.control_rewind : u.control false true false = { u with rdItem := u.mark.getD u.oldest, rdWord := 0 } := by
  simp [Gutter.control, hs, Gutter.rewind]

theorem Gutter.control_release :
    u.control false false true = { u with items := u.items.filter (fun i => decide (u.rdItem ≤ i.num)), mark := none } := by
  simp [Gutter.control, hs, Gutter.release]

end

theorem Gutter.timeout_waiting {u : Gutter} (hset : u.tmoUs ≠ 0) (hun : 0 < u.unread) : u.timeout = { u with tmo := true } := by
  simp [Gutter.timeout, hset, hun]

/-- Settles O56: the commands of a gutter by its pointers, its timeout, and its spill's answers. -/
theorem gutters : Obligations.Gutters := by
  refine ⟨fun h g s ht hg => ?_, fun h g s hf hheld hset hun => ?_, fun h g s hcore => ⟨?_, fun hout => ?_⟩⟩
  · have hg' : g < Config.gutters (s.blk.taken h causeRegister).variant := by rw [Block.taken_variant]; exact hg
    have hread : exec (.gutRdRead h g) s = .next (s.withBlock ((s.blk.taken h causeRegister).onHalf h (fun x => x.gutRead g))) :=
      (portRun_of_takes ht causeRegister (.gutRdRead h g) _).trans (next_congr s (if_pos hg'))
    have hmark : exec (.gutCtlMark h g) s = .next (s.withBlock ((s.blk.taken h causeRegister).onHalf h (fun x =>
        x.onGutter g (fun u => u.control true false false)))) :=
      (portRun_of_takes ht causeRegister (.gutCtlMark h g) _).trans (next_congr s (if_pos hg'))
    have hrewind : exec (.gutCtlRewind h g) s = .next (s.withBlock ((s.blk.taken h causeRegister).onHalf h (fun x =>
        x.onGutter g (fun u => u.control false true false)))) :=
      (portRun_of_takes ht causeRegister (.gutCtlRewind h g) _).trans (next_congr s (if_pos hg'))
    have hrelease : exec (.gutCtlRelease h g) s = .next (s.withBlock ((s.blk.taken h causeRegister).onHalf h (fun x =>
        x.onGutter g (fun u => u.control false false true)))) :=
      (portRun_of_takes ht causeRegister (.gutCtlRelease h g) _).trans (next_congr s (if_pos hg'))
    have hunstall : exec (.gutCtlUnstall h g) s = .next (s.withBlock ((s.blk.taken h causeRegister).onHalf h (fun x => x.unstall g))) :=
      (portRun_of_takes ht causeRegister (.gutCtlUnstall h g) _).trans (next_congr s (if_pos hg'))
    dsimp only
    refine ⟨fun hs => ⟨fun w p hp => ?_, fun hp => ?_, ?_, ?_, ?_, fun hst => ?_⟩, fun hs => ?_, fun value => ?_⟩
    · exact hread.trans (next_congr s (Block.onHalf_congr (Half.gutRead_word hs hp)))
    · exact hread.trans (next_congr s (Block.onHalf_congr (Half.gutRead_stalled hs hp)))
    · exact hmark.trans (next_congr s (Block.onHalf_congr (Half.onGutter_congr (Gutter.control_mark hs))))
    · exact hrewind.trans (next_congr s (Block.onHalf_congr (Half.onGutter_congr (Gutter.control_rewind hs))))
    · exact hrelease.trans (next_congr s (Block.onHalf_congr (Half.onGutter_congr (Gutter.control_release hs))))
    · exact hunstall.trans (next_congr s (Block.onHalf_congr (Half.unstall_stalled hs hst)))
    · exact hread.trans (next_congr s (Block.onHalf_congr (Half.gutRead_spilling hs)))
    · exact (portRun_of_takes ht causeRegister (.gutSprdWrite h g value) _).trans (next_congr s (if_pos hg'))
  · rw [show exec (.gutterTimeout h g) s = execGutterTimeout h g s from rfl, execGutterTimeout, run_eq, hf, hheld, Bool.or_self,
      if_neg Bool.false_ne_true]
    exact next_congr s (Block.onHalf_congr (Half.onGutter_congr (Gutter.timeout_waiting hset hun)))
  · rw [show exec (.spillWriteAck h g) s = execSpillWriteAck h g s from rfl, execSpillWriteAck, masterRun_of_core hcore, if_pos hcore]
  · rw [show exec (.spillError h g) s = execSpillError h g s from rfl, execSpillError, masterRun_of_core hcore, if_pos hcore]
    exact next_congr s (Block.onHalf_congr (Half.spillFail_out hout))

/-! ### Governors -/

/-- Settles O57: a sample, the enable of a slot, and the other writes of the loop engine. -/
theorem governors : Obligations.Governors := by
  refine ⟨fun h n s hcore hen => ⟨fun hst => ?_, fun hst => ?_⟩, fun h n s ht hn => ?_, fun l n => ⟨?_, rfl, rfl⟩⟩
  · simp [exec, execLoopSample, State.withBlock, hcore, hen, Block.sample, hst]
  · simp [exec, execLoopSample, hcore, hen, Block.sample, hst]
  · have hn' : n < Config.loops (s.blk.taken h causeRegister).variant := by rw [Block.taken_variant]; exact hn
    have hwrite : ∀ on, exec (.loopEnable h n on) s = .next (s.withBlock ((s.blk.taken h causeRegister).writeEn h n on)) := fun on =>
      (portRun_of_takes ht causeRegister (.loopEnable h n on) _).trans (next_congr s (if_pos hn'))
    dsimp only
    refine ⟨fun hen hconf => ?_, fun hen hconf => ?_, fun hen => ⟨?_, ?_⟩, fun hen => ?_, fun mode => ?_, ?_, fun value => ?_⟩
    · rw [hwrite]
      simp only [Block.writeEn, hen, hconf, if_true, Bool.false_eq_true, if_false, Half.onLoops]
    · rw [hwrite]
      simp only [Block.writeEn, hen, hconf, if_true, Bool.false_eq_true, if_false]
    · rw [hwrite]
      simp only [Block.writeEn, hen, if_true]
    · rw [hwrite]
      simp only [Block.writeEn, hen, if_true, Bool.false_eq_true, if_false, Half.onLoops]
    · rw [hwrite]
      simp only [Block.writeEn, hen, Bool.false_eq_true, if_false]
    · exact (portRun_of_takes ht causeRegister (.trcModeWrite h n mode) _).trans (next_congr s (if_pos hn'))
    · rw [← Block.taken_variant s.blk h causeRegister]
      exact portRun_of_takes ht causeRegister (.loopCommitGo h) _
    · exact portRun_of_takes ht causeRegister (.loopTrcSelWrite h value) _
  · simp [Loops.stop]

end Sys2Proof.Machine
end

section
/-!
PROOFS. The interrupt concentrator (R509, R511-R514, R518, R519, R522).
-/

namespace Sys2Proof.Machine

open Sys2Proof

/-! ### The winner of a claim -/

/-- A later source takes an earlier one's place only with a higher PRIO. -/
def Irq.higher (o : Option (Nat × Src)) (e : Nat × Src) : Option (Nat × Src) :=
  match o with
  | none => some e
  | some w => if w.2.prio < e.2.prio then some e else some w

theorem Irq.winner_eq (i : Irq) (k : Nat) : i.winner k = (i.srcs.filter (fun e => i.eligible e.1 e.2 k)).foldl Irq.higher none := rfl

/-- What the fold over the sources keeps: one of them, of the highest PRIO. -/
theorem Irq.foldl_higher_max (w : Nat × Src) (l : List (Nat × Src)) :
    ∃ r, l.foldl Irq.higher (some w) = some r ∧ r ∈ w :: l ∧ ∀ e ∈ w :: l, e.2.prio ≤ r.2.prio := by
  induction l generalizing w with
  | nil => exact ⟨w, rfl, List.mem_cons_self, fun e he => by rw [List.mem_singleton.mp he]⟩
  | cons e l ih =>
    by_cases hlt : w.2.prio < e.2.prio
    · obtain ⟨r, hr, hmem, hmax⟩ := ih e
      refine ⟨r, by rw [List.foldl_cons, Irq.higher, if_pos hlt, hr], List.mem_cons_of_mem w hmem, fun u hu => ?_⟩
      rcases List.mem_cons.mp hu with rfl | hu
      · exact (Nat.le_of_lt hlt).trans (hmax e List.mem_cons_self)
      · exact hmax u hu
    · obtain ⟨r, hr, hmem, hmax⟩ := ih w
      refine ⟨r, by rw [List.foldl_cons, Irq.higher, if_neg hlt, hr], ?_, fun u hu => ?_⟩
      · rcases List.mem_cons.mp hmem with rfl | hmem
        · exact List.mem_cons_self
        · exact List.mem_cons_of_mem w (List.mem_cons_of_mem e hmem)
      · rcases List.mem_cons.mp hu with rfl | hu
        · exact hmax u List.mem_cons_self
        · rcases List.mem_cons.mp hu with rfl | hu
          · exact (Nat.not_lt.mp hlt).trans (hmax w List.mem_cons_self)
          · exact hmax u (List.mem_cons_of_mem w hu)

/-- Of sources in the order of their IDs the fold keeps the lowest ID of the highest PRIO. -/
theorem Irq.foldl_higher_first {w r : Nat × Src} {l : List (Nat × Src)} (hr : l.foldl Irq.higher (some w) = some r)
    (hl : (w :: l).Pairwise (fun a c => a.1 < c.1)) {u : Nat × Src} (hu : u ∈ w :: l) (hp : u.2.prio = r.2.prio) : r.1 ≤ u.1 := by
  induction l generalizing w u with
  | nil =>
    rw [List.mem_singleton.mp hu]
    exact le_of_eq (congrArg Prod.fst (Option.some.inj hr)).symm
  | cons e l ih =>
    obtain ⟨hwl, hel⟩ := List.pairwise_cons.mp hl
    rw [List.foldl_cons, Irq.higher] at hr
    by_cases hlt : w.2.prio < e.2.prio
    · rw [if_pos hlt] at hr
      rcases List.mem_cons.mp hu with rfl | hu
      · obtain ⟨r', hr', -, hmax⟩ := Irq.foldl_higher_max e l
        obtain rfl := Option.some.inj (hr.symm.trans hr')
        exact absurd (hmax e List.mem_cons_self) (Nat.not_le.mpr (hp ▸ hlt))
      · exact ih hr hel hu hp
    · rw [if_neg hlt] at hr
      have hw : (w :: l).Pairwise (fun a c => a.1 < c.1) :=
        List.pairwise_cons.mpr ⟨fun c hc => hwl c (List.mem_cons_of_mem e hc), (List.pairwise_cons.mp hel).2⟩
      rcases List.mem_cons.mp hu with rfl | hu
      · exact ih hr hw List.mem_cons_self hp
      · rcases List.mem_cons.mp hu with rfl | hu
        · obtain ⟨r', hr', -, hmax⟩ := Irq.foldl_higher_max w l
          obtain rfl := Option.some.inj (hr.symm.trans hr')
          have hwp : w.2.prio = r.2.prio := Nat.le_antisymm (hmax w List.mem_cons_self) (hp ▸ Nat.not_lt.mp hlt)
          exact (ih hr hw List.mem_cons_self hwp).trans (Nat.le_of_lt (hwl u List.mem_cons_self))
        · exact ih hr hw (List.mem_cons_of_mem w hu) hp

/-- The keys of a table in order rise. -/
theorem Tab.rising_pairwise {α : Type} {t : Tab α} {lo : Nat} (ht : Tab.risingFrom lo t = true) :
    t.Pairwise (fun a c => a.1 < c.1) ∧ ∀ e ∈ t, lo ≤ e.1 := by
  induction t generalizing lo with
  | nil => exact ⟨List.Pairwise.nil, fun e he => absurd he List.not_mem_nil⟩
  | cons a t ih =>
    obtain ⟨hlo, hrest⟩ := (Bool.and_eq_true _ _).mp ht
    have hlo := of_decide_eq_true hlo
    obtain ⟨hpair, habove⟩ := ih hrest
    refine ⟨List.pairwise_cons.mpr ⟨fun c hc => habove c hc, hpair⟩, fun e he => ?_⟩
    rcases List.mem_cons.mp he with rfl | he
    · exact hlo
    · exact (Nat.le_succ_of_le hlo).trans (habove e he)

theorem Irq.winner_some {i : Irq} {k : Nat} {r : Nat × Src} (hw : i.winner k = some r) :
    r ∈ i.srcs ∧ i.eligible r.1 r.2 k = true ∧ (∀ e ∈ i.srcs, i.eligible e.1 e.2 k = true → e.2.prio ≤ r.2.prio) ∧
      (Tab.risingFrom 0 i.srcs = true → ∀ e ∈ i.srcs, i.eligible e.1 e.2 k = true → e.2.prio = r.2.prio → r.1 ≤ e.1) := by
  rw [Irq.winner_eq] at hw
  cases hl : i.srcs.filter (fun e => i.eligible e.1 e.2 k) with
  | nil => simp [hl] at hw
  | cons w l =>
    rw [hl, List.foldl_cons] at hw
    obtain ⟨r', hr', hmem, hmax⟩ := Irq.foldl_higher_max w l
    obtain rfl := Option.some.inj (hw.symm.trans hr')
    have hiff : ∀ e, e ∈ w :: l ↔ e ∈ i.srcs ∧ i.eligible e.1 e.2 k = true := fun e => by rw [← hl, List.mem_filter]
    obtain ⟨hin, hel⟩ := (hiff r).mp hmem
    refine ⟨hin, hel, fun e he hee => hmax e ((hiff e).mpr ⟨he, hee⟩), fun hrise e he hee hp => ?_⟩
    have hpair : (w :: l).Pairwise (fun a c => a.1 < c.1) := hl ▸ (Tab.rising_pairwise hrise).1.filter _
    exact Irq.foldl_higher_first hr' hpair ((hiff e).mpr ⟨he, hee⟩) hp

theorem Irq.winner_none {i : Irq} {k : Nat} (hw : i.winner k = none) : ∀ e ∈ i.srcs, i.eligible e.1 e.2 k = false := by
  rw [Irq.winner_eq] at hw
  cases hl : i.srcs.filter (fun e => i.eligible e.1 e.2 k) with
  | nil =>
    intro e he
    exact Bool.eq_false_iff.mpr (List.filter_eq_nil_iff.mp hl e he)
  | cons w l =>
    obtain ⟨r, hr, -, -⟩ := Irq.foldl_higher_max w l
    rw [hl, List.foldl_cons] at hw
    exact absurd (hw.symm.trans hr) (by simp)

/-! ### A spurious claim -/

/-- A processor whose contents differ from the reset ones reads back after its change. -/
theorem Irq.proc_onProc {i : Irq} {k : Nat} {f : Proc → Proc} (hf : f (i.proc k) ≠ Proc.reset) : (i.onProc k f).proc k = f (i.proc k) := by
  unfold Irq.proc at hf ⊢
  rw [Irq.onProc, Tab.modify, Tab.set, if_neg hf, Tab.get_put_same]

theorem Irq.proc_onProc_ne {i : Irq} {j k : Nat} {f : Proc → Proc} (hj : k ≠ j) (hf : f (i.proc j) ≠ Proc.reset) : (i.onProc j f).proc k = i.proc k := by
  unfold Irq.proc at hf ⊢
  rw [Irq.onProc, Tab.modify, Tab.set, if_neg hf, Tab.get_put_ne _ _ hj]

/-- The outputs newly assigned leave each processor's counts and its running PRIO alone. -/
theorem Irq.assign_proc (i : Irq) (k : Nat) : ((i.assign).proc k).spurCnt = (i.proc k).spurCnt ∧ ((i.assign).proc k).run = (i.proc k).run := by
  have hne : ∀ p : Proc, { p with out := true } ≠ Proc.reset := fun p hp => absurd (congrArg Proc.out hp) (by simp [Proc.reset])
  refine List.foldlRecOn (motive := fun j : Irq => (j.proc k).spurCnt = (i.proc k).spurCnt ∧ (j.proc k).run = (i.proc k).run) _ _ ⟨rfl, rfl⟩ ?_
  intro j hj m _
  by_cases hm : k = m
  · subst hm
    rw [Irq.proc_onProc (hne _)]
    exact hj
  · rw [Irq.proc_onProc_ne hm (hne _)]
    exact hj

theorem Irq.claim_spurious {i : Irq} {k : Nat} (hw : i.winner k = none) :
    ((i.claim k).proc k).spurCnt = satAdd 65535 (i.proc k).spurCnt 1 ∧ ((i.claim k).proc k).run = (i.proc k).run := by
  have hpos : satAdd 65535 (i.proc k).spurCnt 1 ≠ 0 := by
    unfold satAdd
    split <;> omega
  have hne : ({ i.proc k with out := false, spurCnt := satAdd 65535 (i.proc k).spurCnt 1 } : Proc) ≠ Proc.reset := fun hp =>
    hpos (congrArg Proc.spurCnt hp)
  obtain ⟨hspur, hrun⟩ := Irq.assign_proc (i.onProc k (fun p => { p with out := false, spurCnt := satAdd 65535 p.spurCnt 1 })) k
  rw [Irq.proc_onProc hne] at hspur hrun
  simp only [Irq.claim, hw]
  exact ⟨hspur, hrun⟩

/-! ### The filter -/

/-- A source's filter sets the level of a level source; a half that the level wakes is one with the source unmasked, not in PS0. -/
theorem exec_irqFilterPass {s : State} {h : HalfId} {n : Nat} (hf : s.blk.pair.frozen = false) (hheld : s.blk.held h = false)
    (hex : srcExists s.blk.variant n = true) (hedge : srcEdge n = false) :
    exec (.irqFilterPass h n) s = .next (s.withBlock (
      let b1 := s.blk.onHalf h (fun x => { x with irq := (x.irq.onSrc n (fun y => { y with level := x.rawLevel n })).assign })
      if s.blk.wakesOn h n && !((s.blk.half h).irq.src n).level && ((b1.half h).irq.src n).level then b1.wake h 4 else b1)) := by
  simp only [show exec (.irqFilterPass h n) s = execIrqFilterPass h n s from rfl, execIrqFilterPass, run_eq, hf, hheld, Bool.or_self, Bool.false_eq_true,
    if_false, Block.passFilter, Half.filterPass, hex, hedge, Bool.not_false, Bool.and_self, if_true, Half.onIrq, State.withBlock]

/-- Settles O58: the eight commands, the filter, and the winner of a claim. -/
theorem interrupts : Obligations.Interrupts := by
  refine ⟨fun h k n value s ht => ?_, fun h n s hf hheld hex hedge => ⟨fun hst => ?_, fun hst hmask hlow hhigh => ?_⟩,
    fun i k n y hw => Irq.winner_some hw, fun i k hw => ⟨Irq.winner_none hw, ?_, Irq.claim_spurious hw⟩⟩
  · dsimp only
    rw [← Block.taken_variant s.blk h causeRegister]
    exact ⟨portRun_of_takes ht causeRegister (.irqClaim h k) _, portRun_of_takes ht causeRegister (.irqEoi h k value) _,
      portRun_of_takes ht causeRegister (.irqPendSet h n value) _, portRun_of_takes ht causeRegister (.irqPendClear h n value) _,
      portRun_of_takes ht causeRegister (.irqMaskSet h n value) _, portRun_of_takes ht causeRegister (.irqMaskClear h n value) _,
      portRun_of_takes ht causeRegister (.irqCommitGo h) _⟩
  · have hno : s.blk.wakesOn h n = false := by simp [Block.wakesOn, hst]
    rw [exec_irqFilterPass hf hheld hex hedge]
    simp only [hno, Bool.false_and, Bool.false_eq_true, if_false]
  · have hwake : s.blk.wakesOn h n = true := by simp [Block.wakesOn, hf, hst, hex, hmask]
    rw [exec_irqFilterPass hf hheld hex hedge]
    simp only [hwake, hlow, hhigh, Bool.not_false, Bool.and_self, if_true]
  · simp only [Irq.claimValue, hw, spuriousWord]

end Sys2Proof.Machine
end

section
/-!
PROOFS. The power states, wakes and announcements (R183, R529, R533-R540, R544).
-/

namespace Sys2Proof.Machine

open Sys2Proof

/-! ### A wake from PS1 -/

/-- A half woken from PS1: nothing of its power registers changes but the state, the cause and the entry. -/
theorem Block.woken_ps1 {b : Block} {h : HalfId} (hst : (b.half h).pwr.state = 1) (cause : Nat) :
    ((b.woken h cause).half h).pwr = { (b.half h).pwr with state := 0, wakeCause := cause, entering := false } ∧
      (b.woken h cause).pair = b.pair := by
  have hchan := fun x f => Half.onDriven_view Half.pwr (fun _ _ => rfl) x f
  unfold Block.woken
  simp only [hst, if_true, Nat.reduceLeDiff, if_false, Nat.reduceEqDiff, Block.half_onHalf, Block.onHalf_pair, and_true]
  exact hchan _ Chan.pollAll

theorem Block.wake_ps1 {b : Block} {h : HalfId} (hf : b.pair.frozen = false) (hst : (b.half h).pwr.state = 1) (cause : Nat) :
    b.wake h cause = if (b.half h).falling then (b.woken h cause).send h .awake else b.woken h cause := by
  have hne : (b.half h).pwr.state ≠ 0 := by omega
  have h4 : ¬ (b.half h).pwr.state = 4 := by omega
  have h2 : ¬ 2 ≤ (b.half h).pwr.state := by omega
  simp only [Block.wake, hf, Bool.false_eq_true, if_false, h4, decide_false, Bool.false_and, Block.wakeOne_of_asleep hne, h2]

/-- Settles O59: the idle timer in each state, wakes, announcements and the clocks. -/
theorem powerStates : Obligations.PowerStates := by
  refine ⟨fun h s hf => ?_, fun h cause s => ⟨fun hbo hrt => ?_, fun hno => ?_⟩, fun h s ht => portRun_of_takes ht 8 (.pwrCtlWake h) _,
    fun b h cause hf hst => ?_, fun h s => ⟨fun hwatch => ?_, fun hheld hreqs => ?_⟩⟩
  · dsimp only
    have hidle : s.blk.held h = false → (s.blk.half h).boot.coreLock = true → exec (.idleTimerExpiry h) s = .next (s.withBlock (s.blk.sleep h)) := by
      intro hheld hcore
      simp [exec, execIdleTimerExpiry, State.withBlock, hf, hheld, hcore]
    refine ⟨fun hheld hcore hent hcan hst => ?_, fun hheld hcore hcan hcan2 hst => ⟨fun hlink => ?_, fun hlink hent => ?_⟩, fun hheld hcore hst hmax => ?_,
      fun n hin => ?_, fun hin => ?_, fun hin => ?_⟩
    · rw [hidle hheld hcore]
      simp [Block.sleep, hst, hcan, hent]
    · rw [hidle hheld hcore]
      simp [Block.sleep, hst, hcan, hcan2, hlink, Block.beginPs2]
    · rw [hidle hheld hcore]
      simp [Block.sleep, hst, hcan, hcan2, hlink, hent]
    · rw [hidle hheld hcore]
      simp [Block.sleep, hst, hmax]
    · simp [exec, execSleepMessage, State.withBlock, hf, hin]
    · simp [exec, execAwakeMessage, State.withBlock, hf, hin]
    · simp [exec, execWakeMessage, State.withBlock, hf, hin]
  · have hgo : (decide (cause = 6) && decide ((s.blk.half h).pwr.state = 4) || decide (cause = 7) && decide ((s.blk.half h).pwr.state ≠ 1)) = false := by
      simp only [← Bool.decide_and, hbo, hrt, decide_false, Bool.or_self]
    simp only [show exec (.wakeEvent h cause) s = execWakeEvent h cause s from rfl, execWakeEvent, run_eq, hgo, Bool.false_eq_true, if_false, State.withBlock]
  · have hstop : (decide (cause = 6) && decide ((s.blk.half h).pwr.state = 4) || decide (cause = 7) && decide ((s.blk.half h).pwr.state ≠ 1)) = true := by
      simpa only [← Bool.decide_and, ← Bool.decide_or, decide_eq_true_eq] using hno
    simp only [show exec (.wakeEvent h cause) s = execWakeEvent h cause s from rfl, execWakeEvent, run_eq, hstop, if_true]
  · obtain ⟨hpwr, hpair⟩ := Block.woken_ps1 hst cause
    have hsend := (b.woken h cause).send_view Half.pwr (fun _ _ => rfl) h h .awake
    rw [Block.wake_ps1 hf hst]
    split
    · rw [hsend, hpwr, Block.send_pair, hpair]
      exact ⟨rfl, rfl, rfl, rfl⟩
    · rw [hpwr, hpair]
      exact ⟨rfl, rfl, rfl, rfl⟩
  · exact next_congr s (Block.onHalf_congr (if_pos hwatch))
  · exact next_congr s (Block.onHalf_congr (if_pos (by simp [hheld, hreqs])))

end Sys2Proof.Machine
end

section
/-!
PROOFS. Keyed resets (R623, R624, R628, R634, R638, R647).
-/

namespace Sys2Proof.Machine

open Sys2Proof

/-! ### A warm reset -/

/-- What is told to the twin leaves the half as it is, but for its link's registers. -/
theorem Block.tellWarm_view {α : Type} (g : Half → α) (hg : ∀ x f, g (Half.onTwn x f) = g x) (b : Block) (h k : HalfId) (old : QueMgr) :
    g ((b.tellWarm h old).half k) = g (b.half k) := by
  have hsend := fun (a : Block) m => Block.send_view g hg a h k m
  have heach : ∀ b1 : Block, g ((b1.each old.adopted (fun a e => a.send h (.queue true e.1 .gone))).half k) = g (b1.half k) :=
    fun b1 => Block.each_view g k (fun a (e : Nat × Queue) => hsend a _) _ b1
  have hown : ∀ l : List Nat, g ((b.each l (fun a q => a.send h (.queue false q .gone))).half k) = g (b.half k) :=
    fun l => Block.each_view g k (fun a q => hsend a _) l b
  unfold Block.tellWarm
  dsimp only
  split
  · exact (heach _).trans (hown _)
  · split
    · exact (heach _).trans (hown _)
    · exact (hsend _ _).trans ((heach _).trans (hown _))

/-- The parts of a half a warm reset clears or keeps. -/
def Half.warmPart (x : Half) : Gutters × Irq × Loops × QueMgr × Store × Fly × GenCfg × Tab Chan × Boot :=
  (x.gut, x.irq, x.loops, x.que, x.store, x.fly, x.gen, x.chans, x.boot)

theorem Block.warmReset_part {b : Block} {h : HalfId} (hctx : (b.half h).que.ctxs = []) (hhold : (b.half h).pool.holds = []) :
    ((b.warmReset h).half h).warmPart = ((b.half h).warm b.variant).warmPart := by
  rw [Block.warmReset, if_pos (by simp [hctx, hhold]), Block.tellWarm_view Half.warmPart (fun _ _ => rfl), Block.half_onHalf]

theorem Block.warmReset_refused {b : Block} {h : HalfId} (hbusy : (b.half h).que.ctxs ≠ [] ∨ (b.half h).pool.holds ≠ []) :
    b.warmReset h = b.refuseReset h := by
  refine if_neg ?_
  rcases hbusy with hbusy | hbusy <;> simp [hbusy]

/-- Settles O60: the wrong key, and the three resets with the right one. -/
theorem keyedResets : Obligations.KeyedResets := by
  intro h key s ht
  dsimp only
  have hwarm : exec (.warmReset h key) s = .next (s.withBlock (if key = resetKey then (s.blk.taken h causeRegister).warmReset h
      else (s.blk.taken h causeRegister).refuseReset h)) := portRun_of_takes ht causeRegister (.warmReset h key) _
  have hformat : exec (.format h key) s = .next (s.withBlock (if key = resetKey then (s.blk.taken h causeRegister).formatHalf h
      else (s.blk.taken h causeRegister).refuseReset h)) := portRun_of_takes ht causeRegister (.format h key) _
  have hchan : ∀ ch finds, exec (.channelReset h ch key finds) s = .next (s.withBlock (if key = resetKey then
      (s.blk.taken h causeRegister).channelReset h ch finds else (s.blk.taken h causeRegister).refuseReset h)) := fun ch finds =>
    portRun_of_takes ht causeRegister (.channelReset h ch key finds) _
  refine ⟨fun hkey => ⟨?_, ?_, fun ch finds => ?_⟩, fun hkey => ⟨fun hbusy => ?_, fun hctx hhold => ⟨_, hwarm, rfl, ?_⟩, fun ch finds => ⟨fun hdrive => ?_,
    fun hdrive => ?_⟩, fun hblank => ⟨fun hst => ?_, fun hst => ?_⟩, fun hblank => ?_⟩⟩
  · rw [hwarm, if_neg hkey, Block.refuseReset]
  · rw [hformat, if_neg hkey, Block.refuseReset]
  · rw [hchan, if_neg hkey, Block.refuseReset]
  · rw [hwarm, if_pos hkey, Block.warmReset_refused hbusy, Block.refuseReset]
  · dsimp only [State.withBlock]
    rw [if_pos hkey]
    have hpart := Block.warmReset_part hctx hhold
    simp only [Half.warmPart, Half.warm, Prod.mk.injEq] at hpart
    obtain ⟨hgut, hirq, hloops, hque, hstore, hfly, hgen, hchans, hboot⟩ := hpart
    refine ⟨hgut, hirq, hloops, ?_, ?_, ?_, ?_, hstore, hfly, hgen, hchans, hboot⟩
    all_goals rw [hque]
    · rfl
    · intro e he
      rw [List.mem_singleton.mp he]
    · rfl
    · rfl
  · rw [hchan, if_pos hkey, Block.channelReset, if_pos hdrive]
    rfl
  · rw [hchan, if_pos hkey, Block.channelReset, hdrive, if_neg Bool.false_ne_true]
  · rw [hformat, if_pos hkey]
    simp [Block.formatHalf, hblank, Half.ready, hst]
  · rw [hformat, if_pos hkey]
    simp [Block.formatHalf, hblank, Half.ready, hst]
  · rw [hformat, if_pos hkey]
    simp [Block.formatHalf, hblank]

end Sys2Proof.Machine
end

section
/-!
PROOFS. The state right after reset (R71, R514), and the stages of bring-up (R145, R580, R627-R629, R633, R634).
-/

namespace Sys2Proof.Machine

open Sys2Proof

theorem Block.reset_half (v : Variant) (h : HalfId) : (Block.reset v).half h = Half.reset v := by
  cases h <;> rfl

/-- Right after reset queue 0 is the only queue. -/
theorem Half.reset_queue (v : Variant) {q : Nat} (hq : q ≠ 0) : (Half.reset v).que.queue? false q = none := by
  have h0 : ¬ 0 = q := fun h => hq h.symm
  simp [Half.reset, QueMgr.reset, QueMgr.queue?, Tab.find?, h0]

/-- Settles O5: each register at its reset value. -/
theorem stateAfterReset : Obligations.StateAfterReset := by
  intro v h
  dsimp only [State.resetOf]
  rw [Block.reset_half]
  refine ⟨rfl, rfl, rfl, rfl, rfl, fun _ => rfl, fun _ => ⟨rfl, rfl, rfl⟩, fun _ => ⟨rfl, rfl⟩, rfl, rfl, rfl, rfl, rfl, rfl, rfl, rfl, rfl, ?_, ?_,
    fun _ => ⟨rfl, rfl, rfl⟩, fun _ hq => Half.reset_queue v hq, fun _ => rfl, rfl, fun _ => rfl, rfl, rfl, rfl⟩
  · cases v <;> rfl
  · cases v <;> rfl

end Sys2Proof.Machine
end

section
/-!
PROOFS. The stages of bring-up (R145, R580, R627-R636).
-/

namespace Sys2Proof.Machine

open Sys2Proof

/-! ### What loads the microcode leaves the stage alone -/

theorem Block.event_boot (b : Block) (h k : HalfId) (kind detail rest : Nat) : ((b.event h kind detail rest).half k).boot = (b.half k).boot :=
  Block.event_view Half.boot (fun _ _ _ _ => rfl) (fun _ _ => rfl) b h k kind detail rest

theorem Block.retireNotice_boot (b : Block) (h k : HalfId) (kind i cause word die : Nat) (r : Bool) :
    ((b.retireNotice h kind i cause r word die).half k).boot = (b.half k).boot :=
  (Block.event_boot _ h k _ _ _).trans (Block.onHalf_view Half.boot b h k (by intro _; rfl))

theorem Block.failEngine_boot (b : Block) (h k : HalfId) (e : Nat) : ((b.failEngine h e).half k).boot = (b.half k).boot :=
  (Block.retireNotice_boot _ h k _ _ _ _ _ _).trans (Block.onHalf_view Half.boot b h k (by intro _; rfl))

theorem Block.failCore_boot (b : Block) (h k : HalfId) (soft : Bool) (i : Nat) : ((b.failCore h soft i).half k).boot = (b.half k).boot :=
  (Block.retireNotice_boot _ h k _ _ _ _ _ _).trans (Block.onHalf_view Half.boot b h k (by intro _; rfl))

theorem Half.bindProfiles_boot (x : Half) (table : List Family) : (x.bindProfiles table).boot = x.boot :=
  Half.onDriven_view Half.boot (fun _ _ => rfl) _ _

theorem Block.bindTable_boot (b : Block) (h : HalfId) (table : List Family) : ((b.bindTable h table).half h).boot = (b.half h).boot := by
  unfold Block.bindTable
  refine (Block.each_view Half.boot h (fun a (e : Nat × Nat) => Block.event_boot a h h _ _ _) _ _).trans ?_
  rw [Block.half_onHalf, Half.bindProfiles_boot]

theorem Half.bindEngines_boot (v : Variant) (x : Half) : (x.bindEngines v).boot = x.boot :=
  List.foldlRecOn (motive := fun y : Half => y.boot = x.boot) _ _ rfl (fun _ hy _ _ => hy)

theorem Half.assignFly_boot (v : Variant) (h : HalfId) (x : Half) : (x.assignFly v h).boot = x.boot := by
  unfold Half.assignFly
  split
  · rfl
  · exact List.foldlRecOn (motive := fun y : Half => y.boot = x.boot) _ _ rfl (fun _ hy _ _ => hy)

/-- A blank half assigns its flysheet units in the state of the boot that it is in. -/
theorem Block.blankFly_boot (b : Block) (h : HalfId) (v : Variant) (blank : Prop) [Decidable blank] :
    ((if blank then b.onHalf h (fun x => x.assignFly v h) else b).half h).boot = (b.half h).boot := by
  split
  · rw [Block.half_onHalf, Half.assignFly_boot]
  · rfl

/-! ### The halt of a half short of its service set -/

theorem Block.takeAbsent_half_ne (b : Block) {h k : HalfId} (hk : k ≠ h) : (b.takeAbsent h).half k = b.half k :=
  Block.half_onHalf_ne b hk _

/-- The half that stays leaves the halted one as it is. -/
theorem Block.leftAlone_half_ne (b : Block) {h k : HalfId} (hk : k ≠ h) : (b.leftAlone h).half k = b.half k := by
  unfold Block.leftAlone
  dsimp only
  split
  · split
    · rw [Block.half_onHalf_ne _ hk, Block.takeAll_half_ne hk, Block.takeAbsent_half_ne _ hk]
    · exact Block.takeAbsent_half_ne b hk
  · rfl

theorem Block.halt_stage (b : Block) (h : HalfId) (cause : Nat) : ((b.halt h cause).half h).boot.stage = 15 := by
  rw [Block.halt, Block.half_onHalf]

theorem Block.haltShort_stage (b : Block) (h : HalfId) (cause : Nat) : ((b.haltShort h cause).half h).boot.stage = 15 := by
  have hne : h ≠ h.twin := by cases h <;> decide
  unfold Block.haltShort
  split
  · exact b.halt_stage h cause
  · rw [Block.leftAlone_half_ne _ hne, Block.halt_stage]

/-! ### The synchronisation and the search -/

theorem Block.showMarks_store (b : Block) (h : HalfId) (l : List SpareRead) : ((b.showMarks h l).half h).store = (b.half h).store := by
  rw [Block.showMarks, Block.half_onHalf]
  refine List.foldlRecOn (motive := fun y : Half => y.store = (b.half h).store) _ _ rfl (fun y hy r _ => ?_)
  split <;> exact hy

theorem Block.attachBoth_attached (b : Block) : b.attachBoth.ha.twn.st = .attached ∧ b.attachBoth.hb.twn.st = .attached :=
  ⟨rfl, rfl⟩

/-- Settles O20: each stage by what its command tests; the stage of a microcode load by what its parts leave of the boot state. -/
theorem bringupStages : Obligations.BringupStages := by
  refine ⟨fun h s hcore => ⟨?_, ?_, ?_, ?_, ?_, ?_, ?_⟩, ?_⟩
  · intro finds table hstage
    simp [exec, execDieDiscovery, run_eq, State.withBlock, hstage, hcore, Block.each]
  · intro copies marks c hstage hnew
    simp [exec, execCheckpointSearch, run_eq, State.withBlock, hstage, hcore, hnew]
  · intro copies marks hstage hnew
    refine ⟨_, rfl, rfl, ?_⟩
    simp [hstage, hcore, hnew, Block.showMarks_store]
  · intro good badEng badHard badSoft table hstage hst
    refine ⟨_, rfl, rfl, ?_⟩
    simp only [hstage, hst, hcore, decide_true, decide_false, Bool.false_and, Bool.or_false, Bool.and_true, if_true, Bool.false_eq_true, if_false]
    split
    · exact .inr (Block.haltShort_stage _ h _)
    · refine .inl ?_
      rw [Block.notePool, Block.half_onHalf, Block.half_onHalf]
      show (Half.boot (Block.half _ h)).stage = 4
      rw [Block.blankFly_boot, Block.half_onHalf, Half.bindEngines_boot, Block.bindTable_boot, Block.each_view Half.boot h (fun a k => a.failCore_boot h h true k),
        Block.each_view Half.boot h (fun a k => a.failCore_boot h h false k), Block.each_view Half.boot h (fun a e => a.failEngine_boot h h e), Block.half_onHalf]
  · intro slots leaves samples marks flash hl hstage hblank
    simp [exec, execRecordRestore, run_eq, State.withBlock, hstage, hcore, hl, Block.restoreNow, hblank]
  · intro slots leaves samples marks flash hl hstage hblank
    simp [exec, execRecordRestore, run_eq, State.withBlock, hstage, hcore, hl, Block.restoreNow, hblank]
  · intro us hstage hst hphase
    have hne : h.twin ≠ h := by cases h <;> decide
    refine ⟨_, rfl, rfl, ?_⟩
    simp [hstage, hst, hcore, hphase, Block.recoverFrom, Block.driveWp, Block.half_onHalf_ne _ hne]
  · intro s ha hb hf hla hlb
    refine ⟨?_, s.blk.attachBoth_attached⟩
    simp [exec, execMirrorSync, run_eq, State.withBlock, ha, hb, hf, hla, hlb]

end Sys2Proof.Machine
end
